-- ==== Sys2Proof/Word.lean ====
section
/-! DEFINITION. The plain types every other file uses: bytes, page memory addresses, and tables of a fixed number of
records (the page table, the document table, the destination pool and the like, spec/00_scope.md section 6 "Indices"). -/

namespace Sys2Proof

/-- One byte of page memory, the smallest unit the host reads or writes. -/
abbrev Byte := BitVec 8

/-- A page memory address: 26 bits (spec/00_scope.md section 6, "Addresses"). -/
abbrev Addr := BitVec 26

/-- `n` records of one kind, indices 0 to n - 1. -/
structure Table (α : Type) (n : Nat) where
  cells : List α
  size : cells.length = n
  deriving DecidableEq, Repr

namespace Table

variable {α β : Type} {n : Nat}

/-- Every record the same. -/
def replicate (n : Nat) (x : α) : Table α n := ⟨List.replicate n x, List.length_replicate⟩

/-- The record at an index. -/
def get (t : Table α n) (i : Fin n) : α := t.cells.get ⟨i.val, by rw [t.size]; exact i.isLt⟩

/-- The table with one record replaced. -/
def set (t : Table α n) (i : Fin n) (x : α) : Table α n :=
  ⟨t.cells.set i.val x, by rw [List.length_set]; exact t.size⟩

/-- The table with one record changed by a function. -/
def modify (t : Table α n) (i : Fin n) (f : α → α) : Table α n := t.set i (f (t.get i))

/-- The place of the first element that satisfies a test, counting from `k`. -/
def firstFrom (p : α → Bool) : List α → Nat → Option Nat
  | [], _ => none
  | x :: rest, k => if p x then some k else firstFrom p rest (k + 1)

/-- The lowest index whose record satisfies a test. -/
def first (t : Table α n) (p : α → Bool) : Option (Fin n) :=
  match firstFrom p t.cells 0 with
  | some k => if h : k < n then some ⟨k, h⟩ else none
  | none => none

/-- Does some record satisfy a test? -/
def any (t : Table α n) (p : α → Bool) : Bool := t.cells.any p

@[ext] theorem ext_get {t u : Table α n} (h : ∀ i, t.get i = u.get i) : t = u := by
  cases t with
  | mk a ha =>
    cases u with
    | mk b hb =>
      have : a = b := by
        apply List.ext_getElem (by rw [ha, hb])
        intro i h1 _
        have := h ⟨i, by rw [← ha]; exact h1⟩
        simpa [get] using this
      subst this
      rfl

@[simp] theorem get_replicate (x : α) (i : Fin n) : (replicate n x).get i = x := by
  simp [replicate, get]

@[simp] theorem get_set_self (t : Table α n) (i : Fin n) (x : α) : (t.set i x).get i = x := by
  simp [set, get]

theorem get_set_of_ne (t : Table α n) {i j : Fin n} (x : α) (h : i ≠ j) :
    (t.set i x).get j = t.get j := by
  have : i.val ≠ j.val := fun e => h (Fin.ext e)
  simp [set, get, this]

theorem get_set (t : Table α n) (i j : Fin n) (x : α) :
    (t.set i x).get j = if i = j then x else t.get j := by
  by_cases h : i = j
  · subst h; simp
  · simp [h, get_set_of_ne]

@[simp] theorem get_modify_self (t : Table α n) (i : Fin n) (f : α → α) :
    (t.modify i f).get i = f (t.get i) := by simp [modify]

theorem get_modify_of_ne (t : Table α n) {i j : Fin n} (f : α → α) (h : i ≠ j) :
    (t.modify i f).get j = t.get j := by simp [modify, get_set_of_ne, h]

end Table

end Sys2Proof
end

