-- ==== Sys2Proof/Config.lean ====
section
/-! DEFINITION. What one part fixes: its sizes, limits and durations, each from the rule named beside it, and the one
free value of the model. Times are in microseconds, the finest unit the manual uses (log entry 2). -/

namespace Sys2Proof.Config

/-- FREE VALUE (log entry 9). A count that stands at the top of its range gains 1 where the manual states no result:
nothing constrains what it becomes. The argument is the model's own counter of such events, so two events are unrelated. -/
opaque freeWord : Nat → BitVec 32

/-- What a byte of page memory that nothing has written reads as. DESIGN CHOICE (log entry 3). -/
def unwrittenByte : Byte := 0

/-- Page memory is 64 MiB (spec/00_scope.md section 1; addresses of 26 bits). -/
def memoryBytes : Nat := 67108864
/-- The control region is 64 KiB (R1). -/
def controlBytes : Nat := 65536
/-- A store block (R63). -/
def blockBytes : Nat := 1024
/-- The charge log area: 1,024 records of 64 bytes (R3). -/
def logBytes : Nat := 65536
/-- Charge records in the log ring (R194). -/
def logRecords : Nat := 1024
/-- The unread count at whose reaching LOG is raised (R194). -/
def logHighMark : Nat := 768
/-- Largest bytes of one store request (R14). -/
def requestBytes : Nat := 64
/-- Host grants allowed while an internal request waits (R15). -/
def passedOverLimit : Nat := 8
/-- The reserve at power-on (R80), and the field value that keeps the reserve in force (R61). -/
def powerOnReserve : Nat := 32
def keepReserve : Nat := 65535
/-- Lines of a page (R70, R88). -/
def pageLines : Nat := 4096
/-- Pages of a document (R69). -/
def documentPages : Nat := 200
/-- Destinations of a document (R103). -/
def documentDestinations : Nat := 64
/-- Bytes of a coded line (R45, R49). -/
def lineBytes : Nat := 1024
/-- Stored bytes a send or print stream holds read ahead (R144, R163). -/
def readAheadBytes : Nat := 2048
/-- The coded queue length above which no further line is taken (R86, R152). -/
def codedQueueMark : Nat := 1024
/-- Consecutive concealed lines that make a page POOR (R154, R155). -/
def badRunMark : Nat := 12

/-- Hold limit at power-on and its bounds, in microseconds (R12). -/
def powerOnHoldLimit : Nat := 40
def holdLimitMin : Nat := 2
def holdLimitMax : Nat := 250

/-- One millisecond and one second, in microseconds. -/
def ms : Nat := 1000
def second : Nat := 1000000
def secondsPerDay : Nat := 86400
/-- Ring qualifier (R119). -/
def ringQualifier : Nat := 150 * ms
/-- Ring cycle timer, and the time a line with a counted burst is not free (R107, R119). -/
def ringCycle : Nat := 8 * second
/-- Qualified meter pulse widths (R120). -/
def meterMin : Nat := 30 * ms
def meterMax : Nat := 300 * ms
/-- Loop loss (R121). -/
def loopLoss : Nat := 400 * ms
/-- Loop check (R126). -/
def loopCheck : Nat := 1 * second
/-- Pulse break, pulse make and interdigit time (R130). -/
def pulseBreak : Nat := 60 * ms
def pulseMake : Nat := 40 * ms
def interdigit : Nat := 700 * ms
/-- Budget grace (R187). -/
def grace : Nat := 30 * second

end Sys2Proof.Config
end

