-- ==== Sys2Proof/Syntax.lean ====
section
/-! DEFINITION. The commands of the block: one constructor of `Instr` for each row of spec/opcode_table.json, with the
operands the row's rule gives it. A host access carries its address, size and data; a ring command carries the fields of
its slot as R200 lays them out, unjudged; an event of a line carries the line's number. -/

namespace Sys2Proof

/-- A host access moves 1, 2 or 4 bytes (spec/00_scope.md section 6, "Host accesses"). -/
inductive AccessSize where
  | one
  | two
  | four
  deriving DecidableEq, Repr

/-- The bytes an access moves. -/
def AccessSize.bytes : AccessSize → Nat
  | .one => 1
  | .two => 2
  | .four => 4

/-- A host read: the address of its lowest byte and its size. -/
structure HostRead where
  addr : Addr
  size : AccessSize
  deriving DecidableEq, Repr

/-- A host write. The value's least significant byte goes to the lowest address (R8). -/
structure HostWrite where
  addr : Addr
  size : AccessSize
  data : BitVec 32
  deriving DecidableEq, Repr

/-- One host access. -/
inductive HostAccess where
  | read (r : HostRead)
  | write (w : HostWrite)
  deriving DecidableEq, Repr

/-- A clock value field of 8 bytes (spec/12_layouts.md section 12.1): present when its presence byte is not 0. -/
structure ClockField where
  second : BitVec 32
  day : BitVec 16
  present : BitVec 8
  deriving DecidableEq, Repr

/-- A number field of 13 bytes: the character count and 24 characters of four bits, the first in the lowest bits. -/
structure NumberField where
  count : BitVec 8
  chars : BitVec 96
  deriving DecidableEq, Repr

/-- The settings block of LINE SETUP (spec/12_layouts.md section 12.3). -/
structure SettingsField where
  direction : BitVec 8
  dialMethod : BitVec 8
  chargeMethod : BitVec 8
  rings : BitVec 8
  seizeDelay : BitVec 8
  noAnswer : BitVec 8
  clearGuard : BitVec 8
  pauseLength : BitVec 8
  toneOn : BitVec 16
  toneGap : BitVec 16
  deriving DecidableEq, Repr

/-- The block's commands, in the order of spec/opcode_table.json. -/
inductive Instr where
  -- resets (R39, R40, R41)
  | powerOn (straps : BitVec 4)
  | resetInputAssert
  | resetInputRelease
  -- host accesses, by the treatment R1 gives them
  | hostForwardedAccess (a : HostAccess)
  | holdLimitWrite (w : HostWrite)
  | noticeMaskWrite (w : HostWrite)
  | maskReadComplete
  | windowTableWrite (w : HostWrite)
  | tailWordWrite (w : HostWrite)
  | tailReadComplete
  | acknowledgeWrite (w : HostWrite)
  | controlAreaDrop (w : HostWrite)
  | storeLogWriteDrop (w : HostWrite)
  | closedWindowAccess (a : HostAccess)
  | wrongDirectionWindowAccess (a : HostAccess)
  | scanWindowWrite (w : HostWrite)
  | receiveWindowWrite (w : HostWrite)
  | printWindowRead (r : HostRead)
  | sendWindowRead (r : HostRead)
  | holdExpiry
  -- completions on the memory port (R14)
  | storeWriteComplete
  | storeReadComplete
  | mirrorWriteComplete
  | slotReadComplete
  | resultWriteComplete
  | chargeRecordWriteComplete
  -- ring commands (R200)
  | unknownCommand (code : BitVec 8)
  | storeSetup (storeBase : BitVec 32) (blockCount : BitVec 16) (logBase : BitVec 32) (reserve : BitVec 16)
  | timeSet (day : BitVec 16) (dayOfWeek : BitVec 8) (second : BitVec 32)
  | periodSet (entry daySet period : BitVec 8) (start : BitVec 32)
  | tariffSet (band : BitVec 8) (value0 value1 value2 value3 : BitVec 16)
  | prefixSet (entry digitCount cls band : BitVec 8) (digits : BitVec 64)
  | accountSet (account cls policy : BitVec 8) (code : BitVec 16) (budget : BitVec 32)
  | accountClear (account : BitVec 8)
  | lineSetup (line : BitVec 8) (settings : SettingsField)
  | docCreate (kind priority account retryInterval attemptLimit localCopy copies : BitVec 8) (notBefore : ClockField)
  | destAdd (document : BitVec 8) (number : NumberField)
  | docRelease (document : BitVec 8)
  | docCancel (document : BitVec 8)
  | destCancel (destination : BitVec 16)
  | docDelete (document : BitVec 8)
  | printFirst (document : BitVec 8)
  | scanOpen (document width k : BitVec 8)
  | pageCut
  | scanResume
  | scanClose
  | printOpen
  | printNext
  | printClose
  | sendOpen (line takesRepeat minLineBytes : BitVec 8)
  | pageResult (line verdict : BitVec 8)
  | receiveOpen (line width k : BitVec 8)
  | streamClose (line : BitVec 8)
  | callAnswer (line : BitVec 8)
  | answerSeen (line : BitVec 8)
  | callEnd (line cause : BitVec 8)
  | logRelease (count : BitVec 16)
  -- coder completions (R54 to R57)
  | encodeComplete
  | decodeComplete
  | checkComplete
  | expandComplete
  -- timers and line signals
  | retryTimerExpiry (destination : Fin 512)
  | secondEvent
  | ringBurstCounted (line : Fin 4)
  | ringCycleEnd (line : Fin 4)
  | meterPulseJudged (line : Fin 4) (width : Nat)
  | reversal (line : Fin 4)
  | loopSensePresent (line : Fin 4)
  | loopSenseAbsent (line : Fin 4)
  | loopLoss (line : Fin 4)
  | loopCheckExpiry (line : Fin 4)
  | seizeDelayExpiry (line : Fin 4)
  | dialElementEnd (line : Fin 4)
  | noAnswerExpiry (line : Fin 4)
  | clearGuardExpiry (line : Fin 4)
  | unitTimerExpiry (line : Fin 4)
  | graceExpiry (line : Fin 4)
  | ringInputActive (line : Fin 4)
  | ringInputInactive (line : Fin 4)
  | meterInputActive (line : Fin 4)
  | dialElementPhaseEnd (line : Fin 4)
  deriving DecidableEq, Repr

end Sys2Proof
end

