-- ==== Sys2Proof/Decode.lean ====
section
/-! DEFINITION. The decoder. The block takes commands, not words: no row of spec/opcode_table.json gives its command any
bits, so no word spells one. -/

namespace Sys2Proof

/-- The command that a word spells by the table's bits: none, for any word. -/
def decodeTableWord (_nbits _w : Nat) : Option Instr := none

end Sys2Proof
end

