-- ==== Sys2Proof/Machine/State.lean ====
section
/-! DEFINITION. The state of the B416 as plain data: every record, queue, buffer, timer, counter and pin the manual's
chapters name (spec/00_scope.md section 2 lists the blocks), the queue of commands that are waiting, and the state at
power-on. INVENTORY.md names the rule and the reset value of each. -/

namespace Sys2Proof.Machine

/-! ## Outcomes -/

/-- No command of this block stops it: the manual gives every row of the table an effect in every state. -/
inductive Fault where
  deriving DecidableEq, Repr

/-- Why a step is refused. -/
inductive Refusal where
  /-- Raised only by an arm of exec whose command has no meaning yet. Safe: nothing is concluded about the command. -/
  | notModelled (mnemonic : String)
  deriving DecidableEq, Repr

/-! ## Names the chapters share -/

/-- Page widths (spec/00_scope.md section 6). -/
inductive Width where
  | narrow
  | standard
  | wide
  deriving DecidableEq, Repr

/-- A dial character (spec/00_scope.md section 6). -/
inductive DialChar where
  | digit (d : Fin 10)
  | star
  | hash
  | pause
  deriving DecidableEq, Repr

/-- A clock value: day number and second of day (section 10.1). -/
structure ClockValue where
  day : BitVec 16
  second : Nat
  deriving DecidableEq, Repr

/-- Why a call, an attempt or a line's last clearing ended (R110, R140; codes in section 12.1). -/
inductive Cause where
  | none
  | normal
  | busy
  | noAnswer
  | failed
  | noLoop
  | loopDrop
  | cancel
  | budget
  | damaged
  | glare
  | reset
  | incomplete
  | empty
  | barred
  | badNumber
  deriving DecidableEq, Repr

/-- The result codes of R29. -/
inductive ResultCode where
  | ok
  | busy
  | badArg
  | noSpace
  | notFound
  | refused
  | barred
  | noLog
  deriving DecidableEq, Repr

/-- The twelve notice flags, in the order of section 2.4. -/
inductive Notice where
  | command
  | stream
  | line
  | dispatch
  | printQ
  | storeLow
  | log
  | budget
  | guard
  | hold
  | clock
  | reset
  deriving DecidableEq, Repr

/-- The six streams; stream mirror and window numbers follow this order (section 1.2). -/
inductive StreamId where
  | scan
  | print
  | line (n : Fin 4)
  deriving DecidableEq, Repr

/-- The streams that write pages (R68). -/
inductive Writer where
  | scan
  | line (n : Fin 4)
  deriving DecidableEq, Repr

/-- Every record that has a mirror, the status words and the counters among them (section 2.5). -/
inductive RecordId where
  | statusWords
  | counters
  | page (p : Fin 512)
  | document (d : Fin 64)
  | account (a : Fin 32)
  | line (n : Fin 4)
  | stream (w : Fin 6)
  | prefixEntry (e : Fin 32)
  | tariff
  | destination (d : Fin 512)
  deriving DecidableEq, Repr

/-! ## The path unit (chapter 1) -/

/-- Window status (section 1.2). -/
inductive WindowStatus where
  | off
  | active
  | pending
  | refused
  deriving DecidableEq, Repr

/-- An active entry; size code 0 is off. -/
structure ActiveWindow where
  base : Addr
  sizeCode : Nat
  deriving DecidableEq, Repr

/-- A taken entry that waits: the size code as written, and whether R5 refused it. -/
structure PendingWindow where
  base : Addr
  sizeCode : Nat
  refused : Bool
  deriving DecidableEq, Repr

/-- The shadow of one window: the staging copy, the active and the pending entry, the status (R4 to R6). -/
structure WindowShadow where
  stagingBase : BitVec 32
  stagingSize : Byte
  active : ActiveWindow
  pending : Option PendingWindow
  status : WindowStatus
  deriving DecidableEq, Repr

/-- Why an access is held (R12). -/
inductive HoldReason where
  | scanFull
  | receiveFull
  | printNotDecoded
  | memoryPort
  deriving DecidableEq, Repr

/-- The held access: what it is, the window that has it (none for a forwarded access), why, since when, and the hold
limit in force when the hold began (R12). -/
structure HeldAccess where
  access : HostAccess
  window : Option (Fin 6)
  reason : HoldReason
  start : Nat
  limit : Nat
  deriving DecidableEq, Repr

/-- What the host side received when its last access completed: the bytes read, lowest address first, or ready. -/
inductive HostAnswer where
  | read (bytes : List Byte)
  | written
  deriving DecidableEq, Repr

/-- The eight requesters of R14. -/
inductive Requester where
  | scan
  | print
  | line (n : Fin 4)
  | control
  | charge
  deriving DecidableEq, Repr

/-- What the request on the port does; `live` is false for a read whose bytes are discarded when they arrive (R40, R144,
R167). -/
inductive PortKind where
  | storeWrite (writer : Writer) (page : Fin 512) (ends : Bool)
  | storeRead (live : Bool)
  | recordWrite (record : RecordId)
  | slotRead (live : Bool)
  | resultWrite
  | tailRead
  | maskRead
  | chargeWrite
  deriving DecidableEq, Repr

/-- The internal request that has the memory port: its address and the bytes it writes or has read, taken at the grant. -/
structure PortRequest where
  requester : Requester
  kind : PortKind
  addr : Nat
  bytes : List Byte
  deriving DecidableEq, Repr

/-- A store write that a stream has queued: the page it is for, and how many of that page's next bytes it carries (R14). -/
structure StoreWrite where
  page : Fin 512
  size : Nat
  deriving DecidableEq, Repr

/-- The path unit. The store writes queued stand by writer: the scan stream's, then those of lines 0 to 3. -/
structure PathUnit where
  controlBase : Addr
  windows : Table WindowShadow 6
  held : Option HeldAccess
  answer : Option HostAnswer
  holdLimit : Nat
  holdCopy : BitVec 32
  requests : List Requester
  storeWrites : Table (Option StoreWrite) 5
  port : Option PortRequest
  passedOver : Nat
  controlDrops : Nat
  storeDrops : Nat
  logDrops : Nat
  deriving DecidableEq, Repr

/-! ## The control unit (chapter 2) -/

/-- Engine state (section 2.2). -/
inductive Engine where
  | pass
  | running
  deriving DecidableEq, Repr

/-- Ring state (section 2.3). -/
inductive RingState where
  | ready
  | halted
  deriving DecidableEq, Repr

/-- The state of the command in progress (R27). -/
inductive CommandStage where
  | reading
  | executed
  deriving DecidableEq, Repr

/-- The command in progress. -/
structure CommandInProgress where
  count : BitVec 6
  stage : CommandStage
  deriving DecidableEq, Repr

/-- A command's outcome: result code and the fourteen bytes of result data (R201). -/
structure CommandResult where
  code : ResultCode
  data : List Byte
  deriving DecidableEq, Repr

/-- The entries of the mirror write queue (R35). A result write carries its slot and its 16 bytes. -/
inductive QueueEntry where
  | record (r : RecordId)
  | slotRead
  | resultWrite (slot : Nat) (bytes : List Byte)
  | tailRead
  | maskRead
  deriving DecidableEq, Repr

/-- Reset teardown: while pages are still being closed, or after that, while `left` of the requests that the control unit held
as the full rewrite joined its queue have still to complete (R38, R40). -/
inductive Teardown where
  | storeWork
  | rewriting (left : Nat)
  deriving DecidableEq, Repr

/-- The control unit. `lastResult` is the model's own: the outcome of the ring command executed last (log entry 4). -/
structure ControlUnit where
  engine : Engine
  teardown : Option Teardown
  head : BitVec 6
  takenTail : BitVec 6
  ring : RingState
  inProgress : Option CommandInProgress
  ringErrors : Nat
  notices : BitVec 12
  mask : BitVec 12
  queue : List QueueEntry
  lastResult : Option CommandResult
  deriving DecidableEq, Repr

/-! ## The store manager (chapter 4) -/

/-- Page states (R68). -/
inductive PageState where
  | free
  | writing
  | closed
  deriving DecidableEq, Repr

/-- Why the store manager refuses room (R65, R69, R70). -/
inductive RoomCause where
  | block
  | entry
  | pages
  | lines
  deriving DecidableEq, Repr

/-- A page record (R68). The chain is the page's blocks in order; its ends are the first and last block. -/
structure PageRecord where
  state : PageState
  closing : Bool
  document : Fin 64
  position : Nat
  width : Width
  k : Nat
  lineCount : Nat
  byteCount : Nat
  chain : List Nat
  check : BitVec 16
  badLines : Nat
  short : Bool
  truncated : Bool
  poor : Bool
  damaged : Bool
  writer : Writer
  deriving DecidableEq, Repr

/-- The values of a free page entry (R68). -/
def PageRecord.empty : PageRecord :=
  { state := .free, closing := false, document := 0, position := 0, width := .narrow, k := 0, lineCount := 0,
    byteCount := 0, chain := [], check := 0, badLines := 0, short := false, truncated := false, poor := false,
    damaged := false, writer := .scan }

/-- A page a stream writes or is closing: its placed bytes not yet handed to the path unit, and its running check (R17). -/
structure PageInHand where
  page : Fin 512
  queued : List Byte
  check : BitVec 16
  deriving DecidableEq, Repr

/-- The flags a close request names (R73). -/
structure CloseFlags where
  short : Bool := false
  truncated : Bool := false
  poor : Bool := false
  deriving DecidableEq, Repr

/-- A writer slot (R73): the page being written and the page being closed. `asked` is the model's own: the close of the page
being written that was asked for while another was being closed, and waits for it (log entry 14). -/
structure WriterSlot where
  writing : Option PageInHand
  asked : Option CloseFlags
  closing : Option PageInHand
  deriving DecidableEq, Repr

/-- The store manager. The free list is in order, head first; the block map is the links these lists give. -/
structure StoreManager where
  base : Nat
  blockCount : Nat
  logBase : Nat
  reserve : Nat
  freeList : List Nat
  pages : Table PageRecord 512
  slots : Table WriterSlot 5
  deriving DecidableEq, Repr

/-! ## The coder (chapter 3) -/

/-- Line job kinds (section 3.5). -/
inductive JobKind where
  | encode
  | decode
  | check
  | expand
  deriving DecidableEq, Repr

/-- The job state of a context. -/
inductive JobState where
  | none
  | queued (kind : JobKind)
  | running (kind : JobKind)
  deriving DecidableEq, Repr

/-- A line context (section 3.5). The reference line is its pixels, first pixel first, true for black. -/
structure LineContext where
  isOpen : Bool
  width : Width
  k : Nat
  reference : List Bool
  repeatRun : Nat
  job : JobState
  deriving DecidableEq, Repr

/-- The job on the engine; `live` is false once it is discarded (R59). -/
structure RunningJob where
  stream : StreamId
  kind : JobKind
  live : Bool
  deriving DecidableEq, Repr

/-- The coder. The job queue is the contexts whose job is queued (R52: at most one per stream). -/
structure Coder where
  engine : Option RunningJob
  contexts : Table LineContext 6
  lastReceive : Fin 4
  lastSend : Fin 4
  deriving DecidableEq, Repr

/-! ## The scan stream (chapter 5) -/

/-- Scan stream states (section 5.1). -/
inductive ScanState where
  | closed
  | open
  | cutting
  | starved
  | closing
  deriving DecidableEq, Repr

/-- Starvation causes (R92). -/
inductive StarveCause where
  | none
  | block
  | entry
  | pages
  deriving DecidableEq, Repr

/-- The two raw line buffers, and the two decoded line buffers. -/
inductive BufferId where
  | a
  | b
  deriving DecidableEq, Repr

/-- A raw line buffer (R83). -/
inductive RawBuffer where
  | empty
  | filling (bytes : List Byte)
  | full (bytes : List Byte)
  deriving DecidableEq, Repr

/-- The scan stream. `first` names the buffer whose turn comes first: the older line, or the next to be filled. -/
structure ScanStream where
  state : ScanState
  cause : StarveCause
  document : Fin 64
  width : Width
  k : Nat
  bufferA : RawBuffer
  bufferB : RawBuffer
  first : BufferId
  cut : Option BufferId
  trailing : Nat
  dropped : Nat
  expiries : Nat
  clipped : Nat
  deriving DecidableEq, Repr

/-! ## The print stream (chapter 9) -/

/-- Print stream states (section 9.1). -/
inductive PrintState where
  | closed
  | open
  | pageEnd
  | docEnd
  deriving DecidableEq, Repr

/-- A decoded line buffer: READY holds the pixel bytes not yet served. -/
inductive DecodedBuffer where
  | empty
  | decoding
  | ready (bytes : List Byte) (served : Nat)
  deriving DecidableEq, Repr

/-- The print stream. `first` names the buffer that holds, or will hold, the oldest unserved line. -/
structure PrintStream where
  state : PrintState
  waiting : Bool
  document : Fin 64
  copy : Nat
  position : Nat
  page : Fin 512
  width : Width
  lineCount : Nat
  byteCount : Nat
  readPos : Nat
  readAhead : List Byte
  linesFramed : Nat
  bufferA : DecodedBuffer
  bufferB : DecodedBuffer
  first : BufferId
  linesServed : Nat
  dropped : Nat
  expiries : Nat
  codeErrors : Nat
  deriving DecidableEq, Repr

/-! ## The line streams (chapter 8) -/

/-- The kind of a line stream's present or last session. -/
inductive StreamDirection where
  | none
  | send
  | receive
  deriving DecidableEq, Repr

/-- Line stream states (section 8.1); a receive stream takes CLOSED, OPEN and STALLED only. -/
inductive LineStreamState where
  | closed
  | open
  | pageEnd
  | waitPage
  | draining
  | docEnd
  | stalled
  deriving DecidableEq, Repr

/-- Stall causes (R159). -/
inductive StallCause where
  | none
  | damaged
  | failed
  | bad
  | store
  | pages
  deriving DecidableEq, Repr

/-- Drain phases (R150). -/
inductive DrainPhase where
  | none
  | serving
  | ended
  | done
  deriving DecidableEq, Repr

/-- A collected line: its kept bytes, the lost mark, and whether an END-OF-PAGE cut it off (R152). -/
structure CollectedLine where
  bytes : List Byte
  lost : Bool
  endsPage : Bool
  deriving DecidableEq, Repr

/-- The line under collection: kept bytes, lost mark, overflow flag, and whether the next byte is in extension position. -/
structure Collecting where
  bytes : List Byte
  lost : Bool
  overflow : Bool
  inExtension : Bool
  deriving DecidableEq, Repr

/-- A line that an EXPAND job has returned: its bytes not yet served, padding included, and the stored bytes it stands for. -/
structure ReadyLine where
  bytes : List Byte
  stored : Nat
  deriving DecidableEq, Repr

/-- A line stream (chapter 8). Its coded queue is the bytes its writer slot holds. `ready` holds the lines EXPAND jobs
have returned, oldest first. -/
structure LineStream where
  direction : StreamDirection
  state : LineStreamState
  stall : StallCause
  drain : DrainPhase
  forced : Bool
  callDoc : Option (Fin 64)
  document : Fin 64
  position : Nat
  takesRepeat : Bool
  minLine : Nat
  page : Fin 512
  readPos : Nat
  readAhead : List Byte
  check : Option (BitVec 16)
  ready : List ReadyLine
  served : Nat
  inExtension : Bool
  width : Width
  k : Nat
  collecting : Collecting
  waiting : Option CollectedLine
  carried : List Byte
  checkBuffer : Option CollectedLine
  pageEnd : Bool
  badRun : Nat
  badRunFlag : Bool
  dropped : Nat
  expiries : Nat
  fillCount : Nat
  badLines : Nat
  codeErrors : Nat
  deriving DecidableEq, Repr

/-! ## The dispatch unit (chapter 6) -/

/-- Document kinds, priorities and print obligations (R98). -/
inductive DocKind where
  | out
  | copy
  | incoming
  deriving DecidableEq, Repr

inductive Priority where
  | flash
  | urgent
  | routine
  deriving DecidableEq, Repr

inductive PrintObligation where
  | none
  | pending
  | queued
  | printing
  | done
  deriving DecidableEq, Repr

/-- Document states, derived (R99). -/
inductive DocState where
  | building
  | unreleased
  | active
  | complete
  deriving DecidableEq, Repr

/-- A document record (R98), but for its page list, which `DispatchUnit.pageLists` holds. -/
structure DocRecord where
  inUse : Bool
  kind : DocKind
  priority : Priority
  account : Fin 32
  notBefore : Option ClockValue
  retryInterval : Nat
  attemptLimit : Nat
  localCopy : Bool
  copies : Nat
  dests : List (Fin 512)
  building : Bool
  released : Bool
  releaseOrder : BitVec 32
  obligation : PrintObligation
  complete : Bool
  deriving DecidableEq, Repr

/-- The values of a free document entry (R98). -/
def DocRecord.empty : DocRecord :=
  { inUse := false, kind := .out, priority := .routine, account := 0, notBefore := none, retryInterval := 5,
    attemptLimit := 3, localCopy := false, copies := 1, dests := [], building := false, released := false,
    releaseOrder := 0, obligation := .none, complete := false }

/-- Destination states and block reasons (R102). -/
inductive DestState where
  | pending
  | waiting
  | dialling
  | sending
  | done
  | failed
  | cancelled
  deriving DecidableEq, Repr

inductive BlockReason where
  | none
  | unreleased
  | notBefore
  | budget
  | logFull
  | noLine
  deriving DecidableEq, Repr

/-- A destination record (R102). Its retry timer stands in `DispatchUnit.retryTimers`. -/
structure DestRecord where
  inUse : Bool
  document : Fin 64
  number : List DialChar
  state : DestState
  cancelRequested : Bool
  attempts : Nat
  confirmed : Nat
  pageRetries : BitVec 8
  lastCause : Cause
  line : Option (Fin 4)
  retryDue : Option ClockValue
  blockReason : BlockReason
  cls : Nat
  band : Nat
  deriving DecidableEq, Repr

/-- The values of a free pool entry (R102). -/
def DestRecord.empty : DestRecord :=
  { inUse := false, document := 0, number := [], state := .pending, cancelRequested := false, attempts := 0,
    confirmed := 0, pageRetries := 0, lastCause := .none, line := none, retryDue := none, blockReason := .none,
    cls := 0, band := 0 }

/-- The dispatch unit. `arbiterDue` is the model's own: within one step, an event that makes the line arbiter run has
come (R107); no step leaves it set (log entry 6). -/
structure DispatchUnit where
  docs : Table DocRecord 64
  pageLists : Table (List (Fin 512)) 64
  dests : Table DestRecord 512
  retryTimers : Table (Option Nat) 512
  printQueue : List (Fin 64)
  releaseCounter : BitVec 32
  arbiterDue : Bool
  deriving DecidableEq, Repr

/-! ## The line units (chapter 7) -/

/-- Line states (section 7.1). -/
inductive LineState where
  | disabled
  | idle
  | ringing
  | seizing
  | dialling
  | awaiting
  | connected
  | clearing
  deriving DecidableEq, Repr

inductive DisabledReason where
  | none
  | off
  | loopFault
  deriving DecidableEq, Repr

/-- The direction setting of a line (section 7.2). -/
inductive LineDirection where
  | off
  | incoming
  | out
  | both
  deriving DecidableEq, Repr

inductive DialMethod where
  | tone
  | pulse
  deriving DecidableEq, Repr

inductive ChargeMethod where
  | meter
  | time
  deriving DecidableEq, Repr

inductive CallDirection where
  | none
  | out
  | incoming
  deriving DecidableEq, Repr

inductive AnswerRefusal where
  | none
  | entry
  | log
  deriving DecidableEq, Repr

inductive AnswerSource where
  | none
  | reversal
  | meter
  | host
  deriving DecidableEq, Repr

/-- A full set of line settings (section 7.2). -/
structure LineSettings where
  direction : LineDirection
  dialMethod : DialMethod
  chargeMethod : ChargeMethod
  rings : Nat
  seizeDelay : Nat
  noAnswer : Nat
  clearGuard : Nat
  pauseLength : Nat
  toneOn : Nat
  toneGap : Nat
  deriving DecidableEq, Repr

/-- The power-on settings (section 7.2). -/
def LineSettings.powerOn : LineSettings :=
  { direction := .off, dialMethod := .tone, chargeMethod := .time, rings := 2, seizeDelay := 2, noAnswer := 60,
    clearGuard := 3, pauseLength := 3, toneOn := 90, toneGap := 90 }

/-- The mirrored fields of a line unit (R140). -/
structure LineRecord where
  state : LineState
  disabledReason : DisabledReason
  callDirection : CallDirection
  destination : Option (Fin 512)
  charsSent : Nat
  ringCount : Nat
  answerRefusal : AnswerRefusal
  answerSource : AnswerSource
  lastCause : Cause
  noLoopRun : Nat
  active : LineSettings
  pending : Option LineSettings
  deriving DecidableEq, Repr

/-- The phase of the dial element in progress (R129, R130); a pulse phase carries the pulses still to come after it. -/
inductive DialPhase where
  | toneOn
  | toneGap
  | pulseBreak (left : Nat)
  | pulseMake (left : Nat)
  | interdigit
  | pause
  deriving DecidableEq, Repr

/-- The element in progress and the time its phase ends. -/
structure DialElement where
  phase : DialPhase
  due : Nat
  deriving DecidableEq, Repr

/-- The ring input as the qualifier sees it (R119): inactive, active and being timed, or active and already counted. -/
inductive RingInput where
  | inactive
  | timing (due : Nat)
  | counted
  deriving DecidableEq, Repr

/-- A line unit: its mirrored record, its pins, its dialler and its timers, each timer the time it runs out at. -/
structure LineUnit where
  record : LineRecord
  offHook : Bool
  toneCode : Nat
  number : List DialChar
  element : Option DialElement
  loopSeen : Bool
  lastBurst : Option Nat
  ring : RingInput
  ringCycle : Option Nat
  meterStart : Option Nat
  loopCheck : Option Nat
  loopLoss : Option Nat
  seizeDelay : Option Nat
  noAnswer : Option Nat
  clearGuard : Option Nat
  deriving DecidableEq, Repr

/-! ## The charge unit (chapters 10 and 11) -/

/-- A calendar entry (R176); bit d of the day set is day d. -/
structure CalendarEntry where
  days : BitVec 7
  start : Nat
  period : Fin 4
  deriving DecidableEq, Repr

/-- A prefix entry (R179); no digits is empty. -/
structure PrefixEntry where
  digits : List (Fin 10)
  cls : Nat
  band : Fin 8
  deriving DecidableEq, Repr

inductive Policy where
  | warn
  | cut
  deriving DecidableEq, Repr

/-- An account record (R184). -/
structure Account where
  code : Nat
  cls : Nat
  budget : Nat
  policy : Policy
  charged : BitVec 32
  calls : Nat
  atBudget : Bool
  deriving DecidableEq, Repr

inductive CallMethod where
  | meter
  | time
  | none
  deriving DecidableEq, Repr

inductive Phase where
  | unanswered
  | charging
  | grace
  deriving DecidableEq, Repr

/-- A call context (R188). Seconds connected are counted from `answeredAt`, a time of the crystal (R189). -/
structure CallContext where
  account : Fin 32
  incoming : Bool
  destination : Option (Fin 512)
  document : Option (Fin 64)
  number : List DialChar
  cls : Nat
  band : Fin 8
  method : CallMethod
  phase : Phase
  seizeTime : ClockValue
  clockWasSet : Bool
  answerTime : Option ClockValue
  answeredAt : Option Nat
  units : BitVec 32
  qualified : Nat
  rejected : Nat
  pagesConfirmed : Nat
  unitTimer : Option Nat
  graceTimer : Option Nat
  deriving DecidableEq, Repr

/-- A charge record (R197), with the account its call was charged to (R186). -/
structure ChargeRecord where
  index : BitVec 16
  line : Fin 4
  incoming : Bool
  account : Fin 32
  code : Nat
  document : Option (Fin 64)
  number : List DialChar
  band : Fin 8
  method : CallMethod
  seizeTime : ClockValue
  endTime : ClockValue
  answerTime : Option ClockValue
  timeValid : Bool
  seconds : BitVec 32
  units : BitVec 32
  cause : Cause
  pagesConfirmed : Nat
  rejected : Nat
  deriving DecidableEq, Repr

/-- The charge unit. The second divider is the time of its next second event. -/
structure ChargeUnit where
  clockSet : Bool
  clock : ClockValue
  dayOfWeek : Nat
  dividerDue : Nat
  calendar : Table CalendarEntry 8
  period : Fin 4
  grid : Table (Table Nat 4) 8
  prefixes : Table PrefixEntry 32
  accounts : Table Account 32
  contexts : Table (Option CallContext) 4
  allotIndex : BitVec 16
  writeIndex : BitVec 16
  readIndex : BitVec 16
  reservations : Nat
  recordQueue : List ChargeRecord
  deriving DecidableEq, Repr

/-! ## The whole part -/

/-- The part. `now` is the time of the crystal since power-on in microseconds; `freeCount` counts the uses made of
`Config.freeWord` (both the model's own, log entries 2 and 9). -/
structure State where
  pending : List Instr
  now : Nat
  freeCount : Nat
  mem : List Host.Cell
  resetInput : Bool
  path : PathUnit
  ctl : ControlUnit
  store : StoreManager
  coder : Coder
  scan : ScanStream
  print : PrintStream
  streams : Table LineStream 4
  dispatch : DispatchUnit
  lines : Table LineUnit 4
  charge : ChargeUnit
  deriving DecidableEq, Repr

/-! ## Power-on -/

/-- Every record that has a mirror, in the order of a full rewrite (R37). -/
def allRecords : List RecordId :=
  [.statusWords, .counters] ++ (List.finRange 512).map .page ++ (List.finRange 64).map .document
    ++ (List.finRange 32).map .account ++ (List.finRange 4).map .line ++ (List.finRange 6).map .stream
    ++ (List.finRange 32).map .prefixEntry ++ [.tariff] ++ (List.finRange 512).map .destination

/-- A window at power-on (R19). -/
def WindowShadow.powerOn : WindowShadow :=
  { stagingBase := 0, stagingSize := 0, active := ⟨0, 0⟩, pending := none, status := .off }

/-- The path unit at power-on (R19), for the strap value sampled. -/
def PathUnit.powerOn (straps : BitVec 4) : PathUnit :=
  { controlBase := straps.zeroExtend 26 <<< 22, windows := Table.replicate 6 WindowShadow.powerOn, held := none,
    answer := none, holdLimit := Config.powerOnHoldLimit, holdCopy := 0, requests := [],
    storeWrites := Table.replicate 5 none, port := none, passedOver := 0, controlDrops := 0, storeDrops := 0, logDrops := 0 }

/-- The control unit at power-on (R38, R39). -/
def ControlUnit.powerOn : ControlUnit :=
  { engine := .pass, teardown := none, head := 0, takenTail := 0, ring := .ready, inProgress := none, ringErrors := 0,
    notices := 0, mask := BitVec.allOnes 12, queue := allRecords.map .record, lastResult := none }

/-- The store manager at power-on (R80). -/
def StoreManager.powerOn : StoreManager :=
  { base := 0, blockCount := 0, logBase := 0, reserve := Config.powerOnReserve, freeList := [],
    pages := Table.replicate 512 PageRecord.empty, slots := Table.replicate 5 ⟨none, none, none⟩ }

/-- A line context at power-on (R60). -/
def LineContext.powerOn : LineContext :=
  { isOpen := false, width := .narrow, k := 0, reference := [], repeatRun := 0, job := .none }

/-- The coder at power-on (R60). -/
def Coder.powerOn : Coder :=
  { engine := none, contexts := Table.replicate 6 LineContext.powerOn, lastReceive := 3, lastSend := 3 }

/-- The scan stream at power-on (R96, R97). -/
def ScanStream.powerOn : ScanStream :=
  { state := .closed, cause := .none, document := 0, width := .narrow, k := 0, bufferA := .empty, bufferB := .empty,
    first := .a, cut := none, trailing := 0, dropped := 0, expiries := 0, clipped := 0 }

/-- The print stream at power-on (R170, R171). -/
def PrintStream.powerOn : PrintStream :=
  { state := .closed, waiting := false, document := 0, copy := 0, position := 0, page := 0, width := .narrow,
    lineCount := 0, byteCount := 0, readPos := 0, readAhead := [], linesFramed := 0, bufferA := .empty,
    bufferB := .empty, first := .a, linesServed := 0, dropped := 0, expiries := 0, codeErrors := 0 }

/-- Nothing collected. -/
def Collecting.empty : Collecting := { bytes := [], lost := false, overflow := false, inExtension := false }

/-- A line stream at power-on (R159, R160). -/
def LineStream.powerOn : LineStream :=
  { direction := .none, state := .closed, stall := .none, drain := .none, forced := false, callDoc := none,
    document := 0, position := 0, takesRepeat := false, minLine := 0, page := 0, readPos := 0, readAhead := [],
    check := none, ready := [], served := 0, inExtension := false, width := .narrow, k := 0,
    collecting := Collecting.empty, waiting := none, carried := [], checkBuffer := none, pageEnd := false, badRun := 0,
    badRunFlag := false, dropped := 0, expiries := 0, fillCount := 0, badLines := 0, codeErrors := 0 }

/-- The dispatch unit at power-on (R116). -/
def DispatchUnit.powerOn : DispatchUnit :=
  { docs := Table.replicate 64 DocRecord.empty, pageLists := Table.replicate 64 [],
    dests := Table.replicate 512 DestRecord.empty, retryTimers := Table.replicate 512 none, printQueue := [],
    releaseCounter := 0, arbiterDue := false }

/-- A line record at power-on (R140, R141). -/
def LineRecord.powerOn : LineRecord :=
  { state := .disabled, disabledReason := .off, callDirection := .none, destination := none, charsSent := 0,
    ringCount := 0, answerRefusal := .none, answerSource := .none, lastCause := .none, noLoopRun := 0,
    active := LineSettings.powerOn, pending := none }

/-- A line unit at power-on (R141). -/
def LineUnit.powerOn : LineUnit :=
  { record := LineRecord.powerOn, offHook := false, toneCode := 0, number := [], element := none, loopSeen := false,
    lastBurst := none, ring := .inactive, ringCycle := none, meterStart := none, loopCheck := none, loopLoss := none,
    seizeDelay := none, noAnswer := none, clearGuard := none }

/-- An account at power-on (R184): account 0 may call every class. -/
def Account.powerOn (cls : Nat) : Account :=
  { code := 0, cls := cls, budget := 0, policy := .warn, charged := 0, calls := 0, atBudget := false }

/-- The charge unit at power-on (R183, R198). -/
def ChargeUnit.powerOn : ChargeUnit :=
  { clockSet := false, clock := ⟨0, 0⟩, dayOfWeek := 0, dividerDue := Config.second,
    calendar := Table.replicate 8 ⟨0, 0, 0⟩, period := 0, grid := Table.replicate 8 (Table.replicate 4 0),
    prefixes := Table.replicate 32 ⟨[], 0, 0⟩,
    accounts := (Table.replicate 32 (Account.powerOn 0)).set 0 (Account.powerOn 4),
    contexts := Table.replicate 4 none, allotIndex := 0, writeIndex := 0, readIndex := 0, reservations := 0,
    recordQueue := [] }

/-- Every record at its power-on value (R19, R38, R60, R80, R97, R116, R141, R160, R171, R183, R198), for the strap value
sampled and for the page memory and reset pin as they stand. -/
def State.powerOn (straps : BitVec 4) (mem : List Host.Cell) (pin : Bool) : State :=
  { pending := [], now := 0, freeCount := 0, mem := mem, resetInput := pin, path := PathUnit.powerOn straps,
    ctl := ControlUnit.powerOn, store := StoreManager.powerOn, coder := Coder.powerOn, scan := ScanStream.powerOn,
    print := PrintStream.powerOn, streams := Table.replicate 4 LineStream.powerOn, dispatch := DispatchUnit.powerOn,
    lines := Table.replicate 4 LineUnit.powerOn, charge := ChargeUnit.powerOn }

/-- The part at power-on with its straps at 0 and nothing in page memory (log entries 1 and 3). -/
def State.reset : State := State.powerOn 0 [] false

end Sys2Proof.Machine
end

