-- ==== Sys2Proof/Machine/Ops.lean ====
section
/-! DEFINITION. The named operations over page memory and over the records of State: byte order, canonical memory, the
mirror write queue (R35), one accessor for each mirrored record (a change of a shown field queues its rewrite), and the
small arithmetic the chapters share. -/

namespace Sys2Proof.Machine

/-! ## Page memory -/

/-- The byte at an address. -/
def Memory.read : List Host.Cell → Nat → Byte
  | [], _ => Config.unwrittenByte
  | (k, v) :: rest, a => if k = a then v else Memory.read rest a

/-- The cell of an address, absent where the byte is what an unlisted address reads as. -/
def Memory.cell (a : Nat) (b : Byte) : List Host.Cell :=
  if b = Config.unwrittenByte then [] else [(a, b)]

/-- One byte written; the canonical form is kept. -/
def Memory.write : List Host.Cell → Nat → Byte → List Host.Cell
  | [], a, b => Memory.cell a b
  | (k, v) :: rest, a, b =>
    if a < k then Memory.cell a b ++ (k, v) :: rest
    else if a = k then Memory.cell a b ++ rest
    else (k, v) :: Memory.write rest a b

/-- The canonical form from a least address on: addresses strictly rising and inside page memory, and no byte that an
unlisted address would read as. -/
def Memory.wfFrom : Nat → List Host.Cell → Bool
  | _, [] => true
  | low, (k, v) :: rest =>
    decide (low ≤ k) && decide (k < Config.memoryBytes) && decide (v ≠ Config.unwrittenByte) && Memory.wfFrom (k + 1) rest

/-- The canonical form. -/
def Memory.wf (m : List Host.Cell) : Bool := Memory.wfFrom 0 m

/-- The address `i` bytes on; page memory addresses are 26 bits and wrap (log entry 8). -/
def byteAt (a i : Nat) : Nat := (a + i) % Config.memoryBytes

/-- Bytes written from an address up. -/
def Memory.writeBytes : List Host.Cell → Nat → List Byte → List Host.Cell
  | m, _, [] => m
  | m, a, b :: rest => Memory.writeBytes (Memory.write m (a % Config.memoryBytes) b) (a + 1) rest

/-- Bytes read from an address up. -/
def Memory.readBytes (m : List Host.Cell) : Nat → Nat → List Byte
  | _, 0 => []
  | a, n + 1 => Memory.read m (a % Config.memoryBytes) :: Memory.readBytes m (a + 1) n

/-! ## Byte order (spec/00_scope.md section 6: little-endian) -/

/-- A value as `n` bytes, least significant first. -/
def le : Nat → Nat → List Byte
  | 0, _ => []
  | n + 1, v => BitVec.ofNat 8 v :: le n (v / 256)

/-- The value of bytes, least significant first. -/
def leValue : List Byte → Nat
  | [] => 0
  | b :: rest => b.toNat + 256 * leValue rest

/-- A list cut or filled with zero bytes to a length. -/
def padTo (n : Nat) (l : List Byte) : List Byte := (l ++ List.replicate n 0).take n

/-- The bytes a host write carries, lowest address first (R8). -/
def hostWriteBytes (w : HostWrite) : List Byte := le w.size.bytes w.data.toNat

/-- The address an access begins at. -/
def accessAddr : HostAccess → Addr
  | .read r => r.addr
  | .write w => w.addr

/-- The bytes an access moves. -/
def accessBytes : HostAccess → Nat
  | .read r => r.size.bytes
  | .write w => w.size.bytes

/-- A count that stays at its top once reached. -/
def saturate (top n : Nat) : Nat := if n < top then n + 1 else top

/-- The later of the present time and a timer's end: an event that a timer raises has come, so that time has come
(log entry 2). -/
def State.reach (due : Nat) (s : State) : State := { s with now := max s.now due }

/-- A 32-bit count gains 1; at the top of its range, where the manual states no result, it takes a free value. -/
def State.bump32 (x : BitVec 32) (s : State) : BitVec 32 × State :=
  if x = BitVec.allOnes 32 then (Config.freeWord s.freeCount, { s with freeCount := s.freeCount + 1 }) else (x + 1, s)

/-! ## The mirror write queue (R35) -/

/-- An entry joins the queue unless one like it is queued already. -/
def State.enqueue (e : QueueEntry) (s : State) : State :=
  if e ∈ s.ctl.queue then s else { s with ctl := { s.ctl with queue := s.ctl.queue ++ [e] } }

/-- A rewrite of a record is queued. -/
def State.rewrite (r : RecordId) (s : State) : State := s.enqueue (.record r)

/-- The full rewrite of R37: every record that has no entry yet, in order. -/
def State.fullRewrite (s : State) : State :=
  { s with ctl := { s.ctl with queue := s.ctl.queue ++ (allRecords.map .record).filter (fun e => decide (e ∉ s.ctl.queue)) } }

/-- A record is written in place, with its rewrite queued when what the mirror shows has changed. -/
def State.rewriteIf (changed : Prop) [Decidable changed] (r : RecordId) (s : State) : State :=
  if changed then s.rewrite r else s

/-! ## Accessors of the mirrored records -/

/-- The number of a stream's mirror and window. -/
def StreamId.index : StreamId → Fin 6
  | .scan => 0
  | .print => 1
  | .line n => ⟨n.val + 2, by omega⟩

/-- The slot a writing stream has at the store manager. -/
def Writer.index : Writer → Fin 5
  | .scan => 0
  | .line n => ⟨n.val + 1, by omega⟩

/-- The stream that is a writer. -/
def Writer.stream : Writer → StreamId
  | .scan => .scan
  | .line n => .line n

/-- The requester that is a writer. -/
def Writer.requester : Writer → Requester
  | .scan => .scan
  | .line n => .line n

/-- The streams that write pages, in the order of their writer slots. -/
def allWriters : List Writer := [.scan, .line 0, .line 1, .line 2, .line 3]

def State.page (p : Fin 512) (s : State) : PageRecord := s.store.pages.get p

/-- A page record replaced (R68). -/
def State.setPage (p : Fin 512) (r : PageRecord) (s : State) : State :=
  ({ s with store := { s.store with pages := s.store.pages.set p r } } : State).rewriteIf (r ≠ s.page p) (.page p)

def State.slot (w : Writer) (s : State) : WriterSlot := s.store.slots.get w.index

def State.setSlot (w : Writer) (x : WriterSlot) (s : State) : State :=
  { s with store := { s.store with slots := s.store.slots.set w.index x } }

/-- The free list replaced; a change of the free count queues the counters (R64). -/
def State.setFreeList (l : List Nat) (s : State) : State :=
  ({ s with store := { s.store with freeList := l } } : State).rewriteIf (l.length ≠ s.store.freeList.length) .counters

def State.doc (d : Fin 64) (s : State) : DocRecord := s.dispatch.docs.get d

/-- A document record replaced (R98). -/
def State.setDoc (d : Fin 64) (r : DocRecord) (s : State) : State :=
  ({ s with dispatch := { s.dispatch with docs := s.dispatch.docs.set d r } } : State).rewriteIf (r ≠ s.doc d) (.document d)

/-- A document's page list. -/
def State.pageList (d : Fin 64) (s : State) : List (Fin 512) := s.dispatch.pageLists.get d

def State.setPageList (d : Fin 64) (l : List (Fin 512)) (s : State) : State :=
  ({ s with dispatch := { s.dispatch with pageLists := s.dispatch.pageLists.set d l } } : State).rewriteIf
    (l ≠ s.pageList d) (.document d)

def State.dest (d : Fin 512) (s : State) : DestRecord := s.dispatch.dests.get d

/-- A destination record replaced (R102). -/
def State.setDest (d : Fin 512) (r : DestRecord) (s : State) : State :=
  ({ s with dispatch := { s.dispatch with dests := s.dispatch.dests.set d r } } : State).rewriteIf (r ≠ s.dest d) (.destination d)

def State.setRetryTimer (d : Fin 512) (t : Option Nat) (s : State) : State :=
  { s with dispatch := { s.dispatch with retryTimers := s.dispatch.retryTimers.set d t } }

def State.setPrintQueue (q : List (Fin 64)) (s : State) : State :=
  { s with dispatch := { s.dispatch with printQueue := q } }

/-- An event that makes the line arbiter run has come (R107). -/
def State.askArbiter (s : State) : State := { s with dispatch := { s.dispatch with arbiterDue := true } }

def State.lineUnit (n : Fin 4) (s : State) : LineUnit := s.lines.get n

/-- A line unit replaced; a change of its record queues the line mirror (R140). -/
def State.setLine (n : Fin 4) (u : LineUnit) (s : State) : State :=
  ({ s with lines := s.lines.set n u } : State).rewriteIf (u.record ≠ (s.lineUnit n).record) (.line n)

def State.modLine (n : Fin 4) (f : LineUnit → LineUnit) (s : State) : State := s.setLine n (f (s.lineUnit n))

def State.account (a : Fin 32) (s : State) : Account := s.charge.accounts.get a

/-- An account record replaced (R184). -/
def State.setAccount (a : Fin 32) (x : Account) (s : State) : State :=
  ({ s with charge := { s.charge with accounts := s.charge.accounts.set a x } } : State).rewriteIf (x ≠ s.account a) (.account a)

def State.context (n : Fin 4) (s : State) : Option CallContext := s.charge.contexts.get n

/-- What an account's mirror shows of a context (R184). -/
def contextShown (c : Option CallContext) : Option (Fin 32 × Phase × BitVec 32) :=
  c.map fun x => (x.account, x.phase, x.units)

/-- The rewrite of the account a context names. -/
def State.rewriteContextAccount (c : Option CallContext) (s : State) : State :=
  match c with
  | some x => s.rewrite (.account x.account)
  | none => s

/-- A line's call context replaced; the mirrors of the accounts it named and names show it (R188). -/
def State.setContext (n : Fin 4) (c : Option CallContext) (s : State) : State :=
  let old := s.context n
  let s' : State := { s with charge := { s.charge with contexts := s.charge.contexts.set n c } }
  if contextShown old = contextShown c then s'
  else (s'.rewriteContextAccount old).rewriteContextAccount c

def State.modContext (n : Fin 4) (f : CallContext → CallContext) (s : State) : State :=
  match s.context n with
  | some c => s.setContext n (some (f c))
  | none => s

/-- The scan stream with every field its mirror does not show at its power-on value (R96). -/
def scanShown (x : ScanStream) : ScanStream :=
  { ScanStream.powerOn with
      state := x.state, cause := x.cause, document := x.document, width := x.width, k := x.k,
      trailing := x.trailing, dropped := x.dropped, expiries := x.expiries, clipped := x.clipped }

def State.setScan (x : ScanStream) (s : State) : State :=
  ({ s with scan := x } : State).rewriteIf (scanShown x ≠ scanShown s.scan) (.stream 0)

/-- The print stream with every field its mirror does not show at its power-on value (R170). -/
def printShown (x : PrintStream) : PrintStream :=
  { PrintStream.powerOn with
      state := x.state, waiting := x.waiting, document := x.document, copy := x.copy,
      position := x.position, linesServed := x.linesServed, dropped := x.dropped, expiries := x.expiries,
      codeErrors := x.codeErrors }

def State.setPrint (x : PrintStream) (s : State) : State :=
  ({ s with print := x } : State).rewriteIf (printShown x ≠ printShown s.print) (.stream 1)

/-- A line stream with every field its mirror does not show at its power-on value (R159). -/
def lineStreamShown (x : LineStream) : LineStream :=
  { LineStream.powerOn with
      direction := x.direction, state := x.state, stall := x.stall, drain := x.drain,
      forced := x.forced, document := x.document, position := x.position, dropped := x.dropped, expiries := x.expiries,
      fillCount := x.fillCount, badLines := x.badLines, codeErrors := x.codeErrors }

def State.stream (n : Fin 4) (s : State) : LineStream := s.streams.get n

def State.setStream (n : Fin 4) (x : LineStream) (s : State) : State :=
  ({ s with streams := s.streams.set n x } : State).rewriteIf (lineStreamShown x ≠ lineStreamShown (s.stream n))
    (.stream (StreamId.index (.line n)))

def State.modStream (n : Fin 4) (f : LineStream → LineStream) (s : State) : State := s.setStream n (f (s.stream n))

def State.window (w : Fin 6) (s : State) : WindowShadow := s.path.windows.get w

/-- A window's shadow replaced; a change of its active entry, pending entry or status queues the stream mirror (R6). -/
def State.setWindow (w : Fin 6) (x : WindowShadow) (s : State) : State :=
  ({ s with path := { s.path with windows := s.path.windows.set w x } } : State).rewriteIf
    ((x.active, x.pending, x.status) ≠ ((s.window w).active, (s.window w).pending, (s.window w).status)) (.stream w)

/-- The lines, documents, accounts and streams in index order. -/
def allLines : List (Fin 4) := [0, 1, 2, 3]

end Sys2Proof.Machine
end

