-- ==== Sys2Proof/Machine/Operands.lean ====
section
/-! DEFINITION. Command operands: the fields of a slot's argument bytes (R200), the command they spell, and the ranges the
fields' owners give them. -/

namespace Sys2Proof.Machine

/-! ## Indices and codes -/

/-- An index below `n`, if the field is one. -/
def indexBelow (n k : Nat) : Option (Fin n) := if h : k < n then some ⟨k, h⟩ else none

/-- A yes-or-no field: 0 or 1. -/
def flagField (x : BitVec 8) : Option Bool := if x = 0 then some false else if x = 1 then some true else none

def widthField (x : BitVec 8) : Option Width :=
  if x = 0 then some .narrow else if x = 1 then some .standard else if x = 2 then some .wide else none

/-- K, 0 to 16. -/
def kField (x : BitVec 8) : Option Nat := if x.toNat ≤ 16 then some x.toNat else none

/-- The kinds that DOC CREATE takes (R100). -/
def kindField (x : BitVec 8) : Option DocKind := if x = 0 then some .out else if x = 1 then some .copy else none

def priorityField (x : BitVec 8) : Option Priority :=
  if x = 0 then some .flash else if x = 1 then some .urgent else if x = 2 then some .routine else none

def policyField (x : BitVec 8) : Option Policy := if x = 0 then some .warn else if x = 1 then some .cut else none

/-- A page verdict (R148). -/
inductive Verdict where
  | ok
  | retry
  | bad
  deriving DecidableEq, Repr

def verdictField (x : BitVec 8) : Option Verdict :=
  if x = 0 then some .ok else if x = 1 then some .retry else if x = 2 then some .bad else none

/-- The causes that CALL END takes (R135). -/
def callEndCause (x : BitVec 8) : Option Cause :=
  if x = 1 then some .normal else if x = 2 then some .busy else if x = 3 then some .noAnswer
  else if x = 4 then some .failed else none

/-- A field within bounds. -/
def between (low high : Nat) (k : Nat) : Option Nat := if low ≤ k ∧ k ≤ high then some k else none

/-- A field whose 0 stands for a default (R100). -/
def orDefault (d : Nat) (x : BitVec 8) : Nat := if x = 0 then d else x.toNat

/-- A clock value field (section 12.1): absent, present and in range, or out of range. -/
def clockOperand (f : ClockField) : Option (Option ClockValue) :=
  if f.present = 0 then some none
  else if f.second.toNat < Config.secondsPerDay then some (some { day := f.day, second := f.second.toNat }) else none

/-! ## Numbers (section 12.1, R103) -/

/-- A character's code. -/
def dialChar (k : Nat) : Option DialChar :=
  if h : k < 10 then some (.digit ⟨k, h⟩)
  else if k = 10 then some .star
  else if k = 11 then some .hash
  else if k = 12 then some .pause
  else none

/-- The `n` characters of a number field from its low four bits up; absent when one of them is none. -/
def dialChars : Nat → Nat → Option (List DialChar)
  | 0, _ => some []
  | n + 1, v =>
    match dialChar (v % 16), dialChars n (v / 16) with
    | some c, some rest => some (c :: rest)
    | _, _ => none

/-- A number that DEST ADD takes: 1 to 24 characters, not all of them pauses. -/
def numberOperand (f : NumberField) : Option (List DialChar) :=
  match between 1 24 f.count.toNat with
  | none => none
  | some n =>
    match dialChars n f.chars.toNat with
    | some l => if l.any (fun c => decide (c ≠ .pause)) then some l else none
    | none => none

/-- The `n` digits of PREFIX SET, one to a byte (R179). -/
def prefixDigits : Nat → Nat → Option (List (Fin 10))
  | 0, _ => some []
  | n + 1, v =>
    match indexBelow 10 (v % 256), prefixDigits n (v / 256) with
    | some d, some rest => some (d :: rest)
    | _, _ => none

/-! ## Line settings (section 7.2, R117) -/

def directionField (x : BitVec 8) : Option LineDirection :=
  if x = 0 then some .off else if x = 1 then some .incoming else if x = 2 then some .out else if x = 3 then some .both else none

def dialMethodField (x : BitVec 8) : Option DialMethod := if x = 0 then some .tone else if x = 1 then some .pulse else none

def chargeMethodField (x : BitVec 8) : Option ChargeMethod := if x = 0 then some .meter else if x = 1 then some .time else none

/-- The settings a settings block gives, each in its range. -/
def settingsOperand (f : SettingsField) : Option LineSettings := do
  let direction ← directionField f.direction
  let dialMethod ← dialMethodField f.dialMethod
  let chargeMethod ← chargeMethodField f.chargeMethod
  let rings ← between 0 9 f.rings.toNat
  let seizeDelay ← between 1 8 f.seizeDelay.toNat
  let noAnswer ← between 20 180 f.noAnswer.toNat
  let clearGuard ← between 1 10 f.clearGuard.toNat
  let pauseLength ← between 1 10 f.pauseLength.toNat
  let toneOn ← between 50 200 f.toneOn.toNat
  let toneGap ← between 50 200 f.toneGap.toNat
  return { direction, dialMethod, chargeMethod, rings, seizeDelay, noAnswer, clearGuard, pauseLength, toneOn, toneGap }

/-! ## Slots (section 12.3, R200) -/

/-- The value of the `n` bytes of a slot from byte `i`. -/
def slotValue (l : List Byte) (i n : Nat) : Nat := leValue ((l.drop i).take n)

/-- A field of a slot. -/
def slotField (l : List Byte) (w i : Nat) : BitVec w := BitVec.ofNat w (slotValue l i (w / 8))

/-- A clock value field of a slot. -/
def slotClock (l : List Byte) (i : Nat) : ClockField :=
  { second := slotField l 32 i, day := slotField l 16 (i + 4), present := slotField l 8 (i + 6) }

/-- A number field of a slot. -/
def slotNumber (l : List Byte) (i : Nat) : NumberField := { count := slotField l 8 i, chars := slotField l 96 (i + 1) }

/-- A settings block of a slot. -/
def slotSettings (l : List Byte) (i : Nat) : SettingsField :=
  { direction := slotField l 8 i, dialMethod := slotField l 8 (i + 1), chargeMethod := slotField l 8 (i + 2),
    rings := slotField l 8 (i + 3), seizeDelay := slotField l 8 (i + 4), noAnswer := slotField l 8 (i + 5),
    clearGuard := slotField l 8 (i + 6), pauseLength := slotField l 8 (i + 7), toneOn := slotField l 16 (i + 8),
    toneGap := slotField l 16 (i + 10) }

/-- The command that a slot's 48 argument bytes spell (R200). -/
def slotCommand (l : List Byte) : Instr :=
  match slotValue l 0 1 with
  | 0x01 => .storeSetup (slotField l 32 4) (slotField l 16 8) (slotField l 32 12) (slotField l 16 16)
  | 0x02 => .timeSet (slotField l 16 4) (slotField l 8 6) (slotField l 32 8)
  | 0x03 => .periodSet (slotField l 8 4) (slotField l 8 5) (slotField l 8 6) (slotField l 32 8)
  | 0x04 => .tariffSet (slotField l 8 4) (slotField l 16 8) (slotField l 16 10) (slotField l 16 12) (slotField l 16 14)
  | 0x05 => .prefixSet (slotField l 8 4) (slotField l 8 5) (slotField l 8 6) (slotField l 8 7) (slotField l 64 8)
  | 0x06 => .accountSet (slotField l 8 4) (slotField l 8 5) (slotField l 8 6) (slotField l 16 8) (slotField l 32 12)
  | 0x07 => .accountClear (slotField l 8 4)
  | 0x08 => .lineSetup (slotField l 8 4) (slotSettings l 8)
  | 0x10 => .docCreate (slotField l 8 4) (slotField l 8 5) (slotField l 8 6) (slotField l 8 7) (slotField l 8 8)
      (slotField l 8 9) (slotField l 8 10) (slotClock l 16)
  | 0x11 => .destAdd (slotField l 8 4) (slotNumber l 8)
  | 0x12 => .docRelease (slotField l 8 4)
  | 0x13 => .docCancel (slotField l 8 4)
  | 0x14 => .destCancel (slotField l 16 4)
  | 0x15 => .docDelete (slotField l 8 4)
  | 0x16 => .printFirst (slotField l 8 4)
  | 0x20 => .scanOpen (slotField l 8 4) (slotField l 8 5) (slotField l 8 6)
  | 0x21 => .pageCut
  | 0x22 => .scanResume
  | 0x23 => .scanClose
  | 0x24 => .printOpen
  | 0x25 => .printNext
  | 0x26 => .printClose
  | 0x27 => .sendOpen (slotField l 8 4) (slotField l 8 5) (slotField l 8 6)
  | 0x28 => .pageResult (slotField l 8 4) (slotField l 8 5)
  | 0x29 => .receiveOpen (slotField l 8 4) (slotField l 8 5) (slotField l 8 6)
  | 0x2A => .streamClose (slotField l 8 4)
  | 0x30 => .callAnswer (slotField l 8 4)
  | 0x31 => .answerSeen (slotField l 8 4)
  | 0x32 => .callEnd (slotField l 8 4) (slotField l 8 5)
  | 0x38 => .logRelease (slotField l 16 4)
  | _ => .unknownCommand (slotField l 8 0)

end Sys2Proof.Machine
end

