-- ==== Sys2Proof/Machine/Flags.lean ====
section
/-! DEFINITION. The notice flags (section 2.4): raising, acknowledging, and the notice output. -/

namespace Sys2Proof.Machine

/-- The place of a flag in the notice word and the mask. -/
def Notice.position : Notice → Nat
  | .command => 0
  | .stream => 1
  | .line => 2
  | .dispatch => 3
  | .printQ => 4
  | .storeLow => 5
  | .log => 6
  | .budget => 7
  | .guard => 8
  | .hold => 9
  | .clock => 10
  | .reset => 11

/-- The flag's bit of the notice word. -/
def Notice.bit (f : Notice) : BitVec 12 := 1#12 <<< f.position

/-- Is the flag pending? -/
def State.isPending (f : Notice) (s : State) : Bool := s.ctl.notices.getLsbD f.position

/-- A flag is raised (R30). -/
def State.raise (f : Notice) (s : State) : State :=
  if s.isPending f then s
  else ({ s with ctl := { s.ctl with notices := s.ctl.notices ||| f.bit } } : State).rewrite .statusWords

/-- Flags are cleared (R31). -/
def State.clearNotices (bits : BitVec 12) (s : State) : State :=
  if s.ctl.notices &&& bits = 0 then s
  else ({ s with ctl := { s.ctl with notices := s.ctl.notices &&& ~~~bits } } : State).rewrite .statusWords

/-- The notice output is asserted exactly when a flag is pending with its mask bit clear (R33). The pin follows the flags
and the mask at once, so it is read from them. -/
def State.noticeOutput (s : State) : Bool := decide (s.ctl.notices &&& ~~~s.ctl.mask ≠ 0)

end Sys2Proof.Machine
end

