-- ==== Sys2Proof/Machine/LineCode.lean ====
section
/-! DEFINITION. The line code (spec/03_the_line_code_and_the_coder.md): tokens, framing, line validity, the encoder, the
decoder and the line jobs' results; and the page check of R16. -/

namespace Sys2Proof.Machine

/-- Pixels of a line (spec/00_scope.md section 6). -/
def Width.pixels : Width → Nat
  | .narrow => 1536
  | .standard => 1792
  | .wide => 2304

/-- Raw bytes of a line. -/
def Width.rawBytes (w : Width) : Nat := w.pixels / 8

/-! ## Tokens (R43, R44) -/

def codeRepeat : Byte := 0xF0
def codeEndOfLine : Byte := 0xF1
def codeFill : Byte := 0xF2
def codeEndOfPage : Byte := 0xF3

/-- A byte that, in token position, begins a long run. -/
def isLongRun (b : Byte) : Bool := decide (0xC0 ≤ b.toNat) && decide (b.toNat ≤ 0xEF)

/-- One element of the line code. `cut` is a long-run prefix whose extension is missing. -/
inductive Token where
  | run (length : Nat)
  | repeatLine
  | endOfLine
  | fill
  | endOfPage
  | invalid
  | cut
  deriving DecidableEq, Repr

/-- The token a byte in token position is by itself. -/
def tokenOf (b : Byte) : Token :=
  if b.toNat ≤ 0xBF then .run b.toNat
  else if isLongRun b then .cut
  else if b = codeRepeat then .repeatLine
  else if b = codeEndOfLine then .endOfLine
  else if b = codeFill then .fill
  else if b = codeEndOfPage then .endOfPage
  else .invalid

/-- The length a long run's two bytes give. -/
def longRunLength (p e : Byte) : Nat := (p.toNat - 0xC0) * 256 + e.toNat

/-- The tokens of coded bytes, the first byte in token position. -/
def tokens : List Byte → List Token
  | [] => []
  | [b] => [tokenOf b]
  | b :: e :: rest => if isLongRun b then .run (longRunLength b e) :: tokens rest else tokenOf b :: tokens (e :: rest)

/-- What framing finds at the head of stored bytes (R44). -/
inductive Framed where
  /-- A line up to its END-OF-LINE, without disregarded FILL, and the bytes after it. -/
  | line (bytes rest : List Byte)
  /-- An END-OF-PAGE before the line's END-OF-LINE: the line's bytes so far, and the bytes from END-OF-PAGE on. -/
  | pageEnd (bytes rest : List Byte)
  /-- The bytes end first. -/
  | short (bytes : List Byte)
  deriving DecidableEq, Repr

/-- Bytes put before what framing found. -/
def Framed.after (pre : List Byte) : Framed → Framed
  | .line b r => .line (pre ++ b) r
  | .pageEnd b r => .pageEnd (pre ++ b) r
  | .short b => .short (pre ++ b)

/-- The next line of stored bytes. -/
def frame : List Byte → Framed
  | [] => .short []
  | [b] =>
    if b = codeEndOfLine then .line [b] []
    else if b = codeEndOfPage then .pageEnd [] [b]
    else if b = codeFill then .short []
    else .short [b]
  | b :: e :: rest =>
    if isLongRun b then (frame rest).after [b, e]
    else if b = codeEndOfLine then .line [b] (e :: rest)
    else if b = codeEndOfPage then .pageEnd [] (b :: e :: rest)
    else if b = codeFill then frame (e :: rest)
    else (frame (e :: rest)).after [b]

/-- The bytes up to the first END-OF-PAGE in token position, that byte included, if there is one; `inExtension` says that the
first byte is in extension position (R44). -/
def throughPageEnd : Bool → List Byte → Option (List Byte)
  | _, [] => none
  | true, b :: rest => (throughPageEnd false rest).map (b :: ·)
  | false, b :: rest => if b = codeEndOfPage then some [b] else (throughPageEnd (isLongRun b) rest).map (b :: ·)

/-! ## Line validity (R45) -/

/-- The run lengths of tokens that are all runs. -/
def runLengths : List Token → Option (List Nat)
  | [] => some []
  | .run n :: rest => (runLengths rest).map (n :: ·)
  | _ :: _ => none

/-- Zero-length runs stand only first. -/
def zeroOnlyFirst : List Nat → Bool
  | [] => true
  | _ :: rest => rest.all (· ≠ 0)

/-- The tokens that count: FILL in token position is disregarded. -/
def countedTokens (bytes : List Byte) : List Token := (tokens bytes).filter (· ≠ .fill)

/-- The length that counts: disregarded FILL left out. -/
def countedLength (bytes : List Byte) : Nat := bytes.length - (tokens bytes).countP (· = .fill)

/-- A line is valid for a width (R45). -/
def lineValid (w : Width) (bytes : List Byte) : Bool :=
  let body := (countedTokens bytes).dropLast
  decide ((countedTokens bytes).getLast? = some .endOfLine) && decide (countedLength bytes ≤ Config.lineBytes) &&
    (decide (body = [.repeatLine]) ||
      match runLengths body with
      | some runs => decide (runs.sum = w.pixels) && zeroOnlyFirst runs
      | none => false)

/-- Is it the line REPEAT, END-OF-LINE? -/
def isRepeatLine (bytes : List Byte) : Bool := decide (countedTokens bytes = [.repeatLine, .endOfLine])

/-! ## The decoder (R50, R51) -/

/-- Pixels from runs up to the first fault; `first` while no token has been used. -/
def decodeRuns (pixels : Nat) : Bool → Nat → Bool → List Token → List Bool
  | colour, pos, first, .run n :: rest =>
    if n = 0 ∧ first = false then []
    else if pixels < pos + n then List.replicate (pixels - pos) colour
    else List.replicate n colour ++ decodeRuns pixels (!colour) (pos + n) false rest
  | _, _, _, _ => []

/-- Pixels completed with white, and cut, to the width. -/
def toWidth (pixels : Nat) (line : List Bool) : List Bool := (line ++ List.replicate pixels false).take pixels

/-- The pixels a line decodes to, and whether it is a code error. Of a line longer than 1,024 bytes every run is read, up to the
width (log entry 47). -/
def decodeLine (w : Width) (reference : List Bool) (bytes : List Byte) : List Bool × Bool :=
  if lineValid w bytes then
    if isRepeatLine bytes then (reference, false)
    else (toWidth w.pixels (decodeRuns w.pixels false 0 true (countedTokens bytes)), false)
  else (toWidth w.pixels (decodeRuns w.pixels false 0 true (countedTokens bytes)), true)

/-! ## Raw lines -/

/-- The pixels of a raw byte, most significant bit first. -/
def bytePixels (b : Byte) : List Bool :=
  [b.getLsbD 7, b.getLsbD 6, b.getLsbD 5, b.getLsbD 4, b.getLsbD 3, b.getLsbD 2, b.getLsbD 1, b.getLsbD 0]

/-- The pixels of a raw line. -/
def rawPixels : List Byte → List Bool
  | [] => []
  | b :: rest => bytePixels b ++ rawPixels rest

/-- Eight pixels as a raw byte. -/
def pixelByte (a b c d e f g h : Bool) : Byte :=
  BitVec.ofNat 8 (128 * a.toNat + 64 * b.toNat + 32 * c.toNat + 16 * d.toNat + 8 * e.toNat + 4 * f.toNat + 2 * g.toNat + h.toNat)

/-- The raw bytes of pixels. -/
def pixelBytes : List Bool → List Byte
  | a :: b :: c :: d :: e :: f :: g :: h :: rest => pixelByte a b c d e f g h :: pixelBytes rest
  | _ => []

/-! ## The encoder (R47 to R49) -/

/-- The runs from a run of `count` pixels of a colour on. -/
def runsFrom : Bool → Nat → List Bool → List Nat
  | _, count, [] => [count]
  | colour, count, p :: rest => if p = colour then runsFrom colour (count + 1) rest else count :: runsFrom p 1 rest

/-- The runs of a line, beginning with white. -/
def runs (pixels : List Bool) : List Nat := runsFrom false 0 pixels

/-- A run in the shortest form (R47). -/
def runBytes (n : Nat) : List Byte :=
  if n < 192 then [BitVec.ofNat 8 n] else [BitVec.ofNat 8 (0xC0 + n / 256), BitVec.ofNat 8 (n % 256)]

/-- The tokens of runs after `written` bytes of the line, clipped as R49 says; whether they were clipped. -/
def encodeRuns : Nat → List Nat → List Byte × Bool
  | _, [] => ([codeEndOfLine], false)
  | written, r :: rest =>
    let token := runBytes r
    if 1023 < written + token.length + 2 then (runBytes (r + rest.sum) ++ [codeEndOfLine], true)
    else
      let after := encodeRuns (written + token.length) rest
      (token ++ after.1, after.2)

/-- The runs of a line in the form of R47, unclipped (R57). -/
def expandRuns (pixels : List Bool) : List Byte := ((runs pixels).map runBytes).flatten ++ [codeEndOfLine]

/-! ## The results of line jobs (R54 to R57) -/

/-- What an ENCODE job hands back: the coded bytes, whether they were clipped, and the context's new reference line and
REPEAT run count. -/
structure Encoded where
  bytes : List Byte
  clipped : Bool
  reference : List Bool
  repeatRun : Nat
  deriving DecidableEq, Repr

/-- An ENCODE job (R48, R54). -/
def encodeLine (c : LineContext) (raw : List Byte) : Encoded :=
  let pixels := rawPixels raw
  if 0 < c.k ∧ pixels = c.reference ∧ c.repeatRun < c.k then
    { bytes := [codeRepeat, codeEndOfLine], clipped := false, reference := c.reference, repeatRun := c.repeatRun + 1 }
  else
    let coded := encodeRuns 0 (runs pixels)
    { bytes := coded.1, clipped := coded.2, reference := (decodeLine c.width c.reference coded.1).1, repeatRun := 0 }

/-- What a CHECK job hands back. -/
structure Checked where
  good : Bool
  bytes : List Byte
  reference : List Bool
  deriving DecidableEq, Repr

/-- A CHECK job (R55). -/
def checkLine (c : LineContext) (bytes : List Byte) (lost : Bool) : Checked :=
  if lineValid c.width bytes ∧ lost = false then
    { good := true, bytes := bytes, reference := (decodeLine c.width c.reference bytes).1 }
  else { good := false, bytes := [codeRepeat, codeEndOfLine], reference := c.reference }

/-- What an EXPAND job hands back. -/
structure Expanded where
  bytes : List Byte
  codeError : Bool
  reference : List Bool
  deriving DecidableEq, Repr

/-- An EXPAND job (R57). -/
def expandLine (c : LineContext) (bytes : List Byte) : Expanded :=
  if isRepeatLine bytes then { bytes := expandRuns c.reference, codeError := false, reference := c.reference }
  else
    let d := decodeLine c.width c.reference bytes
    { bytes := bytes, codeError := d.2, reference := d.1 }

/-! ## The page check (R16) -/

/-- One data bit folded in. -/
def foldBit (check : BitVec 16) (data : Bool) : BitVec 16 :=
  if check.getLsbD 15 ^^ data then (check <<< 1) ^^^ 0x3D65#16 else check <<< 1

/-- One byte folded in, most significant bit first. -/
def foldByte (check : BitVec 16) (b : Byte) : BitVec 16 := (bytePixels b).foldl foldBit check

/-- Bytes folded in, in order. -/
def foldBytes (check : BitVec 16) (l : List Byte) : BitVec 16 := l.foldl foldByte check

/-- The check before the first byte. -/
def checkStart : BitVec 16 := 0xFFFF

end Sys2Proof.Machine
end

