-- ==== Sys2Proof/Machine/Coder.lean ====
section
/-! DEFINITION. The coder's contexts, job queue, engine and arbiter (sections 3.5, 3.7, 3.8). -/

namespace Sys2Proof.Machine

def State.ctx (i : StreamId) (s : State) : LineContext := s.coder.contexts.get i.index

def State.setCtx (i : StreamId) (c : LineContext) (s : State) : State :=
  { s with coder := { s.coder with contexts := s.coder.contexts.set i.index c } }

/-- A stream's job is discarded: a queued one leaves the queue, a running one runs on with nobody to hand its result to (R59). -/
def State.discardJob (i : StreamId) (s : State) : State :=
  let s' := s.setCtx i { s.ctx i with job := .none }
  match s.coder.engine with
  | some j => if j.stream = i then { s' with coder := { s'.coder with engine := some { j with live := false } } } else s'
  | none => s'

/-- A stream opens its context, or restarts it, for a page (R53). -/
def State.openCtx (i : StreamId) (w : Width) (k : Nat) (s : State) : State :=
  (s.discardJob i).setCtx i
    { isOpen := true, width := w, k := k, reference := List.replicate w.pixels false, repeatRun := 0, job := .none }

/-- A stream's context becomes IDLE (R53, R59). -/
def State.idleCtx (i : StreamId) (s : State) : State :=
  let s' := s.discardJob i
  s'.setCtx i { s'.ctx i with isOpen := false, reference := [], repeatRun := 0 }

/-- A stream queues a job when its context is open and it has none (R52). -/
def State.queueJob (i : StreamId) (kind : JobKind) (s : State) : State :=
  if (s.ctx i).isOpen = true ∧ (s.ctx i).job = .none then s.setCtx i { s.ctx i with job := .queued kind } else s

/-- Is a job of this kind queued for the stream? -/
def State.jobQueued (i : StreamId) (kind : JobKind) (s : State) : Bool := decide ((s.ctx i).job = .queued kind)

/-- The line stream to serve in a class, from the one after the last served (R58). -/
def roundRobin (last : Fin 4) (p : Fin 4 → Bool) : Option (Fin 4) := [last + 1, last + 2, last + 3, last].find? p

/-- The engine takes a queued job (R52). -/
def State.takeJob (i : StreamId) (kind : JobKind) (s : State) : State :=
  let s' := s.setCtx i { s.ctx i with job := .running kind }
  { s' with coder := { s'.coder with engine := some { stream := i, kind := kind, live := true } } }

/-- The coder arbiter (R58): receive, then send, then print, then scan. -/
def State.arbitrateCoder (s : State) : State :=
  match s.coder.engine with
  | some _ => s
  | none =>
    match roundRobin s.coder.lastReceive (fun n => s.jobQueued (.line n) .check) with
    | some n => ({ s with coder := { s.coder with lastReceive := n } } : State).takeJob (.line n) .check
    | none =>
      match roundRobin s.coder.lastSend (fun n => s.jobQueued (.line n) .expand) with
      | some n => ({ s with coder := { s.coder with lastSend := n } } : State).takeJob (.line n) .expand
      | none =>
        if s.jobQueued .print .decode then s.takeJob .print .decode
        else if s.jobQueued .scan .encode then s.takeJob .scan .encode
        else s

/-- The engine completes the job it runs and becomes FREE; the context is left with no job and the given reference line
and REPEAT run count (R52). -/
def State.freeEngine (s : State) : State := { s with coder := { s.coder with engine := none } }

/-- A live job's context after the job: its new reference line and REPEAT run count, and no job. -/
def State.jobDone (i : StreamId) (reference : List Bool) (repeatRun : Nat) (s : State) : State :=
  s.setCtx i { s.ctx i with reference := reference, repeatRun := repeatRun, job := .none }

end Sys2Proof.Machine
end

