-- ==== Sys2Proof/Machine/Store.lean ====
section
/-! DEFINITION. The store manager (spec/04_the_page_store.md): blocks and the free list, opening pages, placing lines,
closing and freeing pages, release. -/

namespace Sys2Proof.Machine

/-- The free count: the free list's length. -/
def State.freeBlocks (s : State) : Nat := s.store.freeList.length

/-- The link of a block on a chain: the block after it, or END (R63). -/
def linkIn : List Nat → Nat → Option Nat
  | a :: b :: rest, x => if a = x then some b else linkIn (b :: rest) x
  | _, _ => none

/-- The chain that holds a block: the free list, or a page's chain (R79). -/
def State.chainOf (b : Nat) (s : State) : List Nat :=
  if b ∈ s.store.freeList then s.store.freeList
  else ((s.store.pages.cells.find? fun r => decide (b ∈ r.chain)).map (·.chain)).getD []

/-- The block map (R63): the link of a block, absent for END. The links are those of the free list and the page chains,
which hold every block exactly once (R79). At STORE SETUP's acceptance they are R63's at once, where R62's row says END (log
entry 5). -/
def State.blockLink (b : Nat) (s : State) : Option Nat := linkIn (s.chainOf b) b

/-- May the writer take a block (R65)? -/
def State.mayTakeBlock (w : Writer) (s : State) : Bool :=
  match w with
  | .scan => decide (s.store.reserve < s.freeBlocks)
  | .line _ => decide (0 < s.freeBlocks)

/-- A block is taken from the head of the free list (R63), STORELOW raised on the fall to the reserve (R67); absent when
the writer's rule refuses it (R65). -/
def State.takeBlock (w : Writer) (s : State) : Option (Nat × State) :=
  if s.mayTakeBlock w then
    match s.store.freeList with
    | [] => none
    | b :: rest =>
      let s' := s.setFreeList rest
      some (b, if s.freeBlocks = s.store.reserve + 1 then s'.raise .storeLow else s')
  else none

/-- A chain is given back whole, to the tail (R63). -/
def State.giveBack (chain : List Nat) (s : State) : State := s.setFreeList (s.store.freeList ++ chain)

/-- The lowest FREE page entry (R69). -/
def State.freePageEntry (s : State) : Option (Fin 512) := s.store.pages.first (fun r => decide (r.state = .free))

/-- The page a stream writes (R73): none once its close has been asked for (log entry 14). -/
def WriterSlot.page (x : WriterSlot) : Option PageInHand := if x.asked = none then x.writing else none

/-- A writing stream opens a page (R69), or is refused with a cause and nothing changes. The stream's context is opened
with it (R53) and the page's check set (R17). -/
def State.openPage (w : Writer) (d : Fin 64) (width : Width) (k : Nat) (s : State) : Except RoomCause State :=
  if Config.documentPages ≤ (s.pageList d).length then .error .pages
  else
    match s.freePageEntry with
    | none => .error .entry
    | some p =>
      match s.takeBlock w with
      | none => .error .block
      | some (b, s1) =>
        let record : PageRecord :=
          { PageRecord.empty with
            state := .writing, document := d, position := (s.pageList d).length + 1, width := width, k := k,
            chain := [b], writer := w }
        let s2 := (s1.setPage p record).setPageList d (s.pageList d ++ [p])
        let s3 := s2.setSlot w { s2.slot w with writing := some { page := p, queued := [], check := checkStart }, asked := none }
        .ok (s3.openCtx w.stream width k)

/-- The bytes of a writer's coded queue (sections 5 and 8: up to 2,049). -/
def WriterSlot.queuedBytes (x : WriterSlot) : Nat :=
  (match x.closing with | some h => h.queued.length | none => 0) +
    (match x.writing with | some h => h.queued.length | none => 0)

def State.codedQueue (w : Writer) (s : State) : Nat := (s.slot w).queuedBytes

/-- A refused placement: on a received page the store manager sets TRUNCATED (R71). -/
def State.placementRefused (w : Writer) (p : Fin 512) (s : State) : State :=
  match w with
  | .scan => s
  | .line _ => s.setPage p { s.page p with truncated := true }

/-- A line's bytes are placed on the page being written (R70); a concealment also counts as a bad line. The refusal's
cause is handed back, if any. -/
def State.placeLine (w : Writer) (bytes : List Byte) (concealed : Bool) (s : State) : State × Option RoomCause :=
  match (s.slot w).page with
  | none => (s, some .lines)
  | some h =>
    let r := s.page h.page
    let placed (chain : List Nat) (s : State) : State :=
      (s.setPage h.page
        { r with
          chain := chain, lineCount := r.lineCount + 1, byteCount := r.byteCount + bytes.length,
          badLines := if concealed then r.badLines + 1 else r.badLines }).setSlot w
        { s.slot w with writing := some { h with queued := h.queued ++ bytes } }
    if r.truncated then (s, some .block)
    else if r.lineCount = Config.pageLines then (s.placementRefused w h.page, some .lines)
    else if r.byteCount + bytes.length + 1 ≤ Config.blockBytes * r.chain.length then (placed r.chain s, none)
    else
      match s.takeBlock w with
      | none => (s.placementRefused w h.page, some .block)
      | some (b, s1) => (placed (r.chain ++ [b]) s1, none)

/-- The page being written becomes the page being closed (R73): END-OF-PAGE is placed as its last byte. -/
def State.beginClosing (w : Writer) (h : PageInHand) (flags : CloseFlags) (s : State) : State :=
  let r := s.page h.page
  (s.setPage h.page
    { r with
      closing := true, byteCount := r.byteCount + 1, short := r.short || flags.short,
      truncated := r.truncated || flags.truncated, poor := r.poor || flags.poor }).setSlot w
    { writing := none, asked := none, closing := some { h with queued := h.queued ++ [codeEndOfPage] } }

/-- A stream asks to close the page it writes (R73). At most one page of a stream is being closed at any moment: a close
asked for while another is in progress waits for that page to become CLOSED (log entry 14). -/
def State.closePage (w : Writer) (flags : CloseFlags) (s : State) : State :=
  match (s.slot w).page with
  | none => s
  | some h =>
    if (s.slot w).closing = none then s.beginClosing w h flags else s.setSlot w { s.slot w with asked := some flags }

/-- The close that waited for another page to become CLOSED is taken (log entry 14). -/
def State.takeAsked (w : Writer) (s : State) : State :=
  match (s.slot w).writing, (s.slot w).asked with
  | some h, some flags => s.beginClosing w h flags
  | _, _ => s

/-- A page leaves its document's list. -/
def State.dropFromList (p : Fin 512) (d : Fin 64) (s : State) : State := s.setPageList d ((s.pageList d).filter (· ≠ p))

/-- A stream asks to free the page it writes (R75). -/
def State.freePage (w : Writer) (s : State) : State :=
  match (s.slot w).page with
  | none => s
  | some h =>
    let r := s.page h.page
    let s1 := ((s.giveBack r.chain).dropFromList h.page r.document).setPage h.page PageRecord.empty
    s1.setSlot w { s1.slot w with writing := none }

/-- A page of a COMPLETE document is released (R77). -/
def State.releasePage (s : State) (p : Fin 512) : State :=
  (s.giveBack (s.page p).chain).setPage p PageRecord.empty

/-- The pages of a document are released in list order (R77). -/
def State.releasePages (d : Fin 64) (s : State) : State := (s.pageList d).foldl State.releasePage s

/-- A page becomes CLOSED with its check, and its writer slot entry is cleared (R74). -/
def State.markClosed (w : Writer) (p : Fin 512) (check : BitVec 16) (s : State) : State :=
  (s.setPage p { s.page p with state := .closed, closing := false, check := check }).setSlot w
    { s.slot w with closing := none }

/-- A page is marked DAMAGED (R76); only a CLOSED one is. -/
def State.markDamaged (p : Fin 512) (s : State) : State :=
  if (s.page p).state = .closed then s.setPage p { s.page p with damaged := true } else s

/-- The page memory address of a page's byte (R63, R72). -/
def State.pageByteAddr (p : Fin 512) (i : Nat) (s : State) : Nat :=
  s.store.base + Config.blockBytes * ((s.page p).chain.getD (i / Config.blockBytes) 0) + i % Config.blockBytes

/-- The bytes one store request can carry from a page's byte on (R14): at most 64, not past the block's end. -/
def requestRoom (i available : Nat) : Nat :=
  min (min Config.requestBytes available) (Config.blockBytes - i % Config.blockBytes)

end Sys2Proof.Machine
end

