-- ==== Sys2Proof/Machine/Windows.lean ====
section
/-! DEFINITION. The window table (section 1.2): where a written entry goes, and what a stream's close does to its window
and to the access held on it. -/

namespace Sys2Proof.Machine

/-- Bytes of a window by its size code; 0 is off (section 1.2). -/
def windowBytes (sizeCode : Nat) : Nat := if 1 ≤ sizeCode ∧ sizeCode ≤ 8 then 128 * 2 ^ sizeCode else 0

/-- The window number's stream. -/
def windowStream (w : Fin 6) : StreamId :=
  if h : 2 ≤ w.val then .line ⟨w.val - 2, by omega⟩ else if w.val = 0 then .scan else .print

/-- Is the stream CLOSED? -/
def State.isClosed (i : StreamId) (s : State) : Bool :=
  match i with
  | .scan => decide (s.scan.state = .closed)
  | .print => decide (s.print.state = .closed)
  | .line n => decide ((s.stream n).state = .closed)

/-- Do two ranges of bytes share one? -/
def overlaps (a n b m : Nat) : Bool := decide (0 < n) && decide (0 < m) && decide (a < b + m) && decide (b < a + n)

/-- The window's base with every bit below its size cleared (R4). -/
def alignBase (base : Addr) (sizeCode : Nat) : Addr :=
  BitVec.ofNat 26 (base.toNat / windowBytes sizeCode * windowBytes sizeCode)

/-- The store and log areas hold a byte of the range, in RUNNING (R3). -/
def State.inPartArea (a n : Nat) (s : State) : Bool :=
  decide (s.ctl.engine = .running) &&
    (overlaps a n s.store.base (s.store.blockCount * Config.blockBytes) || overlaps a n s.store.logBase Config.logBytes)

/-- Is an entry refused (R5)? -/
def State.entryRefused (base : Addr) (sizeCode : Nat) (s : State) : Bool :=
  decide (8 < sizeCode) ||
    overlaps base.toNat (windowBytes sizeCode) s.path.controlBase.toNat Config.controlBytes ||
    s.inPartArea base.toNat (windowBytes sizeCode)

/-- The active entry a taken entry gives: a refused one is taken as off (R5, R6). -/
def PendingWindow.entry (e : PendingWindow) : ActiveWindow :=
  if e.refused ∨ e.sizeCode = 0 then ⟨0, 0⟩ else ⟨e.base, e.sizeCode⟩

/-- The status of a window whose taken entry has become active (R6). -/
def PendingWindow.status (e : PendingWindow) : WindowStatus :=
  if e.refused then .refused else if e.sizeCode = 0 then .off else .active

/-- A taken entry becomes the active entry. -/
def State.activate (w : Fin 6) (e : PendingWindow) (s : State) : State :=
  s.setWindow w { s.window w with active := e.entry, pending := none, status := e.status }

/-- A pending entry becomes active as the window's stream enters CLOSED (R6). -/
def State.activatePending (w : Fin 6) (s : State) : State :=
  match (s.window w).pending with
  | some e => s.activate w e
  | none => s

/-- The entry the staging copy gives (R4, R5). -/
def State.takenEntry (w : Fin 6) (s : State) : PendingWindow :=
  let x := s.window w
  let size := x.stagingSize.toNat
  let base := x.stagingBase.truncate 26
  let aligned := if 1 ≤ size ∧ size ≤ 8 then alignBase base size else base
  { base := aligned, sizeCode := size, refused := s.entryRefused aligned size }

/-- The window's entry is taken (R6). -/
def State.takeWindow (w : Fin 6) (s : State) : State :=
  let e := s.takenEntry w
  if s.ctl.engine = .running ∧ s.isClosed (windowStream w) then s.activate w e
  else s.setWindow w { s.window w with pending := some e, status := if e.refused then .refused else .pending }

/-- A window with a pending entry is checked again when the store is set up (R6, R24). -/
def State.recheckWindow (s : State) (w : Fin 6) : State :=
  match (s.window w).pending with
  | some e => s.activate w { e with refused := e.refused || s.entryRefused e.base e.sizeCode }
  | none => s

/-- All window numbers. -/
def allWindows : List (Fin 6) := [0, 1, 2, 3, 4, 5]

/-- The window shadow is cleared at the start of reset teardown; the staging copies are kept (R20). -/
def State.clearWindow (s : State) (w : Fin 6) : State :=
  s.setWindow w { s.window w with active := ⟨0, 0⟩, pending := none, status := .off }

/-! ## Stream counts (R11) -/

/-- The dropped-write count of a window's stream gains 1. -/
def State.countDropped (w : Fin 6) (s : State) : State :=
  match windowStream w with
  | .scan => s.setScan { s.scan with dropped := saturate 65535 s.scan.dropped }
  | .print => s.setPrint { s.print with dropped := saturate 65535 s.print.dropped }
  | .line n => s.modStream n fun x => { x with dropped := saturate 65535 x.dropped }

/-- The hold-expiry count of a window's stream gains 1. -/
def State.countExpiry (w : Fin 6) (s : State) : State :=
  match windowStream w with
  | .scan => s.setScan { s.scan with expiries := saturate 65535 s.scan.expiries }
  | .print => s.setPrint { s.print with expiries := saturate 65535 s.print.expiries }
  | .line n => s.modStream n fun x => { x with expiries := saturate 65535 x.expiries }

/-! ## Answers to the host -/

/-- The access completes: ready is given, with the bytes read, and no access is held. -/
def State.answerHost (a : HostAnswer) (s : State) : State := { s with path := { s.path with held := none, answer := some a } }

/-- A closed-window or wrong-direction access, or one its stream voids: a read returns the void value 0x00 in every byte, a
write is dropped and counted (R7, R9, R13). -/
def State.voidAccess (w : Fin 6) (a : HostAccess) (s : State) : State :=
  match a with
  | .read r => s.answerHost (.read (List.replicate r.size.bytes 0))
  | .write _ => (s.countDropped w).answerHost .written

/-- An access held on a window completes as a closed-window access (R13). -/
def State.closeHeld (w : Fin 6) (s : State) : State :=
  match s.path.held with
  | some h => if h.window = some w then s.voidAccess w h.access else s
  | none => s

/-- The bytes of a requester's read that has the port are discarded when they arrive (R144, R167). -/
def State.dropRead (q : Requester) (s : State) : State :=
  match s.path.port with
  | some p =>
    if p.requester = q ∧ p.kind = .storeRead true then
      { s with path := { s.path with port := some { p with kind := .storeRead false } } }
    else s
  | none => s

end Sys2Proof.Machine
end

