-- ==== Sys2Proof/Machine/Send.lean ====
section
/-! DEFINITION. Sending (section 8.2): seeking a page, reading ahead, serving bytes with padding, the page check's report,
draining. -/

namespace Sys2Proof.Machine

/-- Is the stream serving a page's bytes (R144)? -/
def LineStream.serving (x : LineStream) : Bool :=
  decide (x.direction = .send) && (decide (x.state = .open) || (decide (x.state = .draining) && decide (x.drain = .serving)))

/-- Stored bytes read and not yet served (R144). A line that an EXPAND job has returned counts with all its stored bytes until
its last byte is served (log entry 60). -/
def LineStream.aheadBytes (x : LineStream) : Nat := x.readAhead.length + (x.ready.map (·.stored)).sum

/-- Serving of a page begins at its first byte (R143, R18). -/
def State.startServing (n : Fin 4) (p : Fin 512) (s : State) : State :=
  let x := s.stream n
  let s1 := (s.dropRead (.line n)).setStream n
    { x with
      state := .open, page := p, readPos := 0, readAhead := [], check := some checkStart, ready := [], served := 0,
      inExtension := false }
  if x.takesRepeat then s1 else s1.openCtx (.line n) (s.page p).width (s.page p).k

/-- The send stream waits for a page; STREAM is raised as it enters WAIT-PAGE (R143, R149). -/
def State.waitPage (n : Fin 4) (s : State) : State :=
  if (s.stream n).state = .waitPage then s
  else (s.modStream n fun x => { x with state := .waitPage }).raise .stream

/-- No page remains (R143). -/
def State.sendDocEnd (n : Fin 4) (s : State) : State := (s.modStream n fun x => { x with state := .docEnd }).raise .stream

/-- The send stream of a line looks for the page after the last one confirmed to its destination (R143). -/
def State.seekPage (n : Fin 4) (s : State) : State :=
  match (s.lineUnit n).record.destination with
  | none => s
  | some t =>
    let d := (s.dest t).document
    let confirmed := (s.dest t).confirmed
    let s1 := s.modStream n fun x => { x with document := d, position := confirmed + 1 }
    match (s.pageList d)[confirmed]? with
    | some p =>
      match (s.page p).state with
      | .closed => s1.startServing n p
      | .writing => s1.waitPage n
      | .free => s1.waitPage n
    | none => if (s.doc d).building then s1.waitPage n else s1.sendDocEnd n

/-- News of a document's page or building end reaches a line's send stream in WAIT-PAGE (R149). -/
def State.tellSender (d : Fin 64) (s : State) (n : Fin 4) : State :=
  let x := s.stream n
  if x.direction = .send ∧ x.state = .waitPage ∧ x.document = d then s.seekPage n else s

/-- The news reaches every send stream waiting on the document. -/
def State.tellSenders (d : Fin 64) (s : State) : State := allLines.foldl (State.tellSender d) s

/-- One more byte of the line served. -/
def LineStream.took (x : LineStream) (rest : List Byte) : LineStream :=
  { x with readAhead := rest, served := x.served + 1, inExtension := false }

/-- The next ready byte of a stream whose far end takes REPEAT (R145), the stream after it, and whether it is the page's
END-OF-PAGE; absent when none is ready. A stored FILL in token position does not count toward its line (R44). -/
def sendStored (x : LineStream) : Option (Byte × LineStream × Bool) :=
  match x.readAhead with
  | [] => none
  | b :: rest =>
    if x.inExtension then some (b, x.took rest, false)
    else if isLongRun b then
      if rest = [] then none else some (b, { x.took rest with inExtension := true }, false)
    else if b = codeEndOfPage then some (b, { x with readAhead := [] }, true)
    else if b = codeFill then some (b, { x with readAhead := rest }, false)
    else if b = codeEndOfLine then
      if x.served + 1 < x.minLine then some (codeFill, { x with served := x.served + 1 }, false)
      else some (b, { x with readAhead := rest, served := 0 }, false)
    else some (b, x.took rest, false)

/-- The next ready byte of a stream whose far end does not take REPEAT (R146): the lines EXPAND jobs have returned, and
END-OF-PAGE once the last of them has been. -/
def sendExpanded (x : LineStream) : Option (Byte × LineStream × Bool) :=
  match x.ready with
  | { bytes := b :: c :: rest, stored := n } :: more => some (b, { x with ready := ⟨c :: rest, n⟩ :: more }, false)
  | { bytes := [b], .. } :: more => some (b, { x with ready := more }, false)
  | { bytes := [], .. } :: _ => none
  | [] =>
    match frame x.readAhead with
    | .pageEnd [] _ => some (codeEndOfPage, { x with readAhead := [] }, true)
    | _ => none

/-- The next byte a send stream has ready. -/
def sendByte (x : LineStream) : Option (Byte × LineStream × Bool) :=
  if x.takesRepeat then sendStored x else sendExpanded x

/-- END-OF-PAGE has been served (R147, R150). -/
def State.pageServed (n : Fin 4) (s : State) : State :=
  let x := s.stream n
  if x.state = .draining then (s.setStream n { x with drain := .ended }).raise .stream
  else s.setStream n { x with state := .pageEnd }

/-- One byte served to the host: a ready byte, or FILL, counted where a byte was wanted (R10, R145). -/
def State.serveSendByte (n : Fin 4) (s : State) : Byte × State :=
  let x := s.stream n
  if x.serving then
    match sendByte x with
    | some (b, x', ends) => (b, if ends then (s.setStream n x').pageServed n else s.setStream n x')
    | none => (codeFill, s.setStream n { x with fillCount := saturate 65535 x.fillCount })
  else (codeFill, s)

/-- The bytes of one host read of a send window, first served first (R8). -/
def State.serveSend (n : Fin 4) : Nat → State → List Byte × State
  | 0, s => ([], s)
  | k + 1, s =>
    let one := s.serveSendByte n
    let more := State.serveSend n k one.2
    (one.1 :: more.1, more.2)

/-- Padding placed before a line's END-OF-LINE until the line has the least number of bytes (R145); a line that has none is
not padded. -/
def padLine (least : Nat) (bytes : List Byte) : List Byte :=
  if (tokens bytes).getLast? = some .endOfLine then
    bytes.dropLast ++ List.replicate (least - bytes.length) codeFill ++ [codeEndOfLine]
  else bytes

/-- The stored line at the head of the read-ahead buffer, once its END-OF-LINE is there, and the bytes after it (R146). The
bytes of a line that the page's END-OF-PAGE cuts off are a line too, one that is not valid (R44; log entry 17). -/
def LineStream.nextStored (x : LineStream) : Option (List Byte × List Byte) :=
  match frame x.readAhead with
  | .line bytes rest => some (bytes, rest)
  | .pageEnd [] _ => none
  | .pageEnd (b :: more) rest => some (b :: more, rest)
  | .short _ => none

/-- The stream hands its next stored line to an EXPAND job (R146). -/
def State.sendService (s : State) (n : Fin 4) : State :=
  let x := s.stream n
  if x.serving = true ∧ x.takesRepeat = false ∧ x.nextStored.isSome = true then s.queueJob (.line n) .expand else s

/-- An EXPAND job's result reaches its stream (R57, R146). -/
def State.expandDone (n : Fin 4) (s : State) : State :=
  let x := s.stream n
  match x.nextStored with
  | none => s.jobDone (.line n) (s.ctx (.line n)).reference (s.ctx (.line n)).repeatRun
  | some (bytes, rest) =>
    let e := expandLine (s.ctx (.line n)) bytes
    (s.jobDone (.line n) e.reference (s.ctx (.line n)).repeatRun).setStream n
      { x with
        readAhead := rest, ready := x.ready ++ [⟨padLine x.minLine e.bytes, x.readAhead.length - rest.length⟩],
        codeErrors := if e.codeError then saturate 65535 x.codeErrors else x.codeErrors }

/-- A mismatch of the page check (R147): the page is not served whole. -/
def State.checkMismatch (n : Fin 4) (s : State) : State :=
  let x := s.stream n
  (((s.discardJob (.line n)).markDamaged x.page).setStream n
    { x with
      state := .stalled, stall := .damaged, drain := .none, forced := true, readAhead := [], ready := [],
      check := none }).raise .stream

/-- The bytes of a store read that are the page's: those up to its END-OF-PAGE, found by its place behind the bytes read
before (R44), or all of them while none has come. -/
def LineStream.pageBytes (x : LineStream) (bytes : List Byte) : List Byte :=
  match throughPageEnd x.inExtension (x.readAhead ++ bytes) with
  | some l => l.drop x.readAhead.length
  | none => bytes

/-- Has a read brought the page's END-OF-PAGE, or its last byte (R18, R144; log entry 17)? -/
def LineStream.readsEnd (x : LineStream) (bytes : List Byte) (byteCount : Nat) : Bool :=
  (throughPageEnd x.inExtension (x.readAhead ++ bytes)).isSome || decide (x.readPos + bytes.length = byteCount)

/-- The bytes of a store read reach a send stream: they are folded into the check, and with the page's END-OF-PAGE the check
is compared with the record's (R18, R144). -/
def State.sendReadDone (n : Fin 4) (bytes : List Byte) (s : State) : State :=
  let x := s.stream n
  let new := x.pageBytes bytes
  let s1 := s.setStream n
    { x with
      readAhead := x.readAhead ++ new, readPos := x.readPos + new.length, check := x.check.map fun c => foldBytes c new }
  let check := x.check.map fun c => foldBytes c new
  if x.readsEnd bytes (s.page x.page).byteCount then
    if check = some (s.page x.page).check then s1.modStream n fun y => { y with check := none } else s1.checkMismatch n
  else s1

/-- A cancellation reaches the send stream of a SENDING destination (R150). -/
def State.drain (n : Fin 4) (s : State) : State :=
  let x := s.stream n
  match x.state with
  | .open => s.setStream n { x with state := .draining, drain := .serving }
  | .pageEnd => (s.setStream n { x with state := .draining, drain := .ended }).raise .stream
  | .waitPage | .docEnd => (s.setStream n { x with state := .draining, drain := .done }).raise .stream
  | .draining | .stalled | .closed => s

end Sys2Proof.Machine
end

