-- ==== Sys2Proof/Machine/Print.lean ====
section
/-! DEFINITION. The print stream (spec/09_printing.md): starting a page, framing and decoding ahead, serving the host. -/

namespace Sys2Proof.Machine

/-- The other of two buffers. -/
def BufferId.other : BufferId → BufferId
  | .a => .b
  | .b => .a

def PrintStream.buffer (x : PrintStream) : BufferId → DecodedBuffer
  | .a => x.bufferA
  | .b => x.bufferB

def PrintStream.setBuffer (x : PrintStream) : BufferId → DecodedBuffer → PrintStream
  | .a, b => { x with bufferA := b }
  | .b, b => { x with bufferB := b }

/-- Nothing read and nothing decoded. -/
def PrintStream.emptied (x : PrintStream) : PrintStream := { x with readAhead := [], bufferA := .empty, bufferB := .empty, first := .a }

/-- The print stream enters PAGE-END when every line of the page has been served (R165). -/
def State.printPageEnd (s : State) : State := (s.setPrint { s.print with state := .pageEnd }).raise .stream

/-- The page at the position is begun, its record taken (R162, first row). -/
def State.printBegin (p : Fin 512) (s : State) : State :=
  let r := s.page p
  let s1 := (s.setPrint
    { s.print with waiting := false, page := p, width := r.width, lineCount := r.lineCount, byteCount := r.byteCount }).openCtx
    .print r.width r.k
  if r.lineCount = 0 then s1.printPageEnd else s1

/-- The print stream starts the page at its position (R162). The bytes of a read of the page before that has the port are
discarded when they arrive (log entry 55). -/
def State.printStartPage (s : State) : State :=
  let x := { s.print.emptied with state := .open, waiting := false, readPos := 0, linesFramed := 0, linesServed := 0 }
  match (s.pageList x.document)[x.position - 1]? with
  | none => s.setPrint { x with waiting := true }
  | some p =>
    let s1 := (s.dropRead .print).setPrint { x with page := p }
    if (s.page p).state = .closed then s1.printBegin p else s1.setPrint { x with page := p, waiting := true }

/-- News of a page's close reaches the print stream (R162). -/
def State.tellPrinter (p : Fin 512) (s : State) : State :=
  if s.print.state = .open ∧ s.print.waiting = true ∧ s.print.page = p then s.printBegin p else s

/-- What the stream discards at DOC-END and at a close (R167, R168): its job, its reads, its buffers. -/
def State.printDiscard (s : State) : State :=
  let s1 := (s.idleCtx .print).dropRead .print
  s1.setPrint s1.print.emptied

/-- The print stream in DOC-END, with nothing read or decoded (R167) and waiting for no page (log entry 54). A read held then is
voided as the step settles. -/
def State.printEnd (s : State) : State :=
  let s1 := s.printDiscard
  s1.setPrint { s1.print with state := .docEnd, waiting := false }

/-- The print stream enters DOC-END and raises STREAM (R167). -/
def State.printDocEnd (s : State) : State := s.printEnd.raise .stream

/-- The next line to decode, and the stored bytes after it, once it is ready (R163, R164): a whole line, or what is left of
one when the stored bytes end, or an empty line after their end. -/
def PrintStream.nextLine (x : PrintStream) : Option (List Byte × List Byte) :=
  match frame x.readAhead with
  | .line bytes rest => some (bytes, rest)
  | .pageEnd bytes rest => some (bytes, rest)
  | .short bytes => if x.readPos = x.byteCount then some (bytes, []) else none

/-- The buffer the next decoded line goes to: the first EMPTY one in turn, when no buffer is being filled. -/
def PrintStream.freeBuffer (x : PrintStream) : Option BufferId :=
  match x.buffer x.first, x.buffer x.first.other with
  | .empty, .decoding => none
  | .empty, _ => some x.first
  | .ready _ _, .empty => some x.first.other
  | _, _ => none

/-- A DECODE job is queued for the next ready line (R164). -/
def State.printService (s : State) : State :=
  let x := s.print
  if x.state = .open ∧ x.waiting = false ∧ x.linesFramed < x.lineCount ∧ x.nextLine.isSome = true ∧
      (s.ctx .print).isOpen = true ∧ (s.ctx .print).job = .none then
    match x.freeBuffer with
    | some buf => (s.setPrint { x.setBuffer buf .decoding with linesFramed := x.linesFramed + 1 }).queueJob .print .decode
    | none => s
  else s

/-- The buffer a DECODE job fills. -/
def PrintStream.decodingBuffer (x : PrintStream) : BufferId := if x.bufferA = .decoding then .a else .b

/-- A DECODE job's result reaches the print stream (R56, R164). -/
def State.decodeDone (s : State) : State :=
  let x := s.print
  let line := x.nextLine.getD ([], x.readAhead)
  let c := s.ctx .print
  let d := decodeLine c.width c.reference line.1
  (s.jobDone .print d.1 c.repeatRun).setPrint
    { x.setBuffer x.decodingBuffer (.ready (pixelBytes d.1) 0) with
      readAhead := line.2, codeErrors := if d.2 then saturate 65535 x.codeErrors else x.codeErrors }

/-- One byte of a print read (R165); absent while it is not decoded. -/
def State.servePrintByte (s : State) : Option (Byte × State) :=
  let x := s.print
  match x.state with
  | .pageEnd | .docEnd | .closed => some (0, s)
  | .open =>
    if x.waiting then none
    else
      match x.buffer x.first with
      | .ready (b :: c :: rest) served => some (b, s.setPrint (x.setBuffer x.first (.ready (c :: rest) (served + 1))))
      | .ready [b] _ =>
        let y := { x.setBuffer x.first .empty with first := x.first.other, linesServed := x.linesServed + 1 }
        let s1 := s.setPrint y
        some (b, if y.linesServed = y.lineCount then s1.printPageEnd else s1)
      | _ => none

/-- The bytes of one print read, all of them or none (R165). -/
def State.servePrint : Nat → State → Option (List Byte × State)
  | 0, s => some ([], s)
  | k + 1, s =>
    match s.servePrintByte with
    | none => none
    | some (b, s1) => (State.servePrint k s1).map fun r => (b :: r.1, r.2)

end Sys2Proof.Machine
end

