-- ==== Sys2Proof/Machine/Documents.lean ====
section
/-! DEFINITION. Documents, destinations and the print queue (spec/06_documents_and_the_dispatch_queue.md): obligations,
COMPLETE, the end of building, news of page closes, settlement. -/

namespace Sys2Proof.Machine

/-- A document's state, derived from its fields (R99). -/
def DocRecord.state (r : DocRecord) : DocState :=
  if r.complete then .complete
  else if r.building then .building
  else if (r.kind = .out ∨ r.kind = .incoming) ∧ r.released = false then .unreleased
  else .active

/-- A final destination state (R102). -/
def DestState.final : DestState → Bool
  | .done | .failed | .cancelled => true
  | .pending | .waiting | .dialling | .sending => false

/-- Is a printout owed (R105)? -/
def PrintObligation.owed : PrintObligation → Bool
  | .pending | .queued | .printing => true
  | .none | .done => false

/-- Has the document an obligation (R105)? -/
def State.hasObligation (d : Fin 64) (s : State) : Bool :=
  (s.doc d).building || (s.doc d).obligation.owed ||
    (s.pageList d).any (fun p => decide ((s.page p).state = .writing)) ||
    (s.doc d).dests.any (fun t => !(s.dest t).state.final)

/-- The check for the last obligation: a document without any becomes COMPLETE and its pages are released (R105, R77). -/
def State.checkComplete (d : Fin 64) (s : State) : State :=
  if (s.doc d).inUse = true ∧ (s.doc d).complete = false ∧ s.hasObligation d = false then
    ((s.setDoc d { s.doc d with complete := true }).raise .dispatch).releasePages d
  else s

/-- A document joins the tail of the print queue (R114). -/
def State.joinPrintQueue (d : Fin 64) (s : State) : State :=
  let s1 := (s.setDoc d { s.doc d with obligation := .queued }).setPrintQueue (s.dispatch.printQueue ++ [d])
  if s.dispatch.printQueue = [] then s1.raise .printQ else s1

/-- A document leaves the print queue. -/
def State.leavePrintQueue (d : Fin 64) (s : State) : State := s.setPrintQueue (s.dispatch.printQueue.filter (· ≠ d))

/-- What the end of building does to a PENDING print obligation (R95, R101, R114). -/
def State.printDue (d : Fin 64) (s : State) : State :=
  if (s.doc d).obligation = .pending then
    if s.pageList d = [] then s.setDoc d { s.doc d with obligation := .done } else s.joinPrintQueue d
  else s

/-- A document stops building (R95, R101): an IN document without pages is freed; otherwise a PENDING printout is queued,
the send streams waiting on the document are told, and its obligations are checked. -/
def State.endBuilding (d : Fin 64) (s : State) : State :=
  if (s.doc d).kind = .incoming ∧ s.pageList d = [] then s.setDoc d DocRecord.empty
  else (((s.setDoc d { s.doc d with building := false }).printDue d).tellSenders d).checkComplete d

/-- The news of a page's close (R74): to the send streams, to the print stream, and to its document's obligations. -/
def State.pageClosedNews (p : Fin 512) (s : State) : State :=
  (((s.tellSenders (s.page p).document).tellPrinter p)).checkComplete (s.page p).document

/-- The dispatch unit grants a call its IN document (R101), the lowest free entry, if there is one. -/
def State.freeDocEntry (s : State) : Option (Fin 64) := s.dispatch.docs.first (fun r => !r.inUse)

/-- A free document entry taken, its page list empty (R100, R101). -/
def State.createDoc (d : Fin 64) (r : DocRecord) (s : State) : State := (s.setDoc d r).setPageList d []

/-- The record of a new IN document (R101). -/
def DocRecord.newIncoming : DocRecord :=
  { DocRecord.empty with inUse := true, kind := .incoming, building := true, obligation := .pending }

/-! ## Settlement (R110, R111) -/

/-- The cause a settlement takes: NORMAL is judged against the document (R110). -/
def State.settledCause (t : Fin 512) (c : Cause) (s : State) : Cause :=
  if c = .normal then
    let d := (s.dest t).document
    let building := (s.doc d).building
    if s.pageList d = [] ∧ building = false then .empty
    else if (s.dest t).confirmed = (s.pageList d).length ∧ building = false then .normal
    else .incomplete
  else c

/-- The clock value a number of seconds on; day 65,535 is followed by day 0 (R111, R172). -/
def ClockValue.later (c : ClockValue) (seconds : Nat) : ClockValue :=
  { day := c.day + BitVec.ofNat 16 ((c.second + seconds) / Config.secondsPerDay),
    second := (c.second + seconds) % Config.secondsPerDay }

/-- A destination becomes WAITING with its retry timer started (R111). -/
def State.startRetry (t : Fin 512) (r : DestRecord) (seconds : Nat) (s : State) : State :=
  let due := if s.charge.clockSet then some (s.charge.clock.later seconds) else none
  (s.setDest t { r with state := .waiting, retryDue := due }).setRetryTimer t (some (s.now + seconds * Config.second))

/-- A destination becomes PENDING, which makes the arbiter run (R107). -/
def State.becomePending (t : Fin 512) (r : DestRecord) (s : State) : State :=
  (s.setDest t { r with state := .pending, retryDue := none }).askArbiter

/-- A destination becomes final: DISPATCH is raised and its document's obligations are checked (R110). -/
def State.becomeFinal (t : Fin 512) (r : DestRecord) (final : DestState) (s : State) : State :=
  ((s.setDest t { r with state := final, retryDue := none, blockReason := .none }).raise .dispatch).checkComplete r.document

/-- A destination's call has ended with a cause (R110). -/
def State.settle (t : Fin 512) (given : Cause) (s : State) : State :=
  let cause := s.settledCause t given
  let r := s.dest t
  let ended := { r with line := none, lastCause := cause }
  let tried := { ended with attempts := r.attempts + 1 }
  let left := decide (r.attempts + 1 < (s.doc r.document).attemptLimit)
  if r.cancelRequested then s.becomeFinal t tried .cancelled
  else
    match cause with
    | .normal => s.becomeFinal t tried .done
    | .incomplete | .busy | .noAnswer | .noLoop | .loopDrop | .failed =>
      if left then s.startRetry t tried ((s.doc r.document).retryInterval * 60) else s.becomeFinal t tried .failed
    | .budget => if left then s.becomePending t tried else s.becomeFinal t tried .failed
    | .reset => if left then s.becomePending t tried else s.becomeFinal t tried .failed
    | .damaged | .empty => s.becomeFinal t tried .failed
    | .cancel => s.becomeFinal t tried .cancelled
    | .glare => s.becomePending t ended
    | .none | .barred | .badNumber => s.becomeFinal t tried .failed

end Sys2Proof.Machine
end

