-- ==== Sys2Proof/Machine/Scan.lean ====
section
/-! DEFINITION. The scan stream (spec/05_scanning_and_squeezing.md): raw bytes, encoding and placing lines, the 4,096-line
limit, cuts, starvation, closing. -/

namespace Sys2Proof.Machine

/-! ## The raw line buffers (R83) -/

def ScanStream.buffer (x : ScanStream) : BufferId → RawBuffer
  | .a => x.bufferA
  | .b => x.bufferB

def ScanStream.setBuffer (x : ScanStream) : BufferId → RawBuffer → ScanStream
  | .a, r => { x with bufferA := r }
  | .b, r => { x with bufferB := r }

/-- Both buffers EMPTY and no cut marked. -/
def ScanStream.emptied (x : ScanStream) : ScanStream := { x with bufferA := .empty, bufferB := .empty, first := .a, cut := none }

/-- The bytes a buffer holds. -/
def RawBuffer.held : RawBuffer → Nat
  | .empty => 0
  | .filling l => l.length
  | .full l => l.length

/-- The bytes a buffer still takes for a line of `w` bytes. -/
def RawBuffer.room (w : Nat) : RawBuffer → Nat
  | .empty => w
  | .filling l => w - l.length
  | .full _ => 0

/-- The raw bytes both buffers hold. -/
def ScanStream.heldBytes (x : ScanStream) : Nat := x.bufferA.held + x.bufferB.held

/-- The room of the stream (R83). -/
def ScanStream.room (x : ScanStream) : Nat := x.bufferA.room x.width.rawBytes + x.bufferB.room x.width.rawBytes

def RawBuffer.isFull : RawBuffer → Bool
  | .full _ => true
  | _ => false

/-- A byte joins a buffer, which becomes FULL on its last. -/
def RawBuffer.push (w : Nat) (b : Byte) : RawBuffer → RawBuffer
  | .empty => .filling [b]
  | .filling l => if l.length + 1 = w then .full (l ++ [b]) else .filling (l ++ [b])
  | .full l => .full l

/-- One raw byte taken: it fills the FILLING buffer, or begins the next in turn (R84). -/
def ScanStream.takeByte (x : ScanStream) (b : Byte) : ScanStream :=
  let target := if (x.buffer x.first).isFull then x.first.other else x.first
  x.setBuffer target ((x.buffer target).push x.width.rawBytes b)

/-- Is a buffer FULL? -/
def ScanStream.anyFull (x : ScanStream) : Bool := x.bufferA.isFull || x.bufferB.isFull

/-! ## Closing (R94) -/

/-- The scan stream enters CLOSED (R94), and its document stops building (R95). -/
def State.scanClosed (s : State) : State :=
  ((((s.setScan { s.scan.emptied with state := .closed }).idleCtx .scan).raise .stream).activatePending 0).endBuilding
    s.scan.document

/-- A CLOSING stream with no line left asks for its last page to be closed, and is CLOSED when none is left (R94). -/
def State.scanFinish (s : State) : State :=
  if s.scan.state = .closing ∧ s.scan.anyFull = false ∧ (s.ctx .scan).job = .none then
    let s1 := s.closePage .scan {}
    if (s1.slot .scan).writing = none ∧ (s1.slot .scan).closing = none then s1.scanClosed else s1
  else s

/-! ## Starvation (R91, R92) -/

/-- The starvation cause a refusal gives. -/
def RoomCause.starve : RoomCause → StarveCause
  | .block => .block
  | .entry => .entry
  | .pages => .pages
  | .lines => .block

/-- The buffers are emptied and the trailing byte count takes what was discarded. -/
def State.scanDiscard (extra : Nat) (s : State) : State :=
  s.setScan { (s.scan.emptied) with trailing := extra + s.scan.heldBytes }

/-- The stream becomes STARVED with its cause; a CLOSING stream stays CLOSING (R91, R92, R94; log entry 12). -/
def State.scanStarved (cause : RoomCause) (s : State) : State :=
  if s.scan.state = .closing then s.scanFinish
  else (s.setScan { s.scan with state := .starved, cause := cause.starve }).raise .stream

/-- The page being written ends at a starvation: closed SHORT with lines, freed without (R91). -/
def State.scanEndShort (s : State) : State :=
  match (s.slot .scan).page with
  | none => s
  | some h => if (s.page h.page).lineCount = 0 then s.freePage .scan else s.closePage .scan { short := true }

/-- A placement is refused with BLOCK (R91); the buffer of the refused line is EMPTY already. -/
def State.scanStarve (s : State) : State :=
  ((s.scanDiscard s.scan.width.rawBytes).scanEndShort).scanStarved .block

/-- A page open is refused (R92). -/
def State.scanOpenRefused (cause : RoomCause) (s : State) : State := (s.scanDiscard 0).scanStarved cause

/-! ## Writes (R84, R85) -/

/-- What came of a host access that a stream may hold. -/
inductive Attempt where
  | done (s : State)
  | hold

/-- The scan window's write in the state the stream is in (R84). While a close that was asked for waits for another page's
(log entry 14), no page can be opened and the write is held. -/
def State.scanWrite (w : HostWrite) (s : State) : Attempt :=
  let dropped (s : State) : State := (s.countDropped 0).answerHost .written
  let accept (s : State) : Attempt :=
    if w.size.bytes ≤ s.scan.room then
      .done ((s.setScan ((hostWriteBytes w).foldl ScanStream.takeByte s.scan)).answerHost .written)
    else .hold
  match s.scan.state with
  | .closed | .starved | .closing => .done (dropped s)
  | .cutting => .hold
  | .open =>
    match (s.slot .scan).writing with
    | some _ => if (s.slot .scan).asked = none then accept s else .hold
    | none =>
      match s.openPage .scan s.scan.document s.scan.width s.scan.k with
      | .ok s1 => accept s1
      | .error cause => .done ((dropped s).scanOpenRefused cause)

/-! ## Encoding and placing (R86 to R90) -/

/-- A FULL buffer's line is queued for ENCODE when it may be (R86). -/
def State.scanService (s : State) : State :=
  if (s.slot .scan).page.isSome = true ∧ (s.scan.buffer s.scan.first).isFull = true ∧
      s.codedQueue .scan ≤ Config.codedQueueMark then
    s.queueJob .scan .encode
  else s

/-- The stream is OPEN with no page being written, after a cut's close (R89). -/
def State.scanCutDone (s : State) : State := s.setScan { s.scan with state := .open, cut := none }

/-- After the close of the 4,096-line limit: what the buffers hold belongs to the next page, which is opened at once (R88), or
when a close that waits has been taken (log entry 14). -/
def State.scanNextPage (s : State) : State :=
  if s.scan.heldBytes = 0 ∨ (s.slot .scan).writing ≠ none then s
  else
    match s.openPage .scan s.scan.document s.scan.width s.scan.k with
    | .ok s1 => s1
    | .error cause => s.scanOpenRefused cause

/-- A line has been placed; `marked` says that it was the last line of a cut (R87 to R90, R94). -/
def State.scanPlaced (marked : Bool) (s : State) : State :=
  match (s.slot .scan).page with
  | none => s
  | some h =>
    if (s.page h.page).lineCount = Config.pageLines then
      let s1 := s.closePage .scan {}
      if s.scan.state = .cutting ∧ marked = true then s1.scanCutDone else s1.scanNextPage.scanFinish
    else if s.scan.state = .cutting ∧ marked = true then (s.closePage .scan {}).scanCutDone
    else s.scanFinish

/-- The raw line of a buffer. -/
def RawBuffer.line : RawBuffer → List Byte
  | .full l => l
  | _ => []

/-- An ENCODE job's result reaches the scan stream (R54, R87). -/
def State.encodeDone (s : State) : State :=
  let x := s.scan
  let e := encodeLine (s.ctx .scan) (x.buffer x.first).line
  let marked := decide (x.cut = some x.first)
  let s1 := (s.jobDone .scan e.reference e.repeatRun).setScan
    { x.setBuffer x.first .empty with
      first := x.first.other, clipped := if e.clipped then saturate 65535 x.clipped else x.clipped }
  match s1.placeLine .scan e.bytes false with
  | (s2, none) => s2.scanPlaced marked
  | (s2, some _) => s2.scanStarve

/-- A FILLING buffer completed with white (R89). -/
def RawBuffer.padded (w : Nat) : RawBuffer → RawBuffer
  | .filling l => .full (padTo w l)
  | r => r

/-- The bytes of a FILLING buffer. -/
def ScanStream.fillingBytes (x : ScanStream) : Nat :=
  match x.bufferA, x.bufferB with
  | .filling l, _ => l.length
  | _, .filling l => l.length
  | _, _ => 0

/-- The FULL buffer that became FULL last (R89). -/
def ScanStream.lastFull (x : ScanStream) : Option BufferId :=
  if (x.buffer x.first.other).isFull then some x.first.other else if (x.buffer x.first).isFull then some x.first else none

/-- The cut begins (R89). -/
def State.beginCut (s : State) : State :=
  let x := s.scan
  let y := { x with
    bufferA := x.bufferA.padded x.width.rawBytes, bufferB := x.bufferB.padded x.width.rawBytes, trailing := x.fillingBytes,
    state := .cutting }
  match y.lastFull with
  | some m => s.setScan { y with cut := some m }
  | none => ((s.setScan y).closePage .scan {}).scanCutDone

/-- A FILLING buffer emptied (R94). -/
def RawBuffer.dropFilling : RawBuffer → RawBuffer
  | .filling _ => .empty
  | r => r

/-- SCAN CLOSE is taken (R94). -/
def State.beginClose (s : State) : State :=
  let s1 := s.closeHeld 0
  let x := s1.scan
  (s1.setScan
    { x with
      bufferA := x.bufferA.dropFilling, bufferB := x.bufferB.dropFilling, cut := none, state := .closing,
      trailing := if x.state = .starved then x.trailing else x.fillingBytes }).scanFinish

end Sys2Proof.Machine
end

