-- ==== Sys2Proof/Machine/Receive.lean ====
section
/-! DEFINITION. Receiving (section 8.3): line collection and framing, the check buffer, page ends, placing checked lines;
and the close of a line stream in either direction (section 8.4). -/

namespace Sys2Proof.Machine

/-! ## Collection (R152) -/

/-- A byte kept in the line under collection; the 1,024th without END-OF-LINE marks the line lost. -/
def Collecting.keep (c : Collecting) (b : Byte) : Collecting :=
  if c.overflow then c
  else if c.bytes.length + 1 = Config.lineBytes ∧ b ≠ codeEndOfLine ∨ c.bytes.length + 1 = Config.lineBytes ∧ c.inExtension = true then
    { c with bytes := c.bytes ++ [b], lost := true, overflow := true }
  else { c with bytes := c.bytes ++ [b] }

/-- The line that an END-OF-LINE, or an END-OF-PAGE, ends. -/
def Collecting.ended (c : Collecting) (endsPage : Bool) : CollectedLine := { bytes := c.bytes, lost := c.lost, endsPage := endsPage }

/-- An END-OF-PAGE takes effect: it ends the page being written, if there is one (R153, R155). -/
def State.receivePageEnd (n : Fin 4) (s : State) : State :=
  if (s.slot (.line n)).page.isSome then s.modStream n fun x => { x with pageEnd := true } else s

/-- One received byte is framed (R44, R152): it joins the line under collection, or completes a line, which then waits, or
ends the page. -/
def State.frameByte (n : Fin 4) (b : Byte) (s : State) : State :=
  let x := s.stream n
  let c := x.collecting
  if c.inExtension then s.setStream n { x with collecting := { c.keep b with inExtension := false } }
  else if b = codeFill then s
  else if b = codeEndOfLine then
    s.setStream n { x with collecting := Collecting.empty, waiting := some ((c.keep b).ended false) }
  else if b = codeEndOfPage then
    if c.bytes = [] then (s.setStream n { x with collecting := Collecting.empty }).receivePageEnd n
    else s.setStream n { x with collecting := Collecting.empty, waiting := some (c.ended true) }
  else s.setStream n { x with collecting := { c.keep b with inExtension := isLongRun b } }

/-- A byte is carried unframed behind a waiting line, or framed (R152). -/
def State.collectByte (n : Fin 4) (s : State) (b : Byte) : State :=
  if (s.stream n).waiting.isSome then s.modStream n fun x => { x with carried := x.carried ++ [b] } else s.frameByte n b

/-- The carried bytes are taken as a waiting line moves on (R152). -/
def State.frameCarried (n : Fin 4) (s : State) : State :=
  (s.stream n).carried.foldl (State.collectByte n) (s.modStream n fun x => { x with carried := [] })

/-- POOR by the page record's counts and the run-of-12 flag (R155). -/
def State.pagePoor (n : Fin 4) (s : State) : Bool :=
  match (s.slot (.line n)).page with
  | some h => decide ((s.page h.page).lineCount < (s.page h.page).badLines * 16) || (s.stream n).badRunFlag
  | none => false

/-- The page a page end waits for is closed, once no line of it is left to check (R155). -/
def State.closeReceivePage (n : Fin 4) (s : State) : State :=
  let x := s.stream n
  if x.pageEnd = true ∧ x.checkBuffer = none then
    (s.closePage (.line n) { poor := s.pagePoor n }).modStream n fun y =>
      { y with pageEnd := false, badRun := 0, badRunFlag := false }
  else s

/-- The receive stream is STALLED by a refused page open, and keeps no collection (R153). -/
def State.receiveStall (n : Fin 4) (cause : RoomCause) (s : State) : State :=
  (s.modStream n fun x =>
    { x with
      state := .stalled, stall := if cause = .pages then .pages else .store, collecting := Collecting.empty, waiting := none,
      carried := [], checkBuffer := none, pageEnd := false }).raise .stream

/-- A line in the check buffer is handed to a CHECK job; a line that an END-OF-PAGE cut off sets page-end pending. -/
def State.handLine (n : Fin 4) (l : CollectedLine) (s : State) : State :=
  ((s.modStream n fun x => { x with waiting := none, checkBuffer := some l, pageEnd := x.pageEnd || l.endsPage }).queueJob
    (.line n) .check).frameCarried n

/-- A waiting line moves to the check buffer, opening a page where none is being written (R152, R153); while a close that was
asked for waits for another (log entry 14), it stays. -/
def State.moveLine (n : Fin 4) (s : State) : State :=
  let x := s.stream n
  match x.waiting with
  | none => s
  | some l =>
    if x.checkBuffer = none ∧ s.codedQueue (.line n) ≤ Config.codedQueueMark then
      if (s.slot (.line n)).page.isSome then s.handLine n l
      else if (s.slot (.line n)).writing.isSome then s
      else
        match x.callDoc with
        | none => s
        | some d =>
          match s.openPage (.line n) d x.width x.k with
          | .ok s1 => s1.handLine n l
          | .error cause => s.receiveStall n cause
    else s

/-- The receive stream goes on with what it holds: a page end first, then a waiting line (R154). -/
def State.receiveService (s : State) (n : Fin 4) : State :=
  if (s.stream n).direction = .receive ∧ (s.stream n).state = .open then (s.closeReceivePage n).moveLine n else s

/-- One byte of a write taken into collection, and what it completes moved on; a stalled stream takes none. -/
def State.receiveByte (n : Fin 4) (s : State) (b : Byte) : State :=
  if (s.stream n).state = .open then (s.collectByte n b).receiveService n else s

/-- The receive window's write in the state the stream is in (R152, R153). -/
def State.receiveWrite (n : Fin 4) (w : HostWrite) (s : State) : Attempt :=
  match (s.stream n).state with
  | .open =>
    if (s.stream n).waiting.isSome then .hold
    else .done (((hostWriteBytes w).foldl (State.receiveByte n) s).answerHost .written)
  | _ => .done ((s.countDropped (StreamId.index (.line n))).answerHost .written)

/-- The line under collection is marked lost by a hold expiry (R13, R152). -/
def State.loseLine (n : Fin 4) (s : State) : State :=
  s.modStream n fun x => { x with collecting := { x.collecting with lost := true } }

/-- A CHECK job's result reaches the receive stream, which places the handed bytes (R55, R154). -/
def State.placeChecked (n : Fin 4) (s : State) : State :=
  match (s.stream n).checkBuffer with
  | none => s.jobDone (.line n) (s.ctx (.line n)).reference (s.ctx (.line n)).repeatRun
  | some l =>
    let c := s.ctx (.line n)
    let v := checkLine c l.bytes l.lost
    let s1 := (s.jobDone (.line n) v.reference c.repeatRun).modStream n fun x =>
      { x with checkBuffer := none, badLines := if v.good then x.badLines else saturate 65535 x.badLines }
    match s1.placeLine (.line n) v.bytes (!v.good) with
    | (s2, some _) => s2
    | (s2, none) =>
      s2.modStream n fun x =>
        if v.good then { x with badRun := 0 }
        else { x with badRun := x.badRun + 1, badRunFlag := x.badRunFlag || decide (Config.badRunMark ≤ x.badRun + 1) }

/-! ## Closing a line stream (R157) -/

/-- The receive side of a close (R157, step 4): the page being written is closed TRUNCATED, or freed when it has no line. -/
def State.endReceivePage (n : Fin 4) (s : State) : State :=
  match (s.slot (.line n)).page with
  | none => s
  | some h =>
    if (s.page h.page).lineCount = 0 then s.freePage (.line n)
    else s.closePage (.line n) { truncated := true, poor := s.pagePoor n }

/-- Everything a line stream holds of a session but its direction, counts, position and forced cause (R157). -/
def LineStream.shut (x : LineStream) : LineStream :=
  { x with
    state := .closed, stall := .none, drain := .none, readAhead := [], check := none, ready := [], served := 0,
    inExtension := false, collecting := Collecting.empty, waiting := none, carried := [], checkBuffer := none,
    pageEnd := false }

/-- Steps 1 to 3 of the close: the held access, the jobs and the context, the reads. -/
def State.endTraffic (n : Fin 4) (s : State) : State :=
  ((s.closeHeld (StreamId.index (.line n))).idleCtx (.line n)).dropRead (.line n)

/-- Step 5 of the close: the stream is CLOSED, and a pending window entry becomes active. -/
def State.enterClosed (n : Fin 4) (s : State) : State :=
  (s.modStream n LineStream.shut).activatePending (StreamId.index (.line n))

/-- A line stream closes (R157), its steps in their order. -/
def State.closeStream (n : Fin 4) (s : State) : State :=
  if (s.stream n).state = .closed then s
  else if (s.stream n).direction = .receive then ((s.endTraffic n).endReceivePage n).enterClosed n
  else (s.endTraffic n).enterClosed n

end Sys2Proof.Machine
end

