-- ==== Sys2Proof/Machine/Charge.lean ====
section
/-! DEFINITION. The charge unit (spec/10_time_tariffs_and_number_prefixes.md, spec/11_accounts_calls_and_the_charge_log.md):
the clock and the period in force, classification, charging, budgets, call contexts, the charge log. -/

namespace Sys2Proof.Machine

/-! ## The clock and the calendar (R172 to R177) -/

/-- One clock value stands before another (R175). -/
def ClockValue.before (a b : ClockValue) : Bool :=
  decide (a.day.toNat < b.day.toNat) || (decide (a.day = b.day) && decide (a.second < b.second))

/-- A not-before time is reached by a clock, absent while it is not set (R175). -/
def reached (clock : Option ClockValue) (notBefore : ClockValue) : Bool :=
  match clock with
  | some c => !c.before notBefore
  | none => false

/-- The clock, absent while it is not set. -/
def ChargeUnit.reading (c : ChargeUnit) : Option ClockValue := if c.clockSet then some c.clock else none

/-- Does a calendar entry qualify at a day of week and second of day (R177)? -/
def CalendarEntry.qualifies (e : CalendarEntry) (dayOfWeek second : Nat) : Bool :=
  e.days.getLsbD dayOfWeek && decide (e.start ≤ second)

/-- Of the entries that qualify, the latest start; the lowest index among equals (R177). -/
def latestEntry (dayOfWeek second : Nat) : List CalendarEntry → Option CalendarEntry → Option CalendarEntry
  | [], best => best
  | e :: rest, best =>
    latestEntry dayOfWeek second rest
      (if e.qualifies dayOfWeek second then
        match best with
        | some x => if x.start < e.start then some e else some x
        | none => some e
      else best)

/-- The period the calendar and the clock give (R177). -/
def ChargeUnit.judged (c : ChargeUnit) : Fin 4 :=
  if c.clockSet then ((latestEntry c.dayOfWeek c.clock.second c.calendar.cells none).map (·.period)).getD 0 else 0

/-- The period in force is judged (R177). -/
def State.judgePeriod (s : State) : State :=
  if s.charge.judged = s.charge.period then s
  else ((({ s with charge := { s.charge with period := s.charge.judged } } : State).rewrite .tariff).raise .clock)

/-- Has a document's not-before time been passed by a change of the clock (R175)? -/
def passed (old new : Option ClockValue) (r : DocRecord) : Bool :=
  match r.notBefore with
  | some n => r.inUse && !r.complete && !reached old n && reached new n
  | none => false

/-- Does a document hold a PENDING destination? -/
def State.hasPending (r : DocRecord) (s : State) : Bool := r.dests.any fun t => decide ((s.dest t).state = .pending)

/-- The dispatch unit judges the not-before times at a change of the clock (R175). -/
def State.judgeNotBefore (old : Option ClockValue) (s : State) : State :=
  if s.dispatch.docs.any (fun r => passed old s.charge.reading r && s.hasPending r) then (s.raise .clock).askArbiter else s

/-- The clock value a second on (R172). -/
def ClockValue.next (c : ClockValue) : ClockValue :=
  if c.second + 1 < Config.secondsPerDay then { c with second := c.second + 1 } else { day := c.day + 1, second := 0 }

/-- The clock advances by one second (R172). -/
def State.advanceClock (s : State) : State :=
  let c := s.charge
  let midnight := decide (Config.secondsPerDay ≤ c.clock.second + 1)
  let c' : ChargeUnit := { c with
    clock := c.clock.next,
    dayOfWeek := if midnight then (if c.dayOfWeek < 6 then c.dayOfWeek + 1 else 0) else c.dayOfWeek }
  (((({ s with charge := c' } : State).rewrite .counters).judgePeriod).judgeNotBefore c.reading)

/-- The second divider has counted a second (R172). -/
def State.secondPassed (s : State) : State :=
  let s1 := s.reach s.charge.dividerDue
  let s2 : State := { s1 with charge := { s1.charge with dividerDue := s.charge.dividerDue + Config.second } }
  if s.charge.clockSet then s2.advanceClock else s2

/-! ## Classification (R180) -/

/-- Do a prefix's digits equal the leading characters of a number? -/
def digitsLead : List (Fin 10) → List DialChar → Bool
  | [], _ => true
  | d :: more, .digit e :: rest => decide (d = e) && digitsLead more rest
  | _ :: _, _ => false

/-- The matching entry with the most digits; the lowest index among equals (R180). -/
def longestMatch (number : List DialChar) : List PrefixEntry → Option PrefixEntry → Option PrefixEntry
  | [], best => best
  | e :: rest, best =>
    longestMatch number rest
      (if e.digits ≠ [] ∧ digitsLead e.digits number = true then
        match best with
        | some x => if x.digits.length < e.digits.length then some e else some x
        | none => some e
      else best)

/-- A number's class and band (R180). -/
def ChargeUnit.classify (c : ChargeUnit) (number : List DialChar) : Nat × Fin 8 :=
  match longestMatch (number.filter (· ≠ .pause)) c.prefixes.cells none with
  | some e => (e.cls, e.band)
  | none => (3, 7)

/-! ## The charge log (R194) -/

/-- Records allotted and not yet released. -/
def ChargeUnit.unread (c : ChargeUnit) : Nat := (c.allotIndex - c.readIndex).toNat

/-- Can a reservation be taken? -/
def State.mayReserve (s : State) : Bool :=
  decide (s.ctl.engine = .running) && decide (s.charge.unread + s.charge.reservations < Config.logRecords)

/-- A reservation is taken. -/
def State.takeReservation (s : State) : State :=
  let s1 := ({ s with charge := { s.charge with reservations := s.charge.reservations + 1 } } : State).rewrite .counters
  if s1.charge.unread + s1.charge.reservations = Config.logRecords then s1.raise .log else s1

/-! ## Budgets (R187) -/

/-- At budget by the budget and the charged units. -/
def Account.overBudget (x : Account) : Bool := decide (x.budget ≠ 0) && decide (x.budget ≤ x.charged.toNat)

/-- What the policy does to one context of the account. -/
def CallContext.policed (x : Account) (now : Nat) (c : CallContext) : CallContext :=
  if c.method = .none then c
  else
    match c.phase with
    | .unanswered => c
    | .charging =>
      if x.atBudget = true ∧ x.policy = .cut then { c with phase := .grace, graceTimer := some (now + Config.grace) } else c
    | .grace => if x.atBudget = true ∧ x.policy = .cut then c else { c with phase := .charging, graceTimer := none }

/-- The account's policy acts on the context of one line, if it names the account. -/
def State.police (a : Fin 32) (s : State) (n : Fin 4) : State :=
  match s.context n with
  | some c => if c.account = a then s.setContext n (some (c.policed (s.account a) s.now)) else s
  | none => s

/-- The at-budget flag is judged again and the policy acts on the account's contexts. -/
def State.judgeBudget (a : Fin 32) (s : State) : State :=
  let x := s.account a
  let full := x.overBudget
  let s1 := s.setAccount a { x with atBudget := full }
  let s2 := if x.atBudget = full then s1 else s1.askArbiter
  let s3 := if x.atBudget = false ∧ full = true then s2.raise .budget else s2
  allLines.foldl (State.police a) s3

/-! ## Call contexts (R188 to R193) -/

/-- A unit is charged to a line's context and its account (R189). -/
def State.chargeUnit (n : Fin 4) (s : State) : State :=
  match s.context n with
  | none => s
  | some c =>
    let units := s.bump32 c.units
    let s1 := units.2.setContext n (some { c with units := units.1 })
    let charged := s1.bump32 (s1.account c.account).charged
    ((charged.2.setAccount c.account { charged.2.account c.account with charged := charged.1 }).askArbiter).judgeBudget c.account

/-- The context of an outgoing call, opened at the seize (R188). -/
def State.openOutgoing (n : Fin 4) (t : Fin 512) (band : Fin 8) (cls : Nat) (s : State) : State :=
  let r := s.dest t
  s.setContext n (some
    { account := (s.doc r.document).account, incoming := false, destination := some t, document := some r.document,
      number := r.number, cls := cls, band := band,
      method := match (s.lineUnit n).record.active.chargeMethod with
        | .meter => .meter
        | .time => .time,
      phase := .unanswered, seizeTime := s.charge.clock, clockWasSet := s.charge.clockSet, answerTime := none,
      answeredAt := none, units := 0, qualified := 0, rejected := 0, pagesConfirmed := 0, unitTimer := none,
      graceTimer := none })

/-- The context of an incoming call, opened at its answer (R188). -/
def State.openIncoming (n : Fin 4) (s : State) : State :=
  s.setContext n (some
    { account := 0, incoming := true, destination := none, document := none, number := [], cls := 0, band := 0,
      method := .none, phase := .charging, seizeTime := s.charge.clock, clockWasSet := s.charge.clockSet,
      answerTime := some s.charge.clock, answeredAt := some s.now, units := 0, qualified := 0, rejected := 0,
      pagesConfirmed := 0, unitTimer := none, graceTimer := none })

/-- The unit timer's next end: the grid value of the band and the period in force; 0 leaves it stopped (R189, R191). -/
def State.unitDeadline (band : Fin 8) (start : Nat) (s : State) : Option Nat :=
  match (s.charge.grid.get band).get s.charge.period with
  | 0 => none
  | k + 1 => some (start + (k + 1) * Config.second)

/-- A context leaves UNANSWERED, and its account's state is applied to it (R187, R189). -/
def State.startCharging (n : Fin 4) (s : State) : State :=
  s.modContext n fun c => ({ c with phase := .charging } : CallContext).policed (s.account c.account) s.now

/-- The line unit tells of an outgoing call's answer (R189); `byPulse` says that a meter pulse answered it. -/
def State.answerContext (n : Fin 4) (byPulse : Bool) (s : State) : State :=
  match s.context n with
  | none => s
  | some c =>
    let s1 := s.setContext n (some
      { c with
        answerTime := some s.charge.clock, answeredAt := some s.now,
        qualified := if byPulse then c.qualified + 1 else c.qualified })
    let s2 :=
      match c.method with
      | .time => (s1.chargeUnit n).modContext n fun x => { x with unitTimer := s1.unitDeadline c.band s1.now }
      | .meter => if byPulse then s1.chargeUnit n else s1
      | .none => s1
    s2.startCharging n

/-- A judged pulse reaches the context (R190). -/
def State.countPulse (n : Fin 4) (qualified : Bool) (s : State) : State :=
  match s.context n with
  | none => s
  | some c =>
    if qualified then
      let s1 := s.setContext n (some { c with qualified := c.qualified + 1 })
      if c.method = .meter ∧ (c.phase = .charging ∨ c.phase = .grace) then s1.chargeUnit n else s1
    else s.setContext n (some { c with rejected := c.rejected + 1 })

/-- The unit timer expires: a unit is charged and the timer loaded afresh, or stopped (R191). -/
def State.unitExpired (n : Fin 4) (s : State) : State :=
  match s.context n with
  | none => s
  | some c =>
    match c.unitTimer with
    | none => s
    | some due =>
      let s1 := (s.reach due).chargeUnit n
      s1.modContext n fun x => { x with unitTimer := s1.unitDeadline c.band due }

/-- Seconds connected at the end: whole seconds from the answer. Past 32 bits the manual states no value (log entry 9). -/
def State.secondsConnected (c : CallContext) (s : State) : BitVec 32 × State :=
  match c.answeredAt with
  | none => (0, s)
  | some t =>
    let n := (s.now - t) / Config.second
    if n < 2 ^ 32 then (BitVec.ofNat 32 n, s)
    else (Config.freeWord s.freeCount, { s with freeCount := s.freeCount + 1 })

/-- The pages a call confirmed (R193, step 2). -/
def State.callPages (c : CallContext) (s : State) : Nat :=
  if c.incoming then
    match c.document with
    | some d => (s.pageList d).length
    | none => 0
  else c.pagesConfirmed

/-- The record of a call that ends (R197). -/
def State.chargeRecord (n : Fin 4) (c : CallContext) (cause : Cause) (seconds : BitVec 32) (s : State) : ChargeRecord :=
  { index := s.charge.allotIndex, line := n, incoming := c.incoming, account := c.account,
    code := (s.account c.account).code, document := c.document, number := c.number, band := c.band, method := c.method,
    seizeTime := c.seizeTime, endTime := s.charge.clock, answerTime := c.answerTime,
    timeValid := c.clockWasSet && s.charge.clockSet, seconds := seconds, units := c.units, cause := cause,
    pagesConfirmed := s.callPages c, rejected := c.rejected }

/-- A record is allotted and queued, its reservation released (R193, R195); LOG is raised as the unread count rises to 768. -/
def State.allot (r : ChargeRecord) (s : State) : State :=
  let s1 := ({ s with
    charge := { s.charge with
      allotIndex := s.charge.allotIndex + 1, reservations := s.charge.reservations - 1,
      recordQueue := s.charge.recordQueue ++ [r] } } : State).rewrite .counters
  if s1.charge.unread = Config.logHighMark then s1.raise .log else s1

/-- A context ends (R193). -/
def State.endContext (n : Fin 4) (cause : Cause) (s : State) : State :=
  match s.context n with
  | none => s
  | some c =>
    let seconds := s.secondsConnected c
    let s1 := seconds.2.allot (seconds.2.chargeRecord n c cause seconds.1)
    let x := s1.account c.account
    let s2 := (s1.setAccount c.account { x with calls := saturate 65535 x.calls }).setContext n none
    let s3 := s2.rewrite (.account c.account)
    match c.destination with
    | some t => s3.settle t cause
    | none => s3

end Sys2Proof.Machine
end

