-- ==== Sys2Proof/Machine/Lines.lean ====
section
/-! DEFINITION. The line units (spec/07_telephone_lines.md): settings, qualifiers, ringing, answering, seizing, dialling,
clearing. A timer's end has an effect only while that timer runs, and the time becomes its deadline (log entry 2). -/

namespace Sys2Proof.Machine

/-- A line that holds a call (R136). -/
def LineState.hasCall : LineState → Bool
  | .seizing | .dialling | .awaiting | .connected => true
  | .disabled | .idle | .ringing | .clearing => false

/-- A direction that lets a line ring and be answered (R122). -/
def LineDirection.rings : LineDirection → Bool
  | .incoming | .both => true
  | .off | .out => false

/-- A direction that lets a line be seized. -/
def LineDirection.seizes : LineDirection → Bool
  | .out | .both => true
  | .off | .incoming => false

/-- The mirrored record of a line changed. -/
def State.modRecord (n : Fin 4) (f : LineRecord → LineRecord) (s : State) : State :=
  s.modLine n fun u => { u with record := f u.record }

/-- What a line forgets as it enters DISABLED: its qualifiers, its ring cycle and its last burst time (R118, R139). -/
def LineUnit.quiet (u : LineUnit) : LineUnit := { u with lastBurst := none, ring := .inactive, ringCycle := none, meterStart := none }

/-! ## Settings (R118) -/

/-- The pending copy becomes the active copy. -/
def LineRecord.takePending (r : LineRecord) : LineRecord :=
  match r.pending with
  | some p => { r with active := p, pending := none }
  | none => r

/-- A line that is IDLE or enters IDLE takes up its pending copy (R118); the arbiter runs when it stays IDLE (R107). -/
def State.applyIdle (n : Fin 4) (s : State) : State :=
  let u := s.lineUnit n
  let r := u.record.takePending
  if u.record.pending.isSome = true ∧ r.active.direction = .off then
    s.setLine n { u.quiet with record := { r with state := .disabled, disabledReason := .off, ringCount := 0 } }
  else (s.setLine n { u with record := { r with state := .idle } }).askArbiter

/-- LINE SETUP on a DISABLED line (R118). -/
def State.applyDisabled (n : Fin 4) (s : State) : State :=
  let r := (s.lineUnit n).record.takePending
  if r.active.direction = .off then s.modRecord n fun _ => { r with disabledReason := .off, noLoopRun := 0 }
  else (s.modRecord n fun _ => { r with state := .idle, disabledReason := .none, noLoopRun := 0, ringCount := 0 }).askArbiter

/-! ## Ending a call (R136) -/

/-- The line's own part of a clear order (step 1). -/
def LineUnit.cleared (u : LineUnit) (cause : Cause) : LineUnit :=
  { u with
    record := { u.record with state := .clearing, lastCause := cause },
    offHook := false, toneCode := 0, element := none, loopCheck := none, seizeDelay := none, noAnswer := none,
    loopLoss := none }

/-- Receiving ends for the call document, and the forced cause becomes absent (R158). -/
def State.endReceiving (n : Fin 4) (s : State) : State :=
  let told :=
    match (s.stream n).callDoc with
    | some d => s.endBuilding d
    | none => s
  told.modStream n fun x => { x with callDoc := none, forced := false }

/-- The NOLOOP run after a clearing (step 4). -/
def noLoopAfter (cause : Cause) (run : Nat) : Nat := if cause = .noLoop then saturate 3 run else 0

/-- A clear order (R136). -/
def State.clearOrder (n : Fin 4) (cause : Cause) (s : State) : State :=
  let s1 := s.modLine n fun u => u.cleared cause
  let s2 := (s1.closeStream n).endReceiving n
  let s3 := s2.endContext n cause
  s3.modLine n fun u =>
    { u with
      record := { u.record with noLoopRun := noLoopAfter cause u.record.noLoopRun, destination := none },
      clearGuard := some (s3.now + u.record.active.clearGuard * Config.second) }

/-- A clear order for a line that holds a call; it has no effect on another (R134, R137). -/
def State.orderClear (n : Fin 4) (cause : Cause) (s : State) : State :=
  if (s.lineUnit n).record.state.hasCall then s.clearOrder n cause else s

/-! ## Ringing and answering (R119, R122, R123, R125) -/

/-- The line answers (R123). -/
def State.answer (n : Fin 4) (s : State) : State :=
  let s1 := (s.takeReservation).openIncoming n
  (s1.modLine n fun u =>
    { u with
      record := { u.record with
        state := .connected, callDirection := .incoming, destination := none, answerSource := .none, ringCount := 0,
        answerRefusal := .none },
      offHook := true, loopLoss := some (s1.now + Config.loopLoss) }).raise .line

/-- What an answer lacks, checked in order (R123). -/
def State.answerLacks (s : State) : AnswerRefusal :=
  if s.freeDocEntry = none then .entry else if s.mayReserve then .none else .log

/-- The line tries to answer (R123). In reset teardown it makes no try and rings on, so that no reservation stands at RESET
(R198, log entry 50). -/
def State.answerTry (n : Fin 4) (s : State) : State :=
  match s.ctl.teardown with
  | some _ => s
  | none =>
    match s.answerLacks with
    | .entry => (s.modRecord n fun r => { r with answerRefusal := .entry }).raise .dispatch
    | .log => (s.modRecord n fun r => { r with answerRefusal := .log }).raise .log
    | .none => s.answer n

/-- A burst counted in RINGING, its ring count already gained (R123). -/
def State.burstInRinging (n : Fin 4) (s : State) : State :=
  let r := (s.lineUnit n).record
  if r.active.rings ≠ 0 ∧ r.active.rings ≤ r.ringCount then s.answerTry n else s

/-- The line enters RINGING with ring count 1 (R122). -/
def State.enterRinging (n : Fin 4) (s : State) : State :=
  ((s.modRecord n fun r => { r with state := .ringing, ringCount := 1, answerRefusal := .none }).raise .line).burstInRinging n

/-- Glare (R128). -/
def State.glare (n : Fin 4) (s : State) : State :=
  let s1 := s.modLine n fun u => { u with offHook := false, loopCheck := none, seizeDelay := none, loopLoss := none }
  let s2 := (s1.endContext n .glare).modRecord n fun r =>
    { r with lastCause := .glare, destination := none, callDirection := .none }
  if (s2.lineUnit n).record.active.direction.rings then s2.enterRinging n
  else s2.modRecord n fun r => { r with state := .idle, ringCount := 1 }

/-- A counted burst reaches the line's state (R119, R122, R123, R128). -/
def State.burst (n : Fin 4) (s : State) : State :=
  let r := (s.lineUnit n).record
  match r.state with
  | .idle =>
    if r.active.direction.rings then s.enterRinging n else s.modRecord n fun x => { x with ringCount := saturate 255 x.ringCount }
  | .ringing => (s.modRecord n fun x => { x with ringCount := saturate 255 x.ringCount }).burstInRinging n
  | .seizing => s.glare n
  | .disabled | .dialling | .awaiting | .connected | .clearing => s

/-- The ring input has been active for 150 ms: one burst is counted (R119). On a DISABLED line it has no effect (R139). -/
def State.burstCounted (n : Fin 4) (s : State) : State :=
  match (s.lineUnit n).ring with
  | .timing due =>
    if (s.lineUnit n).record.state = .disabled then s
    else
      let s1 := s.reach due
      (s1.modLine n fun u =>
        { u with ring := .counted, lastBurst := some s1.now, ringCycle := some (s1.now + Config.ringCycle) }).burst n
  | _ => s

/-- The ring cycle ends (R119, R125). -/
def State.ringCycleEnded (n : Fin 4) (s : State) : State :=
  match (s.lineUnit n).ringCycle with
  | none => s
  | some due =>
    let s1 := (s.reach due).modLine n fun u => { u with ringCycle := none, record := { u.record with ringCount := 0 } }
    match (s1.lineUnit n).record.state with
    | .ringing => ((s1.modRecord n fun r => { r with answerRefusal := .none }).applyIdle n).askArbiter
    | .idle => s1.askArbiter
    | _ => s1

/-- The ring input goes active: the qualifier begins to time it (R119). -/
def State.ringActive (n : Fin 4) (s : State) : State :=
  let u := s.lineUnit n
  if u.record.state ≠ .disabled ∧ u.ring = .inactive then s.setLine n { u with ring := .timing (s.now + Config.ringQualifier) } else s

/-- The ring input goes inactive (R119). -/
def State.ringInactive (n : Fin 4) (s : State) : State := s.modLine n fun u => { u with ring := .inactive }

/-! ## Answering an outgoing call (R131) -/

/-- The call is answered. -/
def State.callAnswered (n : Fin 4) (source : AnswerSource) (s : State) : State :=
  let s1 := s.modLine n fun u =>
    { u with record := { u.record with state := .connected, answerSource := source }, noAnswer := none }
  (s1.raise .line).answerContext n (decide (source = .meter))

/-- A reversal edge (R121, R131). -/
def State.reversed (n : Fin 4) (s : State) : State :=
  if (s.lineUnit n).record.state = .awaiting then s.callAnswered n .reversal else s

/-! ## Meter pulses (R120) -/

/-- The meter input goes active. -/
def State.meterActive (n : Fin 4) (s : State) : State :=
  let u := s.lineUnit n
  if u.record.state ≠ .disabled ∧ u.meterStart = none then s.setLine n { u with meterStart := some s.now } else s

/-- Is a width qualified? -/
def meterQualified (width : Nat) : Bool := decide (Config.meterMin ≤ width) && decide (width ≤ Config.meterMax)

/-- A meter pulse of a width ends and is judged in the state the line is in (R120, R131, R134). -/
def State.pulseEnded (n : Fin 4) (width : Nat) (s : State) : State :=
  match (s.lineUnit n).meterStart with
  | none => s
  | some start =>
    let s1 := (s.reach (start + width)).modLine n fun u => { u with meterStart := none }
    match (s1.lineUnit n).record.state with
    | .awaiting => if meterQualified width then s1.callAnswered n .meter else s1.countPulse n false
    | .connected => s1.countPulse n (meterQualified width)
    | _ => s1

/-! ## Loop current (R121, R127, R129, R133, R134) -/

/-- Loop sense is present: in SEIZING loop seen becomes yes, and off hook a loop loss timer stops. -/
def State.loopPresent (n : Fin 4) (s : State) : State :=
  let u := s.lineUnit n
  if u.record.state.hasCall then
    s.setLine n { u with loopSeen := u.loopSeen || decide (u.record.state = .seizing), loopLoss := none }
  else s

/-- Is loop current established? -/
def LineUnit.loopEstablished (u : LineUnit) : Bool :=
  match u.record.state with
  | .seizing => u.loopSeen
  | .dialling | .awaiting | .connected => true
  | .disabled | .idle | .ringing | .clearing => false

/-- Loop sense goes absent: the loop loss timer starts where loop current is established. -/
def State.loopAbsent (n : Fin 4) (s : State) : State :=
  let u := s.lineUnit n
  if u.loopEstablished = true ∧ u.loopLoss = none then s.setLine n { u with loopLoss := some (s.now + Config.loopLoss) } else s

/-- A loop loss. -/
def State.loopLost (n : Fin 4) (s : State) : State :=
  match (s.lineUnit n).loopLoss with
  | none => s
  | some due => ((s.reach due).modLine n fun u => { u with loopLoss := none }).orderClear n .loopDrop

/-- The loop check timer runs out (R127). -/
def State.loopChecked (n : Fin 4) (s : State) : State :=
  match (s.lineUnit n).loopCheck with
  | none => s
  | some due =>
    let s1 := (s.reach due).modLine n fun u => { u with loopCheck := none }
    if (s.lineUnit n).loopSeen then s1 else s1.orderClear n .noLoop

/-! ## Dialling (R129, R130) -/

/-- The tone code of a character (R130). -/
def DialChar.tone : DialChar → Nat
  | .digit d => if d = 0 then 10 else d.val
  | .star => 11
  | .hash => 12
  | .pause => 0

/-- The pulses of a digit (R130). -/
def pulsesOf (d : Fin 10) : Nat := if d = 0 then 10 else d.val

/-- The line at the start of a character's element. -/
def LineUnit.startElement (u : LineUnit) (c : DialChar) (start : Nat) : LineUnit :=
  let set := u.record.active
  let tone : LineUnit := { u with
    offHook := true, toneCode := c.tone, element := some { phase := .toneOn, due := start + set.toneOn * Config.ms } }
  match c with
  | .pause => { u with
      offHook := true, toneCode := 0, element := some { phase := .pause, due := start + set.pauseLength * Config.second } }
  | .digit d =>
    match set.dialMethod with
    | .tone => tone
    | .pulse => { u with
        offHook := false, toneCode := 0,
        element := some { phase := .pulseBreak (pulsesOf d - 1), due := start + Config.pulseBreak } }
  | .star | .hash => tone

/-- The next character's element begins, or the number has been sent and the line awaits an answer (R129). -/
def LineUnit.dialNext (u : LineUnit) (start : Nat) : LineUnit :=
  match u.number[u.record.charsSent]? with
  | some c => u.startElement c start
  | none => { u with
      record := { u.record with state := .awaiting }, offHook := true, toneCode := 0, element := none,
      noAnswer := some (start + u.record.active.noAnswer * Config.second) }

/-- The seize delay runs out (R127). -/
def State.seizeDelayEnded (n : Fin 4) (s : State) : State :=
  match (s.lineUnit n).seizeDelay with
  | none => s
  | some due =>
    let s1 := (s.reach due).modLine n fun u => { u with seizeDelay := none }
    if (s.lineUnit n).loopSeen then
      s1.modLine n fun u => ({ u with record := { u.record with state := .dialling } } : LineUnit).dialNext due
    else s1.orderClear n .noLoop

/-- The phase that follows within an element; absent when the element ends (R130). -/
def LineUnit.nextPhase (u : LineUnit) (e : DialElement) : Option LineUnit :=
  match e.phase with
  | .toneOn => some { u with
      toneCode := 0, element := some { phase := .toneGap, due := e.due + u.record.active.toneGap * Config.ms } }
  | .pulseBreak left => some { u with
      offHook := true, element := some { phase := .pulseMake left, due := e.due + Config.pulseMake } }
  | .pulseMake (left + 1) => some { u with
      offHook := false, element := some { phase := .pulseBreak left, due := e.due + Config.pulseBreak } }
  | .pulseMake 0 => some { u with element := some { phase := .interdigit, due := e.due + Config.interdigit } }
  | .toneGap | .interdigit | .pause => none

/-- A phase inside an element ends (R130); the last phase of an element is ended by the element's end. -/
def State.phaseEnded (n : Fin 4) (s : State) : State :=
  let u := s.lineUnit n
  match u.element with
  | none => s
  | some e =>
    match u.nextPhase e with
    | some u' => (s.reach e.due).setLine n u'
    | none => s

/-- An element ends: characters sent adds 1, and the next begins (R129). An element in an earlier phase has not ended. -/
def State.elementEnded (n : Fin 4) (s : State) : State :=
  let u := s.lineUnit n
  match u.element with
  | none => s
  | some e =>
    match u.nextPhase e with
    | some _ => s
    | none =>
      (s.reach e.due).setLine n
        (({ u with record := { u.record with charsSent := u.record.charsSent + 1 } } : LineUnit).dialNext e.due)

/-- The no-answer timer runs out (R133). -/
def State.notAnswered (n : Fin 4) (s : State) : State :=
  match (s.lineUnit n).noAnswer with
  | none => s
  | some due => ((s.reach due).modLine n fun u => { u with noAnswer := none }).orderClear n .noAnswer

/-! ## The clear guard (R137, R138) -/

/-- A line ends its clear guard with a loop fault (R138). -/
def State.loopFault (n : Fin 4) (s : State) : State :=
  (s.modLine n fun u =>
    { u.quiet with
      record := { u.record.takePending with
        state := .disabled, disabledReason := .loopFault, callDirection := .none, answerSource := .none } }).raise .line

/-- A line leaves its clear guard for IDLE, or by its new settings for DISABLED (R137). -/
def State.guardToIdle (n : Fin 4) (s : State) : State :=
  let s1 := (s.modRecord n fun r => { r with callDirection := .none, answerSource := .none }).applyIdle n
  if (s1.lineUnit n).record.state = .idle then s1.raise .line else s1

/-- The clear guard runs out (R137). -/
def State.guardEnded (n : Fin 4) (s : State) : State :=
  match (s.lineUnit n).clearGuard with
  | none => s
  | some due =>
    let s1 := (s.reach due).modLine n fun u => { u with clearGuard := none }
    if (s.lineUnit n).record.noLoopRun = 3 then s1.loopFault n else s1.guardToIdle n

/-! ## Timers of the charge unit (R191, R192) -/

/-- The grace timer of a line's context runs out: a budget clear order (R192). -/
def State.graceEnded (n : Fin 4) (s : State) : State :=
  match s.context n with
  | none => s
  | some c =>
    match c.graceTimer with
    | none => s
    | some due =>
      let s1 := (s.reach due).modContext n fun x => { x with graceTimer := none }
      if (s.lineUnit n).record.state = .connected then s1.clearOrder n .budget else s1

/-! ## The seize and the reset input (R126, R141) -/

/-- A seize order (R126). -/
def State.seize (n : Fin 4) (t : Fin 512) (s : State) : State :=
  s.modLine n fun u =>
    { u with
      record := { u.record with
        state := .seizing, callDirection := .out, destination := some t, charsSent := 0, ringCount := 0 },
      offHook := true, number := (s.dest t).number, loopSeen := false,
      loopCheck := some (s.now + Config.loopCheck),
      seizeDelay := some (s.now + u.record.active.seizeDelay * Config.second) }

/-- What reset teardown does to a line (R141). -/
def State.resetLine (s : State) (n : Fin 4) : State :=
  match (s.lineUnit n).record.state with
  | .ringing => (s.modRecord n fun r => { r with ringCount := 0, answerRefusal := .none }).applyIdle n
  | .seizing | .dialling | .awaiting | .connected => s.clearOrder n .reset
  | .disabled | .idle | .clearing => s

end Sys2Proof.Machine
end

