-- ==== Sys2Proof/Machine/Arbiter.lean ====
section
/-! DEFINITION. The line arbiter of the dispatch unit (R107 to R109): it gives free lines to eligible destinations and sets
the block reasons of the others. -/

namespace Sys2Proof.Machine

/-- Documents in index order. -/
def allDocs : List (Fin 64) := List.finRange 64

/-- Every destination of every document, documents by index and destinations by their place in the list. -/
def State.listedDests (s : State) : List (Fin 512) := s.dispatch.docs.cells.flatMap (·.dests)

/-- Has a document's not-before time still to come (R107)? -/
def State.tooEarly (r : DocRecord) (s : State) : Bool :=
  match r.notBefore with
  | some n => !reached s.charge.reading n
  | none => false

/-- The first of R107's conditions that a destination meets. -/
def State.blockedBy (t : Fin 512) (s : State) : BlockReason :=
  let r := s.doc (s.dest t).document
  if r.released = false then .unreleased
  else if s.tooEarly r then .notBefore
  else if (s.account r.account).atBudget then .budget
  else if s.mayReserve = false then .logFull
  else .noLine

/-- Is a destination eligible (R108)? -/
def State.eligible (t : Fin 512) (s : State) : Bool :=
  decide ((s.dest t).state = .pending) && decide (s.blockedBy t = .noLine)

/-- The place of a priority in the order of R108. -/
def Priority.rank : Priority → Nat
  | .flash => 0
  | .urgent => 1
  | .routine => 2

/-- Does a document's destination stand before another's (R108)? The place in one document's list decides by the order in
which destinations are tried. -/
def DocRecord.standsBefore (a b : DocRecord) : Bool :=
  decide (a.priority.rank < b.priority.rank) ||
    (decide (a.priority.rank = b.priority.rank) && decide (a.releaseOrder.toNat < b.releaseOrder.toNat))

/-- The better of the best so far and one destination. -/
def State.better (s : State) (best : Option (Fin 512)) (t : Fin 512) : Option (Fin 512) :=
  if s.eligible t then
    match best with
    | none => some t
    | some b => if (s.doc (s.dest t).document).standsBefore (s.doc (s.dest b).document) then some t else some b
  else best

/-- The destination a free line takes (R108). -/
def State.bestDest (s : State) : Option (Fin 512) := s.listedDests.foldl s.better none

/-- Is a line free for the arbiter (R107)? -/
def State.lineFree (n : Fin 4) (s : State) : Bool :=
  let u := s.lineUnit n
  decide (s.ctl.teardown = none) && decide (u.record.state = .idle) && u.record.active.direction.seizes &&
    (match u.lastBurst with
      | some t => decide (t + Config.ringCycle ≤ s.now)
      | none => true)

/-- What a chosen destination fails with, if it does (R109); the findings are judged in the order of its table (log entry 48). -/
def State.choiceFails (n : Fin 4) (t : Fin 512) (cls : Nat) (s : State) : Option Cause :=
  let r := s.dest t
  let d := s.doc r.document
  if (s.account d.account).cls < cls then some .barred
  else if (r.number.any fun c => decide (c = .star) || decide (c = .hash)) = true ∧
      (s.lineUnit n).record.active.dialMethod = .pulse then some .badNumber
  else if d.building = false ∧ s.pageList r.document = [] then some .empty
  else none

/-- A chosen destination is dialled on a line (R109, R126, R188). -/
def State.dialDest (n : Fin 4) (t : Fin 512) (cls : Nat) (band : Fin 8) (s : State) : State :=
  let r := { s.dest t with cls := cls, band := band, state := .dialling, line := some n, pageRetries := 0, blockReason := .none }
  (((s.setDest t r).takeReservation).openOutgoing n t band cls).seize n t

/-- The choice for one free line, made again while the chosen destination fails (R109). -/
def State.chooseFor (n : Fin 4) : Nat → State → State
  | 0, s => s
  | fuel + 1, s =>
    match s.bestDest with
    | none => s
    | some t =>
      let found := s.charge.classify (s.dest t).number
      match s.choiceFails n t found.1 with
      | some cause =>
        State.chooseFor n fuel
          (s.becomeFinal t { s.dest t with cls := found.1, band := found.2, lastCause := cause } .failed)
      | none => s.dialDest n t found.1 found.2

/-- One line's turn (R107). -/
def State.serveLine (s : State) (n : Fin 4) : State := if s.lineFree n then State.chooseFor n 513 s else s

/-- A PENDING destination's block reason is set; LOG is raised with LOGFULL (R107, R194). -/
def State.setBlockReason (s : State) (t : Fin 512) : State :=
  if (s.dest t).state = .pending then
    let why := s.blockedBy t
    let s1 := s.setDest t { s.dest t with blockReason := why }
    if why = .logFull then s1.raise .log else s1
  else s

/-- A run of the line arbiter (R107). -/
def State.runArbiter (s : State) : State :=
  let served := allLines.foldl State.serveLine s
  served.listedDests.foldl State.setBlockReason served

/-- The run that an event of this step asked for (log entry 6). -/
def State.runDueArbiter (s : State) : State :=
  if s.dispatch.arbiterDue then ({ s with dispatch := { s.dispatch with arbiterDue := false } } : State).runArbiter else s

end Sys2Proof.Machine
end

