-- ==== Sys2Proof/Machine/Layout.lean ====
section
/-! DEFINITION. The byte layouts of what the part writes (spec/12_layouts.md): the codes of section 12.1, the mirror
records of section 12.5, the charge record of section 12.6, and where each stands in page memory. -/

namespace Sys2Proof.Machine

/-! ## Codes (section 12.1) -/

def ResultCode.code : ResultCode → Nat
  | .ok => 0
  | .busy => 1
  | .badArg => 2
  | .noSpace => 3
  | .notFound => 4
  | .refused => 5
  | .barred => 6
  | .noLog => 7

def Width.code : Width → Nat
  | .narrow => 0
  | .standard => 1
  | .wide => 2

def DocKind.code : DocKind → Nat
  | .out => 0
  | .copy => 1
  | .incoming => 2

def DocState.code : DocState → Nat
  | .building => 0
  | .unreleased => 1
  | .active => 2
  | .complete => 3

def PrintObligation.code : PrintObligation → Nat
  | .none => 0
  | .pending => 1
  | .queued => 2
  | .printing => 3
  | .done => 4

def DestState.code : DestState → Nat
  | .pending => 0
  | .waiting => 1
  | .dialling => 2
  | .sending => 3
  | .done => 4
  | .failed => 5
  | .cancelled => 6

def BlockReason.code : BlockReason → Nat
  | .none => 0
  | .unreleased => 1
  | .notBefore => 2
  | .budget => 3
  | .logFull => 4
  | .noLine => 5

def Cause.code : Cause → Nat
  | .none => 0
  | .normal => 1
  | .busy => 2
  | .noAnswer => 3
  | .failed => 4
  | .noLoop => 5
  | .loopDrop => 6
  | .cancel => 7
  | .budget => 8
  | .damaged => 9
  | .glare => 10
  | .reset => 11
  | .incomplete => 12
  | .empty => 13
  | .barred => 14
  | .badNumber => 15

def LineState.code : LineState → Nat
  | .disabled => 0
  | .idle => 1
  | .ringing => 2
  | .seizing => 3
  | .dialling => 4
  | .awaiting => 5
  | .connected => 6
  | .clearing => 7

def LineDirection.code : LineDirection → Nat
  | .off => 0
  | .incoming => 1
  | .out => 2
  | .both => 3

def DialMethod.code : DialMethod → Nat
  | .tone => 0
  | .pulse => 1

def ChargeMethod.code : ChargeMethod → Nat
  | .meter => 0
  | .time => 1

def CallDirection.code : CallDirection → Nat
  | .none => 0
  | .out => 1
  | .incoming => 2

def DisabledReason.code : DisabledReason → Nat
  | .none => 0
  | .off => 1
  | .loopFault => 2

def AnswerRefusal.code : AnswerRefusal → Nat
  | .none => 0
  | .entry => 1
  | .log => 2

def AnswerSource.code : AnswerSource → Nat
  | .none => 0
  | .reversal => 1
  | .meter => 2
  | .host => 3

def Policy.code : Policy → Nat
  | .warn => 0
  | .cut => 1

def Phase.code : Phase → Nat
  | .unanswered => 0
  | .charging => 1
  | .grace => 2

def CallMethod.code : CallMethod → Nat
  | .meter => 0
  | .time => 1
  | .none => 2

def WindowStatus.code : WindowStatus → Nat
  | .off => 0
  | .active => 1
  | .pending => 2
  | .refused => 3

def PageState.code : PageState → Nat
  | .free => 0
  | .writing => 1
  | .closed => 2

def ScanState.code : ScanState → Nat
  | .closed => 0
  | .open => 1
  | .cutting => 2
  | .starved => 3
  | .closing => 4

def StarveCause.code : StarveCause → Nat
  | .none => 0
  | .block => 1
  | .entry => 2
  | .pages => 3

def PrintState.code : PrintState → Nat
  | .closed => 0
  | .open => 1
  | .pageEnd => 2
  | .docEnd => 3

def LineStreamState.code : LineStreamState → Nat
  | .closed => 0
  | .open => 1
  | .pageEnd => 2
  | .waitPage => 3
  | .draining => 4
  | .docEnd => 5
  | .stalled => 6

def StreamDirection.code : StreamDirection → Nat
  | .none => 0
  | .send => 1
  | .receive => 2

def DrainPhase.code : DrainPhase → Nat
  | .none => 0
  | .serving => 1
  | .ended => 2
  | .done => 3

def StallCause.code : StallCause → Nat
  | .none => 0
  | .damaged => 1
  | .failed => 2
  | .bad => 3
  | .store => 4
  | .pages => 5

def Engine.code : Engine → Nat
  | .pass => 0
  | .running => 1

def Priority.code : Priority → Nat
  | .flash => 0
  | .urgent => 1
  | .routine => 2

def DialChar.code : DialChar → Nat
  | .digit d => d.val
  | .star => 10
  | .hash => 11
  | .pause => 12

/-! ## Compound fields (R199) -/

/-- A flag as a number. -/
def flag (b : Bool) : Nat := if b then 1 else 0

/-- A clock value field of 8 bytes. -/
def clockField : Option ClockValue → List Byte
  | some c => le 4 c.second ++ le 2 c.day.toNat ++ [1, 0]
  | none => List.replicate 8 0

/-- Characters two to a byte, the first in the low four bits. -/
def charBytes : List DialChar → List Byte
  | a :: b :: rest => BitVec.ofNat 8 (a.code + 16 * b.code) :: charBytes rest
  | [a] => [BitVec.ofNat 8 a.code]
  | [] => []

/-- A number field of 13 bytes. -/
def numberField (l : List DialChar) : List Byte := padTo 13 (BitVec.ofNat 8 l.length :: charBytes l)

/-- An absent index is all ones in its field of `n` bytes. -/
def optionField (n : Nat) : Option Nat → List Byte
  | some v => le n v
  | none => List.replicate n 0xFF

/-- The settings block of 16 bytes. -/
def LineSettings.bytes (x : LineSettings) : List Byte :=
  padTo 16
    (le 1 x.direction.code ++ le 1 x.dialMethod.code ++ le 1 x.chargeMethod.code ++ le 1 x.rings ++ le 1 x.seizeDelay
      ++ le 1 x.noAnswer ++ le 1 x.clearGuard ++ le 1 x.pauseLength ++ le 2 x.toneOn ++ le 2 x.toneGap)

/-! ## Mirror records (section 12.5) -/

/-- The place of a writer in the page mirror. -/
def Writer.code (w : Writer) : Nat := w.index.val

/-- The page mirror, 16 bytes. -/
def PageRecord.bytes (r : PageRecord) : List Byte :=
  le 2 r.check.toNat ++ le 3 r.byteCount ++ le 1 r.position
    ++ le 2 (r.lineCount + r.width.code * 2 ^ 13 + flag r.closing * 2 ^ 15)
    ++ le 2 (r.badLines + r.state.code * 2 ^ 13)
    ++ le 2 (r.chain.head?.getD 0 + r.writer.code * 2 ^ 13)
    ++ le 2 (r.chain.getLast?.getD 0 + flag r.short * 2 ^ 13 + flag r.truncated * 2 ^ 14 + flag r.poor * 2 ^ 15)
    ++ le 1 (r.document.val + flag r.damaged * 2 ^ 6) ++ le 1 r.k

/-- The first 16 entries of a page list. -/
def pageListBytes (l : List (Fin 512)) : List Byte :=
  ((l.take 16).map fun p => le 2 p.val).flatten ++ List.replicate (2 * (16 - l.length)) 0xFF

/-- The document mirror, 64 bytes; a free entry has no state (log entry 10). -/
def DocRecord.bytes (r : DocRecord) (pages : List (Fin 512)) : List Byte :=
  padTo 64
    (le 1 (flag r.inUse) ++ le 1 r.kind.code ++ le 1 r.priority.code ++ le 1 r.account.val
      ++ le 1 (if r.inUse then r.state.code else 0)
      ++ le 1 (flag r.building + 2 * flag r.released + 4 * flag r.localCopy) ++ le 1 r.obligation.code
      ++ le 1 r.retryInterval ++ le 1 r.attemptLimit ++ le 1 r.copies ++ le 1 pages.length ++ le 1 r.dests.length
      ++ le 4 r.releaseOrder.toNat ++ clockField r.notBefore ++ pageListBytes pages)

/-- The destination mirror, 64 bytes. -/
def DestRecord.bytes (r : DestRecord) : List Byte :=
  padTo 64
    (le 1 (flag r.inUse) ++ le 1 r.state.code ++ le 1 r.document.val ++ le 1 (flag r.cancelRequested) ++ le 1 r.attempts
      ++ le 1 r.confirmed ++ le 1 r.pageRetries.toNat ++ le 1 r.lastCause.code ++ optionField 1 (r.line.map (·.val))
      ++ le 1 r.blockReason.code ++ le 1 r.cls ++ le 1 r.band ++ clockField r.retryDue ++ numberField r.number)

/-- What an account's mirror shows of one line, 8 bytes. -/
def contextBytes (a : Fin 32) : Option CallContext → List Byte
  | some c => if c.account = a then [1, BitVec.ofNat 8 c.phase.code, 0, 0] ++ le 4 c.units.toNat else List.replicate 8 0
  | none => List.replicate 8 0

/-- The account mirror, 64 bytes. -/
def State.accountBytes (a : Fin 32) (s : State) : List Byte :=
  let x := s.account a
  padTo 64
    (le 2 x.code ++ le 1 x.cls ++ le 1 x.policy.code ++ le 1 (flag x.atBudget) ++ [0, 0, 0] ++ le 4 x.budget
      ++ le 4 x.charged.toNat ++ le 2 x.calls ++ List.replicate 6 0
      ++ (allLines.map fun n => contextBytes a (s.context n)).flatten)

/-- The line mirror, 64 bytes. -/
def LineRecord.bytes (r : LineRecord) : List Byte :=
  padTo 64
    (le 1 r.state.code ++ le 1 r.disabledReason.code ++ le 1 r.callDirection.code ++ le 1 r.charsSent
      ++ optionField 2 (r.destination.map (·.val)) ++ le 1 r.ringCount ++ le 1 r.answerRefusal.code
      ++ le 1 r.answerSource.code ++ le 1 r.lastCause.code ++ le 1 r.noLoopRun ++ le 1 (flag r.pending.isSome)
      ++ r.active.bytes ++ (match r.pending with | some p => p.bytes | none => List.replicate 16 0))

/-- The window word of a stream mirror. -/
def WindowShadow.word (x : WindowShadow) : List Byte :=
  le 4 (x.active.base.toNat + x.active.sizeCode * 2 ^ 26 + x.status.code * 2 ^ 30)

/-- The scan stream mirror, 16 bytes. -/
def ScanStream.bytes (x : ScanStream) (w : WindowShadow) : List Byte :=
  le 1 (x.state.code + x.cause.code * 2 ^ 3 + x.width.code * 2 ^ 5) ++ le 1 x.k ++ le 1 x.document.val ++ [0] ++ w.word
    ++ le 2 x.dropped ++ le 2 x.expiries ++ le 2 x.clipped ++ le 2 x.trailing

/-- The print stream mirror, 16 bytes. -/
def PrintStream.bytes (x : PrintStream) (w : WindowShadow) : List Byte :=
  le 1 (x.state.code + flag x.waiting * 2 ^ 2 + x.copy * 2 ^ 3) ++ le 1 x.position ++ le 1 x.document.val ++ [0] ++ w.word
    ++ le 2 x.dropped ++ le 2 x.expiries ++ le 2 x.codeErrors ++ le 2 x.linesServed

/-- A line stream mirror, 16 bytes. -/
def LineStream.bytes (x : LineStream) (w : WindowShadow) : List Byte :=
  le 1 (x.state.code + x.direction.code * 2 ^ 3 + x.drain.code * 2 ^ 5 + flag x.forced * 2 ^ 7) ++ le 1 x.stall.code
    ++ le 1 x.document.val ++ le 1 x.position ++ w.word ++ le 2 x.dropped ++ le 2 x.expiries
    ++ le 2 (if x.direction = .receive then x.badLines else x.fillCount) ++ le 2 x.codeErrors

/-- A stream's mirror. -/
def State.streamBytes (w : Fin 6) (s : State) : List Byte :=
  match windowStream w with
  | .scan => s.scan.bytes (s.window w)
  | .print => s.print.bytes (s.window w)
  | .line n => (s.stream n).bytes (s.window w)

/-- The counters record, 128 bytes (R34); the clock's values are 0 while it is not set (R182). -/
def State.counterBytes (s : State) : List Byte :=
  let c := s.charge
  padTo 128
    (le 4 s.path.controlDrops ++ le 4 s.path.storeDrops ++ le 4 s.path.logDrops ++ le 2 s.ctl.ringErrors
      ++ le 1 s.ctl.engine.code ++ [0] ++ le 2 s.freeBlocks ++ [0, 0] ++ le 2 c.writeIndex.toNat ++ le 2 c.readIndex.toNat
      ++ le 2 c.reservations ++ le 1 (flag c.clockSet)
      ++ (if c.clockSet then le 1 c.dayOfWeek ++ le 2 c.clock.day.toNat ++ [0, 0] ++ le 4 c.clock.second else []))

/-- A calendar entry, 8 bytes. -/
def CalendarEntry.bytes (e : CalendarEntry) : List Byte := le 1 e.days.toNat ++ le 1 e.period.val ++ [0, 0] ++ le 4 e.start

/-- The tariff and calendar mirror, 256 bytes. -/
def ChargeUnit.tariffBytes (c : ChargeUnit) : List Byte :=
  padTo 256
    ((c.calendar.cells.map CalendarEntry.bytes).flatten
      ++ (c.grid.cells.map fun row => (row.cells.map fun v => le 2 v).flatten).flatten ++ le 1 c.period.val)

/-- A prefix mirror, 32 bytes. -/
def PrefixEntry.bytes (e : PrefixEntry) : List Byte :=
  padTo 32
    (le 1 e.digits.length ++ le 1 e.cls ++ le 1 e.band.val ++ [0]
      ++ padTo 8 (e.digits.map fun d => BitVec.ofNat 8 d.val))

/-- The status words, 8 bytes. -/
def ControlUnit.statusBytes (c : ControlUnit) : List Byte := le 4 c.head.toNat ++ le 4 c.notices.toNat

/-- A record's bytes as they stand. -/
def State.recordBytes (r : RecordId) (s : State) : List Byte :=
  match r with
  | .statusWords => s.ctl.statusBytes
  | .counters => s.counterBytes
  | .page p => (s.page p).bytes
  | .document d => (s.doc d).bytes (s.pageList d)
  | .account a => s.accountBytes a
  | .line n => (s.lineUnit n).record.bytes
  | .stream w => s.streamBytes w
  | .prefixEntry e => (s.charge.prefixes.get e).bytes
  | .tariff => s.charge.tariffBytes
  | .destination d => (s.dest d).bytes

/-- A record's offset in the control region. -/
def RecordId.offset : RecordId → Nat
  | .statusWords => 0x0404
  | .counters => 0x5A00
  | .page p => 0x2000 + 16 * p.val
  | .document d => 0x4000 + 64 * d.val
  | .account a => 0x5000 + 64 * a.val
  | .line n => 0x5800 + 64 * n.val
  | .stream w => 0x5900 + 16 * w.val
  | .prefixEntry e => 0x6000 + 32 * e.val
  | .tariff => 0x6400
  | .destination d => 0x8000 + 64 * d.val

/-- The size of a record (section 2.5). -/
def RecordId.size : RecordId → Nat
  | .statusWords => 8
  | .counters => 128
  | .page _ => 16
  | .document _ => 64
  | .account _ => 64
  | .line _ => 64
  | .stream _ => 16
  | .prefixEntry _ => 32
  | .tariff => 256
  | .destination _ => 64

/-- An offset of the control region as a page memory address. -/
def State.regionAddr (offset : Nat) (s : State) : Nat := s.path.controlBase.toNat + offset

/-- A command slot's first byte (section 2.3). -/
def State.slotAddr (slot : Nat) (s : State) : Nat := s.regionAddr (0x0800 + 64 * slot)

/-! ## Results and charge records -/

/-- The 16 bytes of a result (R201). -/
def resultBytes (count : BitVec 6) (r : CommandResult) : List Byte :=
  [BitVec.ofNat 8 r.code.code, count.zeroExtend 8] ++ padTo 14 (if r.code = .ok then r.data else [])

/-- A time of a charge record, 6 bytes. -/
def timeBytes (c : ClockValue) : List Byte := le 4 c.second ++ le 2 c.day.toNat

/-- The 64 bytes of a charge record (section 12.6). -/
def ChargeRecord.bytes (r : ChargeRecord) : List Byte :=
  padTo 64
    (le 2 r.index.toNat ++ le 1 r.line.val ++ le 1 (if r.incoming then 2 else 1) ++ le 2 r.code
      ++ optionField 1 (r.document.map (·.val)) ++ le 1 r.band.val ++ le 1 r.method.code ++ le 1 r.cause.code
      ++ le 1 (flag r.timeValid + 2 * flag r.answerTime.isSome) ++ le 1 r.pagesConfirmed ++ le 2 (min 65535 r.rejected)
      ++ [0, 0] ++ timeBytes r.seizeTime ++ timeBytes r.endTime
      ++ (match r.answerTime with | some t => timeBytes t | none => List.replicate 6 0) ++ [0, 0]
      ++ le 4 r.seconds.toNat ++ le 4 r.units.toNat ++ numberField r.number)

/-- The place of a charge record in the log (R193, R195). -/
def State.chargeAddr (r : ChargeRecord) (s : State) : Nat :=
  s.store.logBase + 64 * (r.index.toNat % Config.logRecords)

end Sys2Proof.Machine
end

