-- ==== Sys2Proof/Machine/Path.lean ====
section
/-! DEFINITION. The path unit's treatment of host accesses (sections 1.1 to 1.4): sorting by address, forwarding and
snooping, dropping, window traffic, holds. -/

namespace Sys2Proof.Machine

/-! ## Sorting (R1 to R3) -/

/-- What the path unit does with an access by its address. -/
inductive Treatment where
  | forward
  | controlDrop
  | storeDrop
  | logDrop
  | window (w : Fin 6)
  deriving DecidableEq, Repr

/-- Is a host write at an offset of the control region dropped (R2, section 2.1)? -/
def partWritten (offset : Nat) : Bool :=
  (decide (0x0404 ≤ offset) && decide (offset ≤ 0x040B))
    || (decide (0x0800 ≤ offset) && decide (offset ≤ 0x0FFF) && decide (48 ≤ offset % 64))
    || (decide (0x2000 ≤ offset) && decide (offset ≤ 0x597F))
    || (decide (0x5A00 ≤ offset) && decide (offset ≤ 0x5A7F))
    || (decide (0x6000 ≤ offset) && decide (offset ≤ 0x64FF))
    || (decide (0x8000 ≤ offset) && decide (offset ≤ 0xFFFF))

/-- Is an address in the control region? -/
def State.inControl (a : Nat) (s : State) : Bool :=
  decide (s.path.controlBase.toNat ≤ a) && decide (a < s.path.controlBase.toNat + Config.controlBytes)

/-- Is an address in the page store area (R3)? -/
def State.inStore (a : Nat) (s : State) : Bool :=
  decide (s.ctl.engine = .running) && decide (s.store.base ≤ a) &&
    decide (a < s.store.base + s.store.blockCount * Config.blockBytes)

/-- Is an address in the charge log area (R3)? -/
def State.inLog (a : Nat) (s : State) : Bool :=
  decide (s.ctl.engine = .running) && decide (s.store.logBase ≤ a) && decide (a < s.store.logBase + Config.logBytes)

/-- Does a window's active entry hold an address? -/
def State.windowHolds (a : Nat) (s : State) (w : Fin 6) : Bool :=
  let e := (s.window w).active
  decide (e.base.toNat ≤ a) && decide (a < e.base.toNat + windowBytes e.sizeCode)

/-- Is the access a write? -/
def isWrite : HostAccess → Bool
  | .read _ => false
  | .write _ => true

/-- The class of an access, by the address of its lowest byte, and its treatment (R1). -/
def State.sortAccess (acc : HostAccess) (s : State) : Treatment :=
  let a := (accessAddr acc).toNat
  if s.inControl a then
    if isWrite acc && partWritten (a - s.path.controlBase.toNat) then .controlDrop else .forward
  else if s.inStore a then if isWrite acc then .storeDrop else .forward
  else if s.inLog a then if isWrite acc then .logDrop else .forward
  else
    match allWindows.find? (s.windowHolds a) with
    | some w => .window w
    | none => .forward

/-! ## Dropped writes (R2, R3) -/

/-- A guard drop count's maximum (R3). -/
def dropTop : Nat := 4294967295

/-- A dropped write completes at once, its count gained by the caller; GUARD is raised. The counters join the mirror write
queue before the status words (log entry 46). -/
def State.guarded (s : State) : State := ((s.rewrite .counters).raise .guard).answerHost .written

/-- A write dropped in a part-written control area; a count at its maximum stays there (R2). -/
def State.dropControl (s : State) : State :=
  let n := saturate dropTop s.path.controlDrops
  if n = s.path.controlDrops then (s.raise .guard).answerHost .written
  else ({ s with path := { s.path with controlDrops := n } } : State).guarded

/-- A write dropped in the page store area (R3). -/
def State.dropStore (s : State) : State :=
  let n := saturate dropTop s.path.storeDrops
  if n = s.path.storeDrops then (s.raise .guard).answerHost .written
  else ({ s with path := { s.path with storeDrops := n } } : State).guarded

/-- A write dropped in the charge log area (R3). -/
def State.dropLog (s : State) : State :=
  let n := saturate dropTop s.path.logDrops
  if n = s.path.logDrops then (s.raise .guard).answerHost .written
  else ({ s with path := { s.path with logDrops := n } } : State).guarded

/-! ## Snooped writes (R2, R4, R12, R22, R25, R31) -/

/-- The bytes of a write with their offsets in the control region. -/
def offsetsFrom : Nat → List Byte → List (Nat × Byte)
  | _, [] => []
  | o, b :: rest => (o, b) :: offsetsFrom (o + 1) rest

/-- One byte of a 32-bit word replaced. -/
def setWordByte (x : BitVec 32) (i : Nat) (b : Byte) : BitVec 32 :=
  (x &&& ~~~((0xFF : BitVec 32) <<< (8 * i))) ||| (b.zeroExtend 32 <<< (8 * i))

/-- The hold limit a copy gives: at least 2 and at most 250 (R12). -/
def holdLimitOf (copy : BitVec 32) : Nat := max Config.holdLimitMin (min Config.holdLimitMax copy.toNat)

/-- The bytes of a write to the hold limit field taken (R12). -/
def State.snoopHoldLimit (l : List (Nat × Byte)) (s : State) : State :=
  let mine := l.filter fun p => decide (p.1 < 4)
  if mine = [] then s
  else
    let copy := mine.foldl (fun x p => setWordByte x p.1 p.2) s.path.holdCopy
    { s with path := { s.path with holdCopy := copy, holdLimit := holdLimitOf copy } }

/-- A write to the mask field queues its read (R22). -/
def State.snoopMask (l : List (Nat × Byte)) (s : State) : State :=
  if l.any fun p => decide (4 ≤ p.1) && decide (p.1 < 8) then s.enqueue .maskRead else s

/-- One byte of a window entry reaches the staging copy (R4). -/
def WindowShadow.stage (x : WindowShadow) (o : Nat) (b : Byte) : WindowShadow :=
  if o < 4 then { x with stagingBase := setWordByte x.stagingBase o b }
  else if o = 12 then { x with stagingSize := b }
  else x

/-- The bytes of a write that lie in the window table, by entry. -/
def entryBytes (w : Fin 6) (l : List (Nat × Byte)) : List (Nat × Byte) :=
  l.filterMap fun p =>
    if 0x0100 + 16 * w.val ≤ p.1 ∧ p.1 < 0x0110 + 16 * w.val then some (p.1 - (0x0100 + 16 * w.val), p.2) else none

/-- A write to a window entry: the staging copy follows it, and a byte of the word at offset 12 takes the entry, except in
reset teardown (R4, R20). -/
def State.snoopEntry (l : List (Nat × Byte)) (s : State) (w : Fin 6) : State :=
  let mine := entryBytes w l
  let s1 := s.setWindow w (mine.foldl (fun x p => x.stage p.1 p.2) (s.window w))
  if (mine.any fun p => decide (12 ≤ p.1)) = true ∧ s.ctl.teardown = none then s1.takeWindow w else s1

/-- A write to the tail word queues its read; in reset teardown it is not taken (R25, R42). -/
def State.snoopTail (s : State) : State := if s.ctl.teardown = none then s.enqueue .tailRead else s

/-- The flags one written byte of the acknowledge word clears (R31). -/
def ackByte (o : Nat) (b : Byte) : BitVec 12 :=
  if 0x040C ≤ o ∧ o < 0x0410 then ((b.zeroExtend 32 : BitVec 32) <<< (8 * (o - 0x040C))).truncate 12 else 0

/-- The flags that the written bytes of an acknowledgement clear (R31). -/
def ackBits (l : List (Nat × Byte)) : BitVec 12 := l.foldl (fun x p => x ||| ackByte p.1 p.2) 0

/-- The written bytes of a control region write are handed to their user, by the sub-area of the lowest byte (R2). -/
def State.snoop (w : HostWrite) (s : State) : State :=
  let o := w.addr.toNat - s.path.controlBase.toNat
  let l := offsetsFrom o (hostWriteBytes w)
  if o < 0x0100 then (s.snoopHoldLimit l).snoopMask l
  else if o < 0x0160 then allWindows.foldl (State.snoopEntry l) s
  else if 0x0400 ≤ o ∧ o < 0x0404 then s.snoopTail
  else if 0x040C ≤ o ∧ o < 0x0410 then s.clearNotices (ackBits l)
  else s

/-- A forwarded access is carried out on the port (R1, R2). -/
def State.forwardAccess (acc : HostAccess) (s : State) : State :=
  match acc with
  | .read r => s.answerHost (.read (Memory.readBytes s.mem r.addr.toNat r.size.bytes))
  | .write w =>
    let s1 := ({ s with mem := Memory.writeBytes s.mem w.addr.toNat (hostWriteBytes w) } : State).answerHost .written
    if s.inControl w.addr.toNat then s1.snoop w else s1

/-! ## Window traffic (R7 to R10) and holds (R12, R13) -/

/-- The access becomes the held access. -/
def State.hold (acc : HostAccess) (w : Option (Fin 6)) (why : HoldReason) (s : State) : State :=
  { s with path := { s.path with
      held := some { access := acc, window := w, reason := why, start := s.now, limit := s.path.holdLimit } } }

/-- An attempt's outcome: the access is done, or held for a reason. -/
def State.orHold (acc : HostAccess) (w : Fin 6) (why : HoldReason) (s : State) : Attempt → State
  | .done s1 => s1
  | .hold => s.hold acc (some w) why

/-- A read of a write-direction window (R9). -/
def State.voidRead (r : HostRead) (s : State) : State := s.answerHost (.read (List.replicate r.size.bytes 0))

/-- A print window read tried (R165). -/
def State.printRead (r : HostRead) (s : State) : Attempt :=
  match s.servePrint r.size.bytes with
  | some (bytes, s1) => .done (s1.answerHost (.read bytes))
  | none => .hold

/-- An access to an open stream's window, by the kind of the stream (R9, R10). -/
def State.openWindowAccess (w : Fin 6) (acc : HostAccess) (s : State) : State :=
  match windowStream w, acc with
  | .scan, .read r => s.voidRead r
  | .scan, .write x => s.orHold acc w .scanFull (s.scanWrite x)
  | .print, .read r => s.orHold acc w .printNotDecoded (s.printRead r)
  | .print, .write _ => s.voidAccess w acc
  | .line n, .read r =>
    if (s.stream n).direction = .receive then s.voidRead r
    else
      let served := s.serveSend n r.size.bytes
      served.2.answerHost (.read served.1)
  | .line n, .write x =>
    if (s.stream n).direction = .receive then s.orHold acc w .receiveFull (s.receiveWrite n x) else s.voidAccess w acc

/-- A window access (R7, section 1.3). -/
def State.windowAccess (w : Fin 6) (acc : HostAccess) (s : State) : State :=
  if s.isClosed (windowStream w) then s.voidAccess w acc else s.openWindowAccess w acc

/-- An attempt of a held access: it completes, or stays held as it was. -/
def State.orKeep (s : State) : Attempt → State
  | .done s1 => s1
  | .hold => s

/-- The held window access is tried again: its cause may have ended, or its stream drop or void it (R13). -/
def State.retryHeld (s : State) : State :=
  match s.path.held with
  | none => s
  | some h =>
    match h.reason, h.window, h.access with
    | .scanFull, _, .write x => s.orKeep (s.scanWrite x)
    | .receiveFull, some w, .write x =>
      match windowStream w with
      | .line n => s.orKeep (s.receiveWrite n x)
      | _ => s
    | .printNotDecoded, _, .read r => s.orKeep (s.printRead r)
    | _, _, _ => s

/-- The line stream loses bytes at the expiry of a held receive write (R13, R152). -/
def State.expireReceive (w : Fin 6) (s : State) : State :=
  match windowStream w with
  | .line n => s.loseLine n
  | _ => s

/-- The hold limit runs out on the held window access (R13). -/
def State.holdExpired (s : State) : State :=
  match s.path.held with
  | none => s
  | some h =>
    match h.window with
    | none => s
    | some w =>
      let s1 := ((s.reach (h.start + h.limit)).countExpiry w).raise .hold
      match h.access with
      | .read r => s1.voidRead r
      | .write _ => (if h.reason = .receiveFull then s1.expireReceive w else s1).answerHost .written

/-- A host access arrives (R1). A forwarded one waits for the port, whose arbiter decides as the step settles (R15). The
host side has one access outstanding, so none arrives while one is held (R12; log entry 7). -/
def State.hostAccess (acc : HostAccess) (s : State) : State :=
  match s.path.held with
  | some _ => s
  | none =>
    match s.sortAccess acc with
    | .forward => s.hold acc none .memoryPort
    | .controlDrop => s.dropControl
    | .storeDrop => s.dropStore
    | .logDrop => s.dropLog
    | .window w => s.windowAccess w acc

end Sys2Proof.Machine
end

