-- ==== Sys2Proof/Machine/Port.lean ====
section
/-! DEFINITION. The memory port (section 1.5): which requester has work, the queue of internal requests, the arbiter's
grant, and the completions of store, mirror and charge record requests. -/

namespace Sys2Proof.Machine

/-! ## Work of the requesters (R14) -/

/-- The eight requesters, in the order in which requests that come together are queued (log entry 11). -/
def allRequesters : List Requester := [.scan, .print, .line 0, .line 1, .line 2, .line 3, .control, .charge]

/-- The oldest page of a writer slot with bytes to store, and whether it is closing. -/
def WriterSlot.next (x : WriterSlot) : Option (PageInHand × Bool) :=
  match x.closing.filter (fun h => decide (h.queued ≠ [])) with
  | some h => some (h, true)
  | none => (x.writing.filter fun h => decide (h.queued ≠ [])).map fun h => (h, false)

/-- The bytes a read of a page from a read position asks for (R144, R163). -/
def readRoom (readPos byteCount : Nat) : Nat := requestRoom readPos (byteCount - readPos)

/-- May a stream read on: below the byte count, with room in its read-ahead buffer? -/
def mayRead (ahead readPos byteCount : Nat) : Bool :=
  decide (readPos < byteCount) && decide (ahead + readRoom readPos byteCount ≤ Config.readAheadBytes)

/-- Has a send stream a store read to make (R144)? Reading stops once the check has been compared. -/
def State.sendWants (n : Fin 4) (s : State) : Bool :=
  let x := s.stream n
  x.serving && x.check.isSome && mayRead x.aheadBytes x.readPos (s.page x.page).byteCount

/-- Has the print stream a store read to make (R163)? -/
def State.printWants (s : State) : Bool :=
  let x := s.print
  decide (x.state = .open) && !x.waiting && mayRead x.readAhead.length x.readPos x.byteCount

/-- Has a requester work for the port? -/
def State.wantsPort (s : State) : Requester → Bool
  | .scan => (s.slot .scan).next.isSome
  | .print => s.printWants
  | .line n => (s.slot (.line n)).next.isSome || s.sendWants n
  | .control => decide (s.ctl.queue ≠ [])
  | .charge => decide (s.charge.recordQueue ≠ [])

/-- Has a requester the port? -/
def State.onPort (s : State) (q : Requester) : Bool :=
  match s.path.port with
  | some p => decide (p.requester = q)
  | none => false

/-- The page's byte that a page in hand hands to the path unit next (R72). -/
def State.nextByte (h : PageInHand) (s : State) : Nat := (s.page h.page).byteCount - h.queued.length

/-- How many bytes a writer's store write for a page in hand carries: those it was issued with, and where none is queued for
that page as many as it can (R14). Bytes placed while it waits are kept for the next one. -/
def State.storeWriteSize (w : Writer) (h : PageInHand) (s : State) : Nat :=
  let whole := requestRoom (s.nextByte h) h.queued.length
  match s.path.storeWrites.get w.index with
  | some q => if q.page = h.page then q.size else whole
  | none => whole

/-- A writer's store write, where the requests queued hold one (R14). -/
def State.storeWriteOf (requests : List Requester) (s : State) (w : Writer) : Option StoreWrite :=
  if w.requester ∈ requests then (s.slot w).next.map fun x => { page := x.1.page, size := s.storeWriteSize w x.1 } else none

/-- Requesters with work and none outstanding issue their requests; a request whose work has gone is discarded. A requester
whose request is withdrawn and that has other work keeps its place: the closing page's write after R20 and R81, the control
unit's next entry after a discarded slot read (R40); the manual gives no place (log entry 44). The print stream's queued
read is withdrawn as the stream leaves OPEN for PAGE-END (log entry 55). -/
def State.issueRequests (s : State) : State :=
  let kept := s.path.requests.filter s.wantsPort
  let added := allRequesters.filter fun q => s.wantsPort q && !s.onPort q && decide (q ∉ kept)
  { s with path := { s.path with
      requests := kept ++ added, storeWrites := ⟨allWriters.map (s.storeWriteOf (kept ++ added)), rfl⟩ } }

/-! ## The grant (R15) -/

/-- A request takes the port. -/
def State.startRequest (q : Requester) (kind : PortKind) (addr : Nat) (bytes : List Byte) (s : State) : State :=
  { s with path := { s.path with
      port := some { requester := q, kind := kind, addr := addr, bytes := bytes }, passedOver := 0,
      requests := s.path.requests.filter (· ≠ q) } }

/-- A read request takes the port with the bytes memory holds. -/
def State.startRead (q : Requester) (kind : PortKind) (addr n : Nat) (s : State) : State :=
  s.startRequest q kind addr (Memory.readBytes s.mem addr n)

/-- A page in hand after the path unit has accepted its next `n` bytes (R17, R72). -/
def PageInHand.accept (h : PageInHand) (n : Nat) : PageInHand :=
  { h with queued := h.queued.drop n, check := foldBytes h.check (h.queued.take n) }

/-- The writer slot after that. -/
def WriterSlot.accept (x : WriterSlot) (h : PageInHand) (n : Nat) (closing : Bool) : WriterSlot :=
  if closing then { x with closing := some (h.accept n) }
  else { x with writing := some (h.accept n) }

/-- A writer's store write takes the port (R14, R72). -/
def State.grantStoreWrite (w : Writer) (h : PageInHand) (closing : Bool) (s : State) : State :=
  let n := s.storeWriteSize w h
  (s.setSlot w ((s.slot w).accept h n closing)).startRequest w.requester
    (.storeWrite w h.page (closing && decide (h.queued.length ≤ n))) (s.pageByteAddr h.page (s.nextByte h)) (h.queued.take n)

/-- A store read takes the port (R144, R163). -/
def State.grantStoreRead (q : Requester) (p : Fin 512) (readPos byteCount : Nat) (s : State) : State :=
  s.startRead q (.storeRead true) (s.pageByteAddr p readPos) (readRoom readPos byteCount)

/-- The head of the mirror write queue takes the port (R35). -/
def State.grantControl (e : QueueEntry) (rest : List QueueEntry) (s : State) : State :=
  let s1 : State := { s with ctl := { s.ctl with queue := rest } }
  match e with
  | .record r => s1.startRequest .control (.recordWrite r) (s.regionAddr r.offset) (s.recordBytes r)
  | .slotRead => s1.startRead .control (.slotRead true) (s.slotAddr (s.ctl.head.toNat % 32)) 48
  | .resultWrite slot bytes => s1.startRequest .control .resultWrite (s.slotAddr slot + 48) bytes
  | .tailRead => s1.startRead .control .tailRead (s.regionAddr 0x0400) 4
  | .maskRead => s1.startRead .control .maskRead (s.regionAddr 0x0004) 4

/-- A requester's request is granted the port. A line's writes come before its reads (log entry 45). -/
def State.grantRequest (q : Requester) (s : State) : State :=
  match q with
  | .scan =>
    match (s.slot .scan).next with
    | some (h, closing) => s.grantStoreWrite .scan h closing
    | none => s
  | .print => s.grantStoreRead .print s.print.page s.print.readPos s.print.byteCount
  | .line n =>
    match (s.slot (.line n)).next with
    | some (h, closing) => s.grantStoreWrite (.line n) h closing
    | none =>
      let x := s.stream n
      s.grantStoreRead (.line n) x.page x.readPos (s.page x.page).byteCount
  | .control =>
    match s.ctl.queue with
    | e :: rest => s.grantControl e rest
    | [] => s
  | .charge =>
    match s.charge.recordQueue with
    | r :: _ => s.startRequest .charge .chargeWrite (s.chargeAddr r) r.bytes
    | [] => s

/-- The forwarded access that waits for the port. -/
def PathUnit.waitingAccess (p : PathUnit) : Option HostAccess :=
  match p.held with
  | some h => if h.reason = .memoryPort then some h.access else none
  | none => none

/-- The passed-over count is replaced. -/
def State.setPassedOver (n : Nat) (s : State) : State := { s with path := { s.path with passedOver := n } }

/-- The arbiter grants the free port (R15). The host's access is carried out at its grant; the port is then free again. -/
def State.grantPort (s : State) : State :=
  match s.path.port with
  | some _ => s
  | none =>
    match s.path.waitingAccess, s.path.requests with
    | none, [] => s.setPassedOver 0
    | some acc, [] => (s.setPassedOver 0).forwardAccess acc
    | none, q :: _ => s.grantRequest q
    | some acc, q :: _ =>
      if s.path.passedOver < Config.passedOverLimit then (s.setPassedOver (s.path.passedOver + 1)).forwardAccess acc
      else s.grantRequest q

/-! ## Completions -/

/-- The port is free. -/
def State.freePort (s : State) : State := { s with path := { s.path with port := none } }

/-- The request's bytes reach memory and the port is free. -/
def State.portWritten (p : PortRequest) (s : State) : State :=
  ({ s with mem := Memory.writeBytes s.mem p.addr p.bytes } : State).freePort

/-- The write that carries a page's END-OF-PAGE has completed (R74): the page is CLOSED with its check, the news goes
round, STREAM is raised, and a closing scan stream may become CLOSED (R90, R94, R155, R157). A close that waited is taken
(log entry 14), and the page after it is opened as R88 says. -/
def State.pageStored (w : Writer) (p : Fin 512) (s : State) : State :=
  match (s.slot w).closing with
  | none => s
  | some h =>
    if h.page = p then
      let s1 := (((s.markClosed w p h.check).pageClosedNews p).raise .stream).takeAsked w
      match w with
      | .scan => if (s.slot .scan).asked = none then s1.scanFinish else s1.scanNextPage.scanFinish
      | .line _ => s1
    else s

/-- A store write completes (R72). -/
def State.storeWriteDone (s : State) : State :=
  match s.path.port with
  | some p =>
    match p.kind with
    | .storeWrite w page ends => if ends then (s.portWritten p).pageStored w page else s.portWritten p
    | _ => s
  | none => s

/-- The bytes of a print read enter the read-ahead buffer (R163). -/
def State.printReadDone (bytes : List Byte) (s : State) : State :=
  s.setPrint { s.print with readAhead := s.print.readAhead ++ bytes, readPos := s.print.readPos + bytes.length }

/-- The bytes of a live store read reach their stream (R144, R163). -/
def State.deliverRead (q : Requester) (bytes : List Byte) (s : State) : State :=
  match q with
  | .print => s.printReadDone bytes
  | .line n => s.sendReadDone n bytes
  | .scan | .control | .charge => s

/-- A store read completes. -/
def State.storeReadDone (s : State) : State :=
  match s.path.port with
  | some p =>
    match p.kind with
    | .storeRead live => if live then s.freePort.deliverRead p.requester p.bytes else s.freePort
    | _ => s
  | none => s

/-- One of the requests of the control unit that reset teardown waits for has completed (R38, R40). -/
def Teardown.counted : Option Teardown → Option Teardown
  | some (.rewriting (left + 1)) => some (.rewriting left)
  | t => t

/-- A request of the control unit has completed. -/
def State.controlDone (s : State) : State := { s with ctl := { s.ctl with teardown := Teardown.counted s.ctl.teardown } }

/-- A rewrite completes (R35). -/
def State.mirrorWriteDone (s : State) : State :=
  match s.path.port with
  | some p =>
    match p.kind with
    | .recordWrite _ => (s.portWritten p).controlDone
    | _ => s
  | none => s

/-- A charge record write completes (R195). -/
def State.chargeWriteDone (s : State) : State :=
  match s.path.port with
  | some p =>
    match p.kind with
    | .chargeWrite =>
      let s1 := s.portWritten p
      ({ s1 with charge := { s1.charge with
          recordQueue := s1.charge.recordQueue.tail, writeIndex := s1.charge.writeIndex + 1 } } : State).rewrite .counters
    | _ => s
  | none => s

end Sys2Proof.Machine
end

