-- ==== Sys2Proof/Machine/Commands.lean ====
section
/-! DEFINITION. What every ring command shares: its outcome (R29, R201) and the engine check of R28; and the setup
commands, taken in PASS as well as in RUNNING (R23), of the chapters 2, 4, 7, 10 and 11. -/

namespace Sys2Proof.Machine

/-- What a command's execution gives: the part after it, the result code, the result data. -/
structure Done where
  state : State
  code : ResultCode
  data : List Byte
  deriving DecidableEq, Repr

/-- A command that is not applied changes nothing (R28). -/
def State.not (code : ResultCode) (s : State) : Done := { state := s, code := code, data := [] }

/-- A command applied, with its result data. -/
def State.okay (data : List Byte) (s : State) : Done := { state := s, code := .ok, data := data }

/-- A command that only RUNNING takes (R23, R28). -/
def State.inRunning (f : State → Done) (s : State) : Done := if s.ctl.engine = .running then f s else s.not .refused

/-- The result a command leaves. -/
def Done.result (d : Done) : CommandResult := { code := d.code, data := d.data }

/-- A code that stands in no row (R28, R200). -/
def State.cmdUnknown (s : State) : Done := s.not .badArg

/-! ## STORE SETUP (R24, R61, R62) -/

/-- The reserve that would be in force (R61). -/
def State.newReserve (reserve : BitVec 16) (s : State) : Nat :=
  if reserve.toNat = Config.keepReserve then s.store.reserve else reserve.toNat

/-- The checks of R61. -/
def State.storeFits (base count log : Nat) (reserve : BitVec 16) (s : State) : Bool :=
  decide (base % 1024 = 0) && decide (64 ≤ count) && decide (count ≤ 8192) && decide (log % 65536 = 0) &&
    (decide (reserve.toNat ≤ 255) || decide (reserve.toNat = Config.keepReserve)) &&
    decide (s.newReserve reserve < count) && decide (base + count * Config.blockBytes ≤ Config.memoryBytes) &&
    decide (log + Config.logBytes ≤ Config.memoryBytes) &&
    !overlaps base (count * Config.blockBytes) s.path.controlBase.toNat Config.controlBytes &&
    !overlaps log Config.logBytes s.path.controlBase.toNat Config.controlBytes &&
    !overlaps base (count * Config.blockBytes) log Config.logBytes

/-- The store as an accepted STORE SETUP leaves it (R62). -/
def StoreManager.setUp (base count log reserve : Nat) : StoreManager :=
  { base := base, blockCount := count, logBase := log, reserve := reserve, freeList := List.range count,
    pages := Table.replicate 512 PageRecord.empty, slots := Table.replicate 5 ⟨none, none, none⟩ }

/-- The engine enters RUNNING with a store (R24). -/
def State.enterRunning (store : StoreManager) (s : State) : State :=
  let s1 : State := { s with store := store, ctl := { s.ctl with engine := .running } }
  allWindows.foldl State.recheckWindow s1.fullRewrite

def State.cmdStoreSetup (base : BitVec 32) (count : BitVec 16) (log : BitVec 32) (reserve : BitVec 16) (s : State) : Done :=
  if s.ctl.engine = .running then s.not .refused
  else if s.storeFits base.toNat count.toNat log.toNat reserve then
    let r := s.newReserve reserve
    (s.enterRunning (StoreManager.setUp base.toNat count.toNat log.toNat r)).okay (le 2 count.toNat ++ le 2 r)
  else s.not .badArg

/-! ## TIME SET, PERIOD SET, TARIFF SET, PREFIX SET (R173, R176, R178, R179) -/

/-- The clock is set (R173). -/
def State.setClock (day : BitVec 16) (dayOfWeek second : Nat) (s : State) : State :=
  let s1 := ({ s with charge := { s.charge with
    clockSet := true, clock := { day := day, second := second }, dayOfWeek := dayOfWeek,
    dividerDue := s.now + Config.second } } : State).rewrite .counters
  ((s1.judgePeriod).judgeNotBefore s.charge.reading).askArbiter

/-- The result data that holds the period in force. -/
def State.okPeriod (s : State) : Done := s.okay (le 1 s.charge.period.val)

def State.cmdTimeSet (day : BitVec 16) (dayOfWeek : BitVec 8) (second : BitVec 32) (s : State) : Done :=
  if dayOfWeek.toNat ≤ 6 ∧ second.toNat < Config.secondsPerDay then
    (s.setClock day dayOfWeek.toNat second.toNat).okPeriod
  else s.not .badArg

def State.cmdPeriodSet (entry daySet period : BitVec 8) (start : BitVec 32) (s : State) : Done :=
  match indexBelow 8 entry.toNat, indexBelow 4 period.toNat with
  | some e, some p =>
    if daySet.toNat < 128 ∧ start.toNat < Config.secondsPerDay then
      let x : CalendarEntry := { days := daySet.truncate 7, start := start.toNat, period := p }
      ((({ s with charge := { s.charge with calendar := s.charge.calendar.set e x } } : State).rewrite .tariff).judgePeriod).okPeriod
    else s.not .badArg
  | _, _ => s.not .badArg

/-- The four values of a band (R178). -/
def gridRow (v0 v1 v2 v3 : BitVec 16) : Table Nat 4 := ⟨[v0.toNat, v1.toNat, v2.toNat, v3.toNat], rfl⟩

def State.cmdTariffSet (band : BitVec 8) (v0 v1 v2 v3 : BitVec 16) (s : State) : Done :=
  match indexBelow 8 band.toNat with
  | some b =>
    if v0.toNat ≤ 3600 ∧ v1.toNat ≤ 3600 ∧ v2.toNat ≤ 3600 ∧ v3.toNat ≤ 3600 then
      (({ s with charge := { s.charge with grid := s.charge.grid.set b (gridRow v0 v1 v2 v3) } } : State).rewrite .tariff).okay []
    else s.not .badArg
  | none => s.not .badArg

/-- The prefix entry that PREFIX SET gives, if its arguments are in range (R179). -/
def prefixOperand (count cls band : BitVec 8) (digits : BitVec 64) : Option PrefixEntry :=
  if count = 0 then some { digits := [], cls := 0, band := 0 }
  else
    match between 1 8 count.toNat, between 1 4 cls.toNat, indexBelow 8 band.toNat with
    | some n, some c, some b => (prefixDigits n digits.toNat).map fun l => { digits := l, cls := c, band := b }
    | _, _, _ => none

def State.cmdPrefixSet (entry count cls band : BitVec 8) (digits : BitVec 64) (s : State) : Done :=
  match indexBelow 32 entry.toNat, prefixOperand count cls band digits with
  | some e, some x =>
    (({ s with charge := { s.charge with prefixes := s.charge.prefixes.set e x } } : State).rewrite (.prefixEntry e)).okay []
  | _, _ => s.not .badArg

/-! ## ACCOUNT SET, ACCOUNT CLEAR, LOG RELEASE (R185, R186, R196) -/

/-- Does a context name an account, with a class above a limit? -/
def namesAbove (a : Fin 32) (limit : Option Nat) (c : Option CallContext) : Bool :=
  match c with
  | some x =>
    decide (x.account = a) &&
      (match limit with
        | some n => decide (n < x.cls)
        | none => true)
  | none => false

def State.cmdAccountSet (account cls policy : BitVec 8) (code : BitVec 16) (budget : BitVec 32) (s : State) : Done :=
  match indexBelow 32 account.toNat, policyField policy with
  | some a, some p =>
    if code.toNat ≤ 9999 ∧ cls.toNat ≤ 4 ∧ budget.toNat ≤ 1000000 then
      if s.charge.contexts.any (namesAbove a (some cls.toNat)) then s.not .barred
      else
        let x : Account := { s.account a with code := code.toNat, cls := cls.toNat, budget := budget.toNat, policy := p }
        let s1 := ((s.setAccount a x).judgeBudget a).askArbiter
        s1.okay (le 1 (flag (s1.account a).atBudget))
    else s.not .badArg
  | _, _ => s.not .badArg

def State.cmdAccountClear (account : BitVec 8) : State → Done :=
  State.inRunning fun s =>
    match indexBelow 32 account.toNat with
    | some a =>
      if s.charge.contexts.any (namesAbove a none) || s.charge.recordQueue.any (fun r => decide (r.account = a)) then
        s.not .busy
      else (((s.setAccount a { s.account a with charged := 0, calls := 0 }).judgeBudget a).askArbiter).okay []
    | none => s.not .badArg

/-- The records written and not yet released. -/
def ChargeUnit.written (c : ChargeUnit) : Nat := (c.writeIndex - c.readIndex).toNat

/-- The result data of LOG RELEASE. -/
def State.okLog (s : State) : Done := s.okay (le 2 s.charge.readIndex.toNat ++ le 2 s.charge.written)

def State.cmdLogRelease (count : BitVec 16) : State → Done :=
  State.inRunning fun s =>
    if s.charge.written < count.toNat then s.not .badArg
    else if count = 0 then s.okLog
    else
      ((({ s with charge := { s.charge with readIndex := s.charge.readIndex + count } } : State).rewrite .counters).askArbiter).okLog

/-! ## LINE SETUP (R117) -/

def State.cmdLineSetup (line : BitVec 8) (f : SettingsField) (s : State) : Done :=
  match indexBelow 4 line.toNat, settingsOperand f with
  | some n, some x =>
    let s1 := s.modRecord n fun r => { r with pending := some x }
    match (s.lineUnit n).record.state with
    | .idle => (s1.applyIdle n).okay [1]
    | .disabled => (s1.applyDisabled n).okay [1]
    | _ => s1.okay [0]
  | _, _ => s.not .badArg

end Sys2Proof.Machine
end

