-- ==== Sys2Proof/Machine/CommandsDocuments.lean ====
section
/-! DEFINITION. The commands of the dispatch unit (spec/06_documents_and_the_dispatch_queue.md): documents, destinations,
release, cancelling, deletion, the print queue. -/

namespace Sys2Proof.Machine

/-! ## DOC CREATE, DEST ADD, DOC RELEASE (R100, R103, R104) -/

/-- The document record that DOC CREATE gives, if its arguments are in range. -/
def docOperand (kind priority account retryInterval attemptLimit localCopy copies : BitVec 8) (notBefore : ClockField) :
    Option DocRecord := do
  let k ← kindField kind
  let p ← priorityField priority
  let a ← indexBelow 32 account.toNat
  let interval ← between 1 60 (orDefault 5 retryInterval)
  let limit ← between 1 9 (orDefault 3 attemptLimit)
  let n ← between 1 9 copies.toNat
  let early ← clockOperand notBefore
  let printed ← flagField localCopy
  if printed = true ∧ k ≠ .out then none
  else
    return { DocRecord.empty with
      inUse := true, kind := k, priority := p, account := a, notBefore := early, retryInterval := interval,
      attemptLimit := limit, localCopy := printed, copies := n, building := true,
      obligation := if k = .copy ∨ printed = true then .pending else .none }

def State.cmdDocCreate (kind priority account retryInterval attemptLimit localCopy copies : BitVec 8)
    (notBefore : ClockField) : State → Done :=
  State.inRunning fun s =>
    match docOperand kind priority account retryInterval attemptLimit localCopy copies notBefore with
    | none => s.not .badArg
    | some r =>
      match s.freeDocEntry with
      | none => s.not .noSpace
      | some d => (s.createDoc d r).okay (le 1 d.val)

/-- The lowest free pool entry. -/
def State.freeDestEntry (s : State) : Option (Fin 512) := s.dispatch.dests.first (fun r => !r.inUse)

/-- A destination is added (R103). -/
def State.addDest (t : Fin 512) (d : Fin 64) (number : List DialChar) (s : State) : State :=
  ((s.setDest t { DestRecord.empty with inUse := true, document := d, number := number }).setDoc d
    { s.doc d with dests := (s.doc d).dests ++ [t] }).askArbiter

def State.cmdDestAdd (document : BitVec 8) (number : NumberField) : State → Done :=
  State.inRunning fun s =>
    match indexBelow 64 document.toNat, numberOperand number with
    | some d, some l =>
      let r := s.doc d
      if r.inUse = false then s.not .notFound
      else if r.kind = .copy ∨ r.complete = true then s.not .badArg
      else if r.kind = .incoming ∧ r.building = true then s.not .busy
      else if Config.documentDestinations ≤ r.dests.length then s.not .noSpace
      else
        match s.freeDestEntry with
        | none => s.not .noSpace
        | some t => (s.addDest t d l).okay (le 2 t.val ++ le 1 (r.dests.length + 1))
    | _, _ => s.not .badArg

/-- A document is released (R104). A count past 32 bits has no stated value (log entry 9). -/
def State.release (d : Fin 64) (s : State) : State :=
  let order := s.dispatch.releaseCounter
  let bumped := s.bump32 order
  let s1 := bumped.2.setDoc d { bumped.2.doc d with released := true, releaseOrder := order }
  ({ s1 with dispatch := { s1.dispatch with releaseCounter := bumped.1 } } : State).askArbiter

/-- The result data of DOC RELEASE. -/
def State.okOrder (d : Fin 64) (s : State) : Done := s.okay (le 4 (s.doc d).releaseOrder.toNat)

def State.cmdDocRelease (document : BitVec 8) : State → Done :=
  State.inRunning fun s =>
    match indexBelow 64 document.toNat with
    | none => s.not .badArg
    | some d =>
      let r := s.doc d
      if r.inUse = false then s.not .notFound
      else if r.kind = .copy ∨ r.complete = true then s.not .badArg
      else if r.kind = .incoming ∧ r.building = true then s.not .busy
      else if r.released then s.okOrder d
      else (s.release d).okOrder d

/-! ## Cancelling (R112, R113) -/

/-- A destination on a call is marked and its call ended, or its stream drained (R112, R150). -/
def State.cancelOnCall (t : Fin 512) (s : State) : State :=
  let r := s.dest t
  let s1 := s.setDest t { r with cancelRequested := true }
  match r.line with
  | none => s1
  | some n => if r.state = .dialling then s1.orderClear n .cancel else s1.drain n

/-- A cancellation reaches a destination, by its state (R112). -/
def State.cancelDest (s : State) (t : Fin 512) : State :=
  let r := s.dest t
  match r.state with
  | .pending => s.becomeFinal t r .cancelled
  | .waiting => (s.setRetryTimer t none).becomeFinal t r .cancelled
  | .dialling | .sending => s.cancelOnCall t
  | .done | .failed | .cancelled => s

/-- Is a document being written by the scan stream or by a receive stream (R112)? -/
def State.beingWritten (d : Fin 64) (s : State) : Bool :=
  (decide (s.scan.state ≠ .closed) && decide (s.scan.document = d)) ||
    s.streams.any fun x =>
      decide (x.direction = .receive) && decide (x.state ≠ .closed) && decide (x.callDoc = some d)

/-- DOC CANCEL's treatment of the print obligation (R112, R169). -/
def State.cancelPrint (d : Fin 64) (s : State) : State :=
  let done (s : State) : State := s.setDoc d { s.doc d with obligation := .done }
  match (s.doc d).obligation with
  | .none | .done => s
  | .pending => done s
  | .queued => (done s).leavePrintQueue d
  | .printing => ((done s).leavePrintQueue d).printDocEnd

/-- DOC CANCEL (R112), its destinations in the order of the document's list (log entry 58). A document that is building and
that no stream writes goes on building, so it is not COMPLETE within the command (R105, log entry 53). -/
def State.cmdDocCancel (document : BitVec 8) : State → Done :=
  State.inRunning fun s =>
    match indexBelow 64 document.toNat with
    | none => s.not .badArg
    | some d =>
      let r := s.doc d
      if r.inUse = false then s.not .notFound
      else if s.beingWritten d then s.not .busy
      else if r.complete then s.okay []
      else (((r.dests.foldl State.cancelDest s).cancelPrint d).checkComplete d).okay []

def State.cmdDestCancel (destination : BitVec 16) : State → Done :=
  State.inRunning fun s =>
    match indexBelow 512 destination.toNat with
    | none => s.not .badArg
    | some t =>
      if (s.dest t).inUse = false then s.not .notFound
      else ((s.cancelDest t).checkComplete (s.dest t).document).okay []

/-! ## DOC DELETE and PRINT FIRST (R106, R115) -/

/-- A pool entry is freed. -/
def State.freeDest (s : State) (t : Fin 512) : State := (s.setDest t DestRecord.empty).setRetryTimer t none

def State.cmdDocDelete (document : BitVec 8) : State → Done :=
  State.inRunning fun s =>
    match indexBelow 64 document.toNat with
    | none => s.not .badArg
    | some d =>
      let r := s.doc d
      if r.inUse = false then s.not .notFound
      else if r.complete = false then s.not .busy
      else ((((r.dests.foldl State.freeDest s)).setDoc d DocRecord.empty).setPageList d []).okay []

/-- The print queue with a document moved to its place (R115). -/
def State.printFirst (d : Fin 64) (s : State) : State :=
  let others := s.dispatch.printQueue.filter (· ≠ d)
  match others with
  | [] => s.setPrintQueue [d]
  | h :: rest =>
    if (s.doc h).obligation = .printing ∧ s.dispatch.printQueue.head? = some h then s.setPrintQueue (h :: d :: rest)
    else s.setPrintQueue (d :: h :: rest)

def State.cmdPrintFirst (document : BitVec 8) : State → Done :=
  State.inRunning fun s =>
    match indexBelow 64 document.toNat with
    | none => s.not .badArg
    | some d =>
      if d ∉ s.dispatch.printQueue then s.not .notFound
      else if (s.doc d).obligation = .printing then s.okay []
      else (s.printFirst d).okay []

end Sys2Proof.Machine
end

