-- ==== Sys2Proof/Machine/CommandsStreams.lean ====
section
/-! DEFINITION. The commands of the streams and of the line units: scanning (chapter 5), printing (chapter 9), sending and
receiving (chapter 8), answering and ending calls (chapter 7). -/

namespace Sys2Proof.Machine

/-! ## Scanning (R82, R89, R93, R94) -/

/-- The result data that holds the trailing byte count. -/
def State.okTrailing (s : State) : Done := s.okay (le 2 s.scan.trailing)

/-- The scan stream opened (R82). -/
def State.openScan (d : Fin 64) (w : Width) (k : Nat) (s : State) : State :=
  s.setScan { ScanStream.powerOn with state := .open, document := d, width := w, k := k }

def State.cmdScanOpen (document width k : BitVec 8) : State → Done :=
  State.inRunning fun s =>
    match indexBelow 64 document.toNat, widthField width, kField k with
    | some d, some w, some kk =>
      let r := s.doc d
      if r.inUse = false then s.not .notFound
      else if r.kind = .incoming ∨ r.building = false then s.not .badArg
      else if s.scan.state ≠ .closed then s.not .busy
      else (s.openScan d w kk).okay []
    | _, _, _ => s.not .badArg

def State.cmdPageCut : State → Done :=
  State.inRunning fun s =>
    match s.scan.state with
    | .closed | .closing => s.not .busy
    | .starved | .cutting => s.okTrailing
    | .open =>
      if (s.slot .scan).page = none then s.okTrailing
      else
        let s1 := s.beginCut
        s1.okTrailing

def State.cmdScanResume : State → Done :=
  State.inRunning fun s =>
    if s.scan.state ≠ .starved then s.not .busy
    else if s.scan.cause = .pages then s.not .badArg
    else if s.store.reserve < s.freeBlocks ∧ s.freePageEntry.isSome = true then
      (s.setScan { s.scan with state := .open, cause := .none }).okay []
    else s.not .busy

def State.cmdScanClose : State → Done :=
  State.inRunning fun s =>
    match s.scan.state with
    | .closed | .closing => s.not .busy
    | .open | .cutting | .starved =>
      let s1 := s.beginClose
      s1.okTrailing

/-! ## Printing (R161, R166, R168) -/

/-- The print stream opened on a document (R161). -/
def State.openPrint (d : Fin 64) (s : State) : State :=
  ((s.setDoc d { s.doc d with obligation := .printing }).setPrint
    { s.print with
      state := .open, document := d, copy := 1, position := 1, dropped := 0, expiries := 0, codeErrors := 0 }).printStartPage

def State.cmdPrintOpen : State → Done :=
  State.inRunning fun s =>
    if s.print.state ≠ .closed then s.not .busy
    else
      match s.dispatch.printQueue with
      | [] => s.not .notFound
      | d :: _ => (s.openPrint d).okay (le 1 d.val ++ le 1 (s.doc d).copies ++ le 1 (s.pageList d).length)

/-- The document has been printed (R167), the steps in their order. -/
def State.printed (s : State) : State :=
  let d := s.print.document
  ((((s.printEnd).setDoc d { s.doc d with obligation := .done }).leavePrintQueue d).raise .stream).checkComplete d

/-- The result data of PRINT NEXT (R166, R201); with DOC-END, the copy and page position as they stood (log entry 51). -/
def State.okPosition (docEnd : Bool) (s : State) : Done :=
  s.okay (le 1 s.print.copy ++ le 1 s.print.position ++ le 1 (flag docEnd))

def State.cmdPrintNext : State → Done :=
  State.inRunning fun s =>
    let x := s.print
    match x.state with
    | .closed | .open | .docEnd => s.not .busy
    | .pageEnd =>
      if x.position < (s.pageList x.document).length then
        ((s.setPrint { x with position := x.position + 1 }).printStartPage).okPosition false
      else if x.copy < (s.doc x.document).copies then
        ((s.setPrint { x with copy := x.copy + 1, position := 1 }).printStartPage).okPosition false
      else s.printed.okPosition true

/-- Printing is abandoned before DOC-END: the document is QUEUED again (R168, R171). -/
def State.printAbandoned (s : State) : State :=
  let d := s.print.document
  if s.print.state = .open ∨ s.print.state = .pageEnd then s.setDoc d { s.doc d with obligation := .queued } else s

/-- The print stream closes (R168, R171). -/
def State.closePrint (s : State) : State :=
  let s1 := ((s.closeHeld 1).printAbandoned).printDiscard
  (s1.setPrint { s1.print with state := .closed, waiting := false }).activatePending 1

def State.cmdPrintClose : State → Done :=
  State.inRunning fun s => if s.print.state = .closed then s.not .busy else s.closePrint.okay []

/-! ## Sending (R142, R148) -/

/-- The send stream opened on its line's destination (R142). -/
def State.openSend (n : Fin 4) (t : Fin 512) (takesRepeat : Bool) (least : Nat) (s : State) : State :=
  ((s.modStream n fun x =>
    { x with
      direction := .send, takesRepeat := takesRepeat, minLine := least, dropped := 0, expiries := 0, fillCount := 0,
      codeErrors := 0 }).setDest t { s.dest t with state := .sending }).seekPage n

/-- Is a line CONNECTED in a call direction? -/
def State.connected (n : Fin 4) (direction : CallDirection) (s : State) : Bool :=
  decide ((s.lineUnit n).record.state = .connected) && decide ((s.lineUnit n).record.callDirection = direction)

def State.cmdSendOpen (line takesRepeat minLineBytes : BitVec 8) : State → Done :=
  State.inRunning fun s =>
    match indexBelow 4 line.toNat, flagField takesRepeat, between 0 40 minLineBytes.toNat with
    | some n, some f, some least =>
      if s.connected n .out = false ∨ (s.stream n).state ≠ .closed then s.not .busy
      else
        match (s.lineUnit n).record.destination with
        | none => s.not .busy
        | some t =>
          if (s.dest t).cancelRequested then s.not .busy
          else (s.openSend n t f least).okay (le 1 ((s.dest t).confirmed + 1))
    | _, _, _ => s.not .badArg

/-- A page is confirmed by the far end (R110, R193). -/
def State.confirmPage (n : Fin 4) (t : Fin 512) (s : State) : State :=
  (s.setDest t { s.dest t with confirmed := (s.dest t).confirmed + 1, pageRetries := 0 }).modContext n fun c =>
    { c with pagesConfirmed := c.pagesConfirmed + 1 }

/-- The page retry count gains 1; past its top the manual states no value (log entry 9). -/
def State.bumpRetries (x : BitVec 8) (s : State) : BitVec 8 × State :=
  if x = 255 then ((Config.freeWord s.freeCount).truncate 8, { s with freeCount := s.freeCount + 1 }) else (x + 1, s)

/-- The send stream is STALLED (R148). -/
def State.stallSend (n : Fin 4) (cause : StallCause) (s : State) : State :=
  ((s.discardJob (.line n)).modStream n fun x =>
    { x with state := .stalled, stall := cause, readAhead := [], ready := [], check := none }).raise .stream

/-- PAGE RESULT RETRY in PAGE-END (R148). -/
def State.retryPage (n : Fin 4) (t : Fin 512) (s : State) : State :=
  let bumped := s.bumpRetries (s.dest t).pageRetries
  let s1 := bumped.2.setDest t { bumped.2.dest t with pageRetries := bumped.1 }
  if bumped.1.toNat ≤ 3 then s1.startServing n (s.stream n).page else s1.stallSend n .failed

/-- The drain has ended, and STREAM is raised (R148, R159). -/
def State.drainDone (n : Fin 4) (s : State) : State := (s.modStream n fun x => { x with drain := .done }).raise .stream

/-- The verdict on a served page, by the stream's state; absent where R148 answers BUSY. -/
def State.takeVerdict (n : Fin 4) (t : Fin 512) (v : Verdict) (s : State) : Option State :=
  match (s.stream n).state, v with
  | .pageEnd, .ok => some ((s.confirmPage n t).seekPage n)
  | .pageEnd, .retry => some (s.retryPage n t)
  | .pageEnd, .bad => some (s.stallSend n .bad)
  | .draining, _ =>
    if (s.stream n).drain = .ended then some ((if v = .ok then s.confirmPage n t else s).drainDone n) else none
  | _, _ => none

def State.cmdPageResult (line verdict : BitVec 8) : State → Done :=
  State.inRunning fun s =>
    match indexBelow 4 line.toNat, verdictField verdict with
    | some n, some v =>
      match (s.lineUnit n).record.destination with
      | none => s.not .busy
      | some t =>
        if (s.stream n).direction ≠ .send then s.not .busy
        else
          match s.takeVerdict n t v with
          | some s1 => s1.okay (le 1 (s1.dest t).confirmed)
          | none => s.not .busy
    | _, _ => s.not .badArg

/-! ## Receiving (R151, R156) -/

/-- The receive stream opened for a call document (R151). The bytes of a page of the session before that is still being closed
stay in the coded queue and count there (R157, log entry 59). -/
def State.openReceive (n : Fin 4) (d : Fin 64) (w : Width) (k : Nat) (s : State) : State :=
  s.modStream n fun x =>
    { x with
      direction := .receive, state := .open, stall := .none, callDoc := some d, document := d, width := w, k := k,
      dropped := 0, expiries := 0, badLines := 0, collecting := Collecting.empty, waiting := none, carried := [],
      checkBuffer := none, pageEnd := false, badRun := 0, badRunFlag := false }

/-- The dispatch unit grants a call its IN document, which its context then names (R101, R188). -/
def State.grantDocument (n : Fin 4) (d : Fin 64) (s : State) : State :=
  (s.createDoc d DocRecord.newIncoming).modContext n fun c => { c with document := some d }

def State.cmdReceiveOpen (line width k : BitVec 8) : State → Done :=
  State.inRunning fun s =>
    match indexBelow 4 line.toNat, widthField width, kField k with
    | some n, some w, some kk =>
      if s.connected n .incoming = false ∨ (s.stream n).state ≠ .closed then s.not .busy
      else
        match (s.stream n).callDoc with
        | some d => (s.openReceive n d w kk).okay (le 1 d.val)
        | none =>
          match s.freeDocEntry with
          | none => s.not .noSpace
          | some d => ((s.grantDocument n d).openReceive n d w kk).okay (le 1 d.val)
    | _, _, _ => s.not .badArg

def State.cmdStreamClose (line : BitVec 8) : State → Done :=
  State.inRunning fun s =>
    match indexBelow 4 line.toNat with
    | none => s.not .badArg
    | some n => if (s.stream n).state = .closed then s.not .busy else (s.closeStream n).okay []

/-! ## Calls (R124, R132, R135) -/

/-- CALL ANSWER's refusal: the line keeps ringing, its answer refusal shows the reason (R124). -/
def State.answerRefused (n : Fin 4) (why : AnswerRefusal) (code : ResultCode) (s : State) : Done :=
  (s.modRecord n fun r => { r with answerRefusal := why }).not code

/-- CALL ANSWER (R124). BADARG comes before the BUSY of R137 and R139 (log entry 49). -/
def State.cmdCallAnswer (line : BitVec 8) : State → Done :=
  State.inRunning fun s =>
    match indexBelow 4 line.toNat with
    | none => s.not .badArg
    | some n =>
      let r := (s.lineUnit n).record
      if r.active.rings ≠ 0 then s.not .badArg
      else if r.state ≠ .ringing then s.not .busy
      else
        match s.answerLacks with
        | .entry => s.answerRefused n .entry .noSpace
        | .log => s.answerRefused n .log .noLog
        | .none => (s.answer n).okay []

def State.cmdAnswerSeen (line : BitVec 8) : State → Done :=
  State.inRunning fun s =>
    match indexBelow 4 line.toNat with
    | none => s.not .badArg
    | some n =>
      match (s.lineUnit n).record.state with
      | .awaiting => (s.callAnswered n .host).okay []
      | .connected => s.okay []
      | _ => s.not .busy

/-- The cause a CALL END takes: the forced cause in place of the host's (R135, R147). -/
def State.causeTaken (n : Fin 4) (given : Cause) (s : State) : Cause := if (s.stream n).forced then .damaged else given

/-- CALL END (R135). BADARG comes before the BUSY of R137 and R139 (log entry 49). -/
def State.cmdCallEnd (line cause : BitVec 8) : State → Done :=
  State.inRunning fun s =>
    match indexBelow 4 line.toNat, callEndCause cause with
    | some n, some given =>
      if (s.lineUnit n).record.state.hasCall then
        (s.clearOrder n (s.causeTaken n given)).okay (le 1 (s.causeTaken n given).code)
      else s.not .busy
    | _, _ => s.not .badArg

end Sys2Proof.Machine
end

