-- ==== Sys2Proof/Machine/Control.lean ====
section
/-! DEFINITION. The command ring (section 2.3): taking tails and commands, executing a command, writing its result; and the
notice mask (R22). -/

namespace Sys2Proof.Machine

/-- A ring command's execution at its owner (R28); an entry that is no ring command is unknown. -/
def State.ringCommand (c : Instr) (s : State) : Done :=
  match c with
  | .storeSetup base count log reserve => s.cmdStoreSetup base count log reserve
  | .timeSet day dayOfWeek second => s.cmdTimeSet day dayOfWeek second
  | .periodSet entry daySet period start => s.cmdPeriodSet entry daySet period start
  | .tariffSet band v0 v1 v2 v3 => s.cmdTariffSet band v0 v1 v2 v3
  | .prefixSet entry count cls band digits => s.cmdPrefixSet entry count cls band digits
  | .accountSet account cls policy code budget => s.cmdAccountSet account cls policy code budget
  | .accountClear account => State.cmdAccountClear account s
  | .lineSetup line f => s.cmdLineSetup line f
  | .docCreate kind priority account interval limit localCopy copies notBefore =>
    State.cmdDocCreate kind priority account interval limit localCopy copies notBefore s
  | .destAdd document number => State.cmdDestAdd document number s
  | .docRelease document => State.cmdDocRelease document s
  | .docCancel document => State.cmdDocCancel document s
  | .destCancel destination => State.cmdDestCancel destination s
  | .docDelete document => State.cmdDocDelete document s
  | .printFirst document => State.cmdPrintFirst document s
  | .scanOpen document width k => State.cmdScanOpen document width k s
  | .pageCut => State.cmdPageCut s
  | .scanResume => State.cmdScanResume s
  | .scanClose => State.cmdScanClose s
  | .printOpen => State.cmdPrintOpen s
  | .printNext => State.cmdPrintNext s
  | .printClose => State.cmdPrintClose s
  | .sendOpen line takesRepeat least => State.cmdSendOpen line takesRepeat least s
  | .pageResult line verdict => State.cmdPageResult line verdict s
  | .receiveOpen line width k => State.cmdReceiveOpen line width k s
  | .streamClose line => State.cmdStreamClose line s
  | .callAnswer line => State.cmdCallAnswer line s
  | .answerSeen line => State.cmdAnswerSeen line s
  | .callEnd line cause => State.cmdCallEnd line cause s
  | .logRelease count => State.cmdLogRelease count s
  | _ => s.cmdUnknown

/-- The outcome of the command executed last. -/
def State.noteResult (r : CommandResult) (s : State) : State := { s with ctl := { s.ctl with lastResult := some r } }

/-- A command is executed at its owner. In reset teardown none is taken (R40; log entry 4). -/
def State.runCommand (f : State → Done) (s : State) : State :=
  if s.ctl.teardown = none then (f s).state.noteResult (f s).result else s

/-- The next command is taken when R27's conditions hold: its slot read is queued. -/
def State.takeCommand (s : State) : State :=
  let waiting := (s.ctl.takenTail - s.ctl.head).toNat
  if s.ctl.ring = .ready ∧ s.ctl.inProgress = none ∧ 1 ≤ waiting ∧ waiting ≤ 32 ∧ s.ctl.teardown = none then
    ({ s with ctl := { s.ctl with inProgress := some { count := s.ctl.head, stage := .reading } } } : State).enqueue .slotRead
  else s

/-- A ring error (R26); the counters join the queue before the status words (log entry 46). -/
def State.ringError (s : State) : State :=
  (({ s with ctl := { s.ctl with ring := .halted, ringErrors := saturate 65535 s.ctl.ringErrors } } : State).rewrite
    .counters).raise .command

/-- A written tail is judged (R25). -/
def State.takeTail (v : Nat) (s : State) : State :=
  if v < 64 ∧ (BitVec.ofNat 6 v - s.ctl.head).toNat ≤ 32 then
    ({ s with ctl := { s.ctl with takenTail := BitVec.ofNat 6 v, ring := .ready } } : State).takeCommand
  else s.ringError

/-- The tail read completes; in reset teardown the tail is not taken (R25, R42). -/
def State.tailReadDone (s : State) : State :=
  match s.path.port with
  | some p =>
    match p.kind with
    | .tailRead => if s.ctl.teardown = none then s.freePort.takeTail (leValue p.bytes) else s.freePort.controlDone
    | _ => s
  | none => s

/-- The mask read completes (R22). -/
def State.maskReadDone (s : State) : State :=
  match s.path.port with
  | some p =>
    match p.kind with
    | .maskRead =>
      let s1 := s.freePort.controlDone
      { s1 with ctl := { s1.ctl with mask := BitVec.ofNat 12 (leValue p.bytes) } }
    | _ => s
  | none => s

/-- The command in progress has been executed: its result write is queued, after the rewrites it caused (R27, R36). -/
def State.queueResult (count : BitVec 6) (r : CommandResult) (s : State) : State :=
  (({ s with ctl := { s.ctl with inProgress := some { count := count, stage := .executed } } } : State).noteResult r).enqueue
    (.resultWrite (count.toNat % 32) (resultBytes count r))

/-- The command read from a slot is judged and executed (R27, R28). -/
def State.executeSlot (bytes : List Byte) (s : State) : State :=
  match s.ctl.inProgress with
  | some c =>
    let d := s.ringCommand (slotCommand bytes)
    (d.state.runDueArbiter).queueResult c.count d.result
  | none => s

/-- The slot read completes; one that reset teardown found on the port executes nothing (R40). -/
def State.slotReadDone (s : State) : State :=
  match s.path.port with
  | some p =>
    match p.kind with
    | .slotRead live => if live then s.freePort.executeSlot p.bytes else s.freePort.controlDone
    | _ => s
  | none => s

/-- A command completes in the ring: the head advances, COMMAND is raised, the next command is taken (R27). -/
def State.completeCommand (s : State) : State :=
  match s.ctl.inProgress with
  | some _ =>
    let s1 : State := { s with ctl := { s.ctl with head := s.ctl.head + 1, inProgress := none } }
    ((s1.raise .command).rewrite .statusWords).takeCommand
  | none => s

/-- The result write completes; after the start of reset teardown it advances nothing (R40). -/
def State.resultWriteDone (s : State) : State :=
  match s.path.port with
  | some p =>
    match p.kind with
    | .resultWrite => ((s.portWritten p).controlDone).completeCommand
    | _ => s
  | none => s

end Sys2Proof.Machine
end

