-- ==== Sys2Proof/Machine/Teardown.lean ====
section
/-! DEFINITION. Reset teardown (R20, R40, R41, R81, R97, R116, R141, R160, R171, R198) and the work every step ends with:
the arbiters, the streams and the memory port go on with what the event left them. -/

namespace Sys2Proof.Machine

/-! ## The start of teardown -/

/-- A slot read that has the port executes nothing (R40, step 1). -/
def State.dropSlotRead (s : State) : State :=
  match s.path.port with
  | some p =>
    if p.kind = .slotRead true then { s with path := { s.path with port := some { p with kind := .slotRead false } } } else s
  | none => s

/-- The control unit at the start (R40, step 1). -/
def State.stopCommands (s : State) : State :=
  ({ s with ctl := { s.ctl with
      teardown := some .storeWork, inProgress := none, queue := s.ctl.queue.filter (· ≠ .slotRead) } } : State).dropSlotRead

/-- The streams' store writes that are queued are discarded (R20); what of their bytes teardown stores is issued anew (R81). -/
def State.dropStoreWrites (s : State) : State :=
  { s with path := { s.path with storeWrites := Table.replicate 5 none } }

/-- The scan stream closes in teardown, from whatever state it is in (R97). -/
def State.resetScan (s : State) : State :=
  let s1 := (s.closeHeld 0).idleCtx .scan
  s1.setScan { s1.scan.emptied with state := .closed, cause := .none }

/-- The print stream closes in teardown (R171). -/
def State.resetPrint (s : State) : State := if s.print.state = .closed then s else s.closePrint

/-- A line stream closes in teardown (R160); its page is the store manager's work (R81). -/
def State.resetStream (s : State) (n : Fin 4) : State :=
  if (s.stream n).state = .closed then s else (s.endTraffic n).enterClosed n

/-- A page and its writer placed by page index. -/
def insertByPage (x : Fin 512 × Writer) : List (Fin 512 × Writer) → List (Fin 512 × Writer)
  | [] => [x]
  | y :: rest => if x.1.val < y.1.val then x :: y :: rest else y :: insertByPage x rest

/-- The pages being written, in page index order, with their writers. A page whose close waits for another's (log entry 14)
is not among them: it counts with the closing pages. -/
def State.openPages (s : State) : List (Fin 512 × Writer) :=
  (allWriters.filterMap fun w => (s.slot w).page.map fun h => (h.page, w)).foldr insertByPage []

/-- The store manager's teardown work on one page being written (R81). -/
def State.resetPage (s : State) (x : Fin 512 × Writer) : State :=
  match x.2 with
  | .scan => if (s.page x.1).lineCount = 0 then s.freePage .scan else s.closePage .scan { short := true }
  | .line n => s.freePage (.line n)

/-- A document still building stops building (R116). -/
def State.resetDoc (s : State) (d : Fin 64) : State :=
  if (s.doc d).inUse = true ∧ (s.doc d).building = true then s.endBuilding d else s

/-- Teardown starts (R20, R40). The lines that hold calls are cleared in the order 0 to 3, which gives their records' numbers
(log entry 56). -/
def State.startTeardown (s : State) : State :=
  let s1 := allWindows.foldl State.clearWindow s.stopCommands.dropStoreWrites
  let s2 := allLines.foldl State.resetStream s1.resetScan.resetPrint
  let s3 := s2.openPages.foldl State.resetPage s2
  allDocs.foldl State.resetDoc (allLines.foldl State.resetLine s3)

/-- The reset input is asserted; a teardown in progress goes on (R40, R41). -/
def State.resetAsserted (s : State) : State :=
  let s1 : State := { s with resetInput := true }
  if s.ctl.teardown = none then s1.startTeardown else s1

/-- The reset input is released (R41). -/
def State.resetReleased (s : State) : State := { s with resetInput := false }

/-! ## Its end -/

/-- Is no page still being closed? -/
def State.storeQuiet (s : State) : Bool := !s.store.slots.any fun x => x.closing.isSome || x.writing.isSome

/-- The ring and the notices after the blocks' work, and the full rewrite (R40, steps 3 and 4). -/
def State.ringReset (s : State) : State :=
  let s1 : State := { s with ctl := { s.ctl with head := 0, takenTail := 0, ring := .ready } }
  ((s1.clearNotices (BitVec.allOnes 12)).rewrite .statusWords).fullRewrite

/-- The requests of the control unit queued or on the port. -/
def State.controlLeft (s : State) : Nat := s.ctl.queue.length + if s.onPort .control then 1 else 0

/-- Steps 3 and 4 of R40. What the mirror write queue holds then, the entries from before among it, is emptied by completing
it (R38), and teardown waits for it. -/
def State.teardownRewrite (s : State) : State :=
  let s1 := s.ringReset
  { s1 with ctl := { s1.ctl with teardown := some (.rewriting s1.controlLeft) } }

/-- Is it a rewrite of a mirror? -/
def QueueEntry.isRewrite : QueueEntry → Bool
  | .record _ => true
  | .slotRead | .resultWrite _ _ | .tailRead | .maskRead => false

/-- Is it a mirror write? -/
def PortKind.isMirrorWrite : PortKind → Bool
  | .recordWrite _ => true
  | _ => false

/-- Is no rewrite of a mirror queued or on the port? -/
def State.mirrorsWritten (s : State) : Bool :=
  !s.ctl.queue.any QueueEntry.isRewrite && !s.path.port.any fun p => p.kind.isMirrorWrite

/-- RESET is raised and teardown is over (R40, step 5); the arbiter runs (R107). A flag raised since step 3 cleared them all
stays pending beside RESET (log entry 57). -/
def State.endTeardown (s : State) : State :=
  (({ s with ctl := { s.ctl with teardown := none } } : State).raise .reset).askArbiter

/-- Teardown goes on when what it waits for has come (R40, R41). The line arbiter's run that the blocks' work asked for comes
before the flags are cleared (R107, R116). RESET waits for the charge record writes and for the full rewrite's entries, as
R40's step 5 names them, and for every rewrite queued since, so that every mirror is in memory before it (log entry 52). -/
def State.teardownAdvance (s : State) : State :=
  match s.ctl.teardown with
  | none => s
  | some .storeWork => if s.storeQuiet then s.runDueArbiter.teardownRewrite else s
  | some (.rewriting left) =>
    if left = 0 ∧ s.charge.recordQueue = [] ∧ s.mirrorsWritten = true ∧ s.resetInput = false then s.endTeardown else s

/-! ## The end of a step -/

/-- The streams go on with what they hold. -/
def State.serviceStreams (s : State) : State :=
  let s1 := (allLines.foldl State.receiveService s).retryHeld
  (allLines.foldl State.sendService s1.scanService.printService).arbitrateCoder

/-- What every step ends with: teardown, the line arbiter (R107), the streams and the coder arbiter (R58), and the memory
port (R15), whose grant may let the streams go on. -/
def State.settleStep (s : State) : State :=
  let s1 := (s.teardownAdvance.runDueArbiter).serviceStreams
  ((s1.issueRequests).grantPort).serviceStreams.issueRequests

end Sys2Proof.Machine
end

