-- ==== Sys2Proof/Machine/Resets.lean ====
section
/-! DEFINITION. The meanings of the reset rows. -/

namespace Sys2Proof.Machine

/-- A command whose effect on the part is a function of it: the effect, and what every step ends with. -/
def State.after (f : State → State) (s : State) : Host.Outcome State Fault Refusal := .next (f s).settleStep

/-- POWER_ON: the straps are sampled, every record takes its power-on value, the full rewrite is queued (R19, R37, R39). Page
memory, the reset pin and the waiting commands stand as they are. -/
def execPowerOn (straps : BitVec 4) (s : State) :
    Host.Outcome State Fault Refusal :=
  s.after fun s => { State.powerOn straps s.mem s.resetInput with pending := s.pending, freeCount := s.freeCount }

/-- RESET_INPUT_ASSERT (R40, R41). -/
def execResetInputAssert (s : State) : Host.Outcome State Fault Refusal := s.after State.resetAsserted

/-- RESET_INPUT_RELEASE (R41). -/
def execResetInputRelease (s : State) : Host.Outcome State Fault Refusal := s.after State.resetReleased

end Sys2Proof.Machine
end

