-- ==== Sys2Proof/Machine/Completions.lean ====
section
/-! DEFINITION. The meanings of the completions: of the memory port's requests (R14) and of the coder's jobs (R52). -/

namespace Sys2Proof.Machine

/-- The engine completes a job of a kind: a live one's result reaches its stream, a discarded one's nobody (R52, R59). -/
def State.jobCompleted (kind : JobKind) (f : StreamId → State → State) (s : State) : State :=
  match s.coder.engine with
  | some j => if j.kind = kind then (if j.live then f j.stream s.freeEngine else s.freeEngine) else s
  | none => s

def State.encodeCompleted : State → State := State.jobCompleted .encode fun _ s => s.encodeDone

def State.decodeCompleted : State → State := State.jobCompleted .decode fun _ s => s.decodeDone

/-- A stream's line, where the job is a line stream's. -/
def StreamId.onLine (f : Fin 4 → State → State) (i : StreamId) (s : State) : State :=
  match i with
  | .line n => f n s
  | .scan | .print => s

def State.checkCompleted : State → State := State.jobCompleted .check (StreamId.onLine State.placeChecked)

def State.expandCompleted : State → State := State.jobCompleted .expand (StreamId.onLine State.expandDone)

/-- MASK_READ_COMPLETE (R22). -/
def execMaskReadComplete (s : State) : Host.Outcome State Fault Refusal := s.after State.maskReadDone

/-- TAIL_READ_COMPLETE (R25, R26). -/
def execTailReadComplete (s : State) : Host.Outcome State Fault Refusal := s.after State.tailReadDone

/-- STORE_WRITE_COMPLETE (R72, R74). -/
def execStoreWriteComplete (s : State) : Host.Outcome State Fault Refusal := s.after State.storeWriteDone

/-- STORE_READ_COMPLETE (R18, R144, R163). -/
def execStoreReadComplete (s : State) : Host.Outcome State Fault Refusal := s.after State.storeReadDone

/-- MIRROR_WRITE_COMPLETE (R35). -/
def execMirrorWriteComplete (s : State) : Host.Outcome State Fault Refusal := s.after State.mirrorWriteDone

/-- SLOT_READ_COMPLETE (R27, R28). -/
def execSlotReadComplete (s : State) : Host.Outcome State Fault Refusal := s.after State.slotReadDone

/-- RESULT_WRITE_COMPLETE (R27). -/
def execResultWriteComplete (s : State) : Host.Outcome State Fault Refusal := s.after State.resultWriteDone

/-- CHARGE_RECORD_WRITE_COMPLETE (R195). -/
def execChargeRecordWriteComplete (s : State) : Host.Outcome State Fault Refusal := s.after State.chargeWriteDone

/-- ENCODE_COMPLETE (R54, R87). -/
def execEncodeComplete (s : State) : Host.Outcome State Fault Refusal := s.after State.encodeCompleted

/-- DECODE_COMPLETE (R56, R164). -/
def execDecodeComplete (s : State) : Host.Outcome State Fault Refusal := s.after State.decodeCompleted

/-- CHECK_COMPLETE (R55, R154). -/
def execCheckComplete (s : State) : Host.Outcome State Fault Refusal := s.after State.checkCompleted

/-- EXPAND_COMPLETE (R57, R146). -/
def execExpandComplete (s : State) : Host.Outcome State Fault Refusal := s.after State.expandCompleted

end Sys2Proof.Machine
end

