-- ==== Sys2Proof/Machine/HostAccesses.lean ====
section
/-! DEFINITION. The meanings of the host access rows. Each access is sorted by its address (R1), so a row's rule is reached by every
access of its class. -/

namespace Sys2Proof.Machine

/-- HOST_FORWARDED_ACCESS (R1, R12, R15). -/
def execHostForwardedAccess (a : HostAccess) (s : State) :
    Host.Outcome State Fault Refusal :=
  s.after (State.hostAccess a)

/-- HOLD_LIMIT_WRITE (R12). -/
def execHoldLimitWrite (w : HostWrite) (s : State) :
    Host.Outcome State Fault Refusal :=
  s.after (State.hostAccess (.write w))

/-- NOTICE_MASK_WRITE (R22). -/
def execNoticeMaskWrite (w : HostWrite) (s : State) :
    Host.Outcome State Fault Refusal :=
  s.after (State.hostAccess (.write w))

/-- WINDOW_TABLE_WRITE (R4, R5, R6). -/
def execWindowTableWrite (w : HostWrite) (s : State) :
    Host.Outcome State Fault Refusal :=
  s.after (State.hostAccess (.write w))

/-- TAIL_WORD_WRITE (R25). -/
def execTailWordWrite (w : HostWrite) (s : State) :
    Host.Outcome State Fault Refusal :=
  s.after (State.hostAccess (.write w))

/-- ACKNOWLEDGE_WRITE (R31). -/
def execAcknowledgeWrite (w : HostWrite) (s : State) :
    Host.Outcome State Fault Refusal :=
  s.after (State.hostAccess (.write w))

/-- CONTROL_AREA_DROP (R2). -/
def execControlAreaDrop (w : HostWrite) (s : State) :
    Host.Outcome State Fault Refusal :=
  s.after (State.hostAccess (.write w))

/-- STORE_LOG_WRITE_DROP (R3). -/
def execStoreLogWriteDrop (w : HostWrite) (s : State) :
    Host.Outcome State Fault Refusal :=
  s.after (State.hostAccess (.write w))

/-- CLOSED_WINDOW_ACCESS (R7). -/
def execClosedWindowAccess (a : HostAccess) (s : State) :
    Host.Outcome State Fault Refusal :=
  s.after (State.hostAccess a)

/-- WRONG_DIRECTION_WINDOW_ACCESS (R9). -/
def execWrongDirectionWindowAccess (a : HostAccess) (s : State) :
    Host.Outcome State Fault Refusal :=
  s.after (State.hostAccess a)

/-- SCAN_WINDOW_WRITE (R84, R85). -/
def execScanWindowWrite (w : HostWrite) (s : State) :
    Host.Outcome State Fault Refusal :=
  s.after (State.hostAccess (.write w))

/-- RECEIVE_WINDOW_WRITE (R152). -/
def execReceiveWindowWrite (w : HostWrite) (s : State) :
    Host.Outcome State Fault Refusal :=
  s.after (State.hostAccess (.write w))

/-- PRINT_WINDOW_READ (R165). -/
def execPrintWindowRead (r : HostRead) (s : State) :
    Host.Outcome State Fault Refusal :=
  s.after (State.hostAccess (.read r))

/-- SEND_WINDOW_READ (R145). -/
def execSendWindowRead (r : HostRead) (s : State) :
    Host.Outcome State Fault Refusal :=
  s.after (State.hostAccess (.read r))

/-- HOLD_EXPIRY (R13). -/
def execHoldExpiry (s : State) : Host.Outcome State Fault Refusal := s.after State.holdExpired

end Sys2Proof.Machine
end

