-- ==== Sys2Proof/Machine/LineEvents.lean ====
section
/-! DEFINITION. The meanings of the rows that timers and line signals raise. -/

namespace Sys2Proof.Machine

/-- A WAITING destination's retry timer expires (R111). -/
def State.retryEnded (t : Fin 512) (s : State) : State :=
  match s.dispatch.retryTimers.get t with
  | none => s
  | some due =>
    let s1 := (s.reach due).setRetryTimer t none
    if (s.dest t).state = .waiting then s1.becomePending t (s.dest t) else s1

/-- RETRY_TIMER_EXPIRY (R111). -/
def execRetryTimerExpiry (destination : Fin 512) (s : State) :
    Host.Outcome State Fault Refusal :=
  s.after (State.retryEnded destination)

/-- SECOND_EVENT (R172). -/
def execSecondEvent (s : State) : Host.Outcome State Fault Refusal := s.after State.secondPassed

/-- RING_BURST_COUNTED (R119, R122, R123, R128). -/
def execRingBurstCounted (line : Fin 4) (s : State) :
    Host.Outcome State Fault Refusal :=
  s.after (State.burstCounted line)

/-- RING_CYCLE_END (R119, R125). -/
def execRingCycleEnd (line : Fin 4) (s : State) :
    Host.Outcome State Fault Refusal :=
  s.after (State.ringCycleEnded line)

/-- METER_PULSE_JUDGED (R120). -/
def execMeterPulseJudged (line : Fin 4) (width : Nat) (s : State) :
    Host.Outcome State Fault Refusal :=
  s.after (State.pulseEnded line width)

/-- REVERSAL (R121, R131). -/
def execReversal (line : Fin 4) (s : State) : Host.Outcome State Fault Refusal := s.after (State.reversed line)

/-- LOOP_SENSE_PRESENT (R121, R127). -/
def execLoopSensePresent (line : Fin 4) (s : State) :
    Host.Outcome State Fault Refusal :=
  s.after (State.loopPresent line)

/-- LOOP_SENSE_ABSENT (R121). -/
def execLoopSenseAbsent (line : Fin 4) (s : State) :
    Host.Outcome State Fault Refusal :=
  s.after (State.loopAbsent line)

/-- LOOP_LOSS (R121, R134). -/
def execLoopLoss (line : Fin 4) (s : State) : Host.Outcome State Fault Refusal := s.after (State.loopLost line)

/-- LOOP_CHECK_EXPIRY (R127). -/
def execLoopCheckExpiry (line : Fin 4) (s : State) :
    Host.Outcome State Fault Refusal :=
  s.after (State.loopChecked line)

/-- SEIZE_DELAY_EXPIRY (R127). -/
def execSeizeDelayExpiry (line : Fin 4) (s : State) :
    Host.Outcome State Fault Refusal :=
  s.after (State.seizeDelayEnded line)

/-- DIAL_ELEMENT_END (R129). -/
def execDialElementEnd (line : Fin 4) (s : State) :
    Host.Outcome State Fault Refusal :=
  s.after (State.elementEnded line)

/-- NO_ANSWER_EXPIRY (R133). -/
def execNoAnswerExpiry (line : Fin 4) (s : State) :
    Host.Outcome State Fault Refusal :=
  s.after (State.notAnswered line)

/-- CLEAR_GUARD_EXPIRY (R137, R138). -/
def execClearGuardExpiry (line : Fin 4) (s : State) :
    Host.Outcome State Fault Refusal :=
  s.after (State.guardEnded line)

/-- UNIT_TIMER_EXPIRY (R191). -/
def execUnitTimerExpiry (line : Fin 4) (s : State) :
    Host.Outcome State Fault Refusal :=
  s.after (State.unitExpired line)

/-- GRACE_EXPIRY (R192). -/
def execGraceExpiry (line : Fin 4) (s : State) : Host.Outcome State Fault Refusal := s.after (State.graceEnded line)

/-- RING_INPUT_ACTIVE (R119). -/
def execRingInputActive (line : Fin 4) (s : State) :
    Host.Outcome State Fault Refusal :=
  s.after (State.ringActive line)

/-- RING_INPUT_INACTIVE (R119). -/
def execRingInputInactive (line : Fin 4) (s : State) :
    Host.Outcome State Fault Refusal :=
  s.after (State.ringInactive line)

/-- METER_INPUT_ACTIVE (R120). -/
def execMeterInputActive (line : Fin 4) (s : State) :
    Host.Outcome State Fault Refusal :=
  s.after (State.meterActive line)

/-- DIAL_ELEMENT_PHASE_END (R130). -/
def execDialElementPhaseEnd (line : Fin 4) (s : State) :
    Host.Outcome State Fault Refusal :=
  s.after (State.phaseEnded line)

end Sys2Proof.Machine
end

