-- ==== Sys2Proof/Machine/RingCommands.lean ====
section
/-! DEFINITION. The meanings of the ring command rows: the command's execution at the block that owns it (R28). The ring's part, from
the slot read to the result write, is in SLOT_READ_COMPLETE and RESULT_WRITE_COMPLETE (log entry 4). -/

namespace Sys2Proof.Machine

/-- UNKNOWN_COMMAND (R28, R200). -/
def execUnknownCommand (_code : BitVec 8) (s : State) :
    Host.Outcome State Fault Refusal :=
  s.after (State.runCommand State.cmdUnknown)

/-- STORE SETUP (R24, R61, R62). -/
def execStoreSetup (storeBase : BitVec 32) (blockCount : BitVec 16) (logBase : BitVec 32) (reserve : BitVec 16) (s : State) :
    Host.Outcome State Fault Refusal :=
  s.after (State.runCommand (State.cmdStoreSetup storeBase blockCount logBase reserve))

/-- TIME SET (R173). -/
def execTimeSet (day : BitVec 16) (dayOfWeek : BitVec 8) (second : BitVec 32) (s : State) :
    Host.Outcome State Fault Refusal :=
  s.after (State.runCommand (State.cmdTimeSet day dayOfWeek second))

/-- PERIOD SET (R176). -/
def execPeriodSet (entry daySet period : BitVec 8) (start : BitVec 32) (s : State) :
    Host.Outcome State Fault Refusal :=
  s.after (State.runCommand (State.cmdPeriodSet entry daySet period start))

/-- TARIFF SET (R178). -/
def execTariffSet (band : BitVec 8) (value0 value1 value2 value3 : BitVec 16) (s : State) :
    Host.Outcome State Fault Refusal :=
  s.after (State.runCommand (State.cmdTariffSet band value0 value1 value2 value3))

/-- PREFIX SET (R179). -/
def execPrefixSet (entry digitCount cls band : BitVec 8) (digits : BitVec 64) (s : State) :
    Host.Outcome State Fault Refusal :=
  s.after (State.runCommand (State.cmdPrefixSet entry digitCount cls band digits))

/-- ACCOUNT SET (R185). -/
def execAccountSet (account cls policy : BitVec 8) (code : BitVec 16) (budget : BitVec 32) (s : State) :
    Host.Outcome State Fault Refusal :=
  s.after (State.runCommand (State.cmdAccountSet account cls policy code budget))

/-- ACCOUNT CLEAR (R186). -/
def execAccountClear (account : BitVec 8) (s : State) :
    Host.Outcome State Fault Refusal :=
  s.after (State.runCommand (State.cmdAccountClear account))

/-- LINE SETUP (R117, R118). -/
def execLineSetup (line : BitVec 8) (settings : SettingsField) (s : State) :
    Host.Outcome State Fault Refusal :=
  s.after (State.runCommand (State.cmdLineSetup line settings))

/-- DOC CREATE (R100). -/
def execDocCreate (kind priority account retryInterval attemptLimit localCopy copies : BitVec 8) (notBefore : ClockField) (s : State) :
    Host.Outcome State Fault Refusal :=
  s.after (State.runCommand (State.cmdDocCreate kind priority account retryInterval attemptLimit localCopy copies notBefore))

/-- DEST ADD (R103). -/
def execDestAdd (document : BitVec 8) (number : NumberField) (s : State) :
    Host.Outcome State Fault Refusal :=
  s.after (State.runCommand (State.cmdDestAdd document number))

/-- DOC RELEASE (R104). -/
def execDocRelease (document : BitVec 8) (s : State) :
    Host.Outcome State Fault Refusal :=
  s.after (State.runCommand (State.cmdDocRelease document))

/-- DOC CANCEL (R112). -/
def execDocCancel (document : BitVec 8) (s : State) :
    Host.Outcome State Fault Refusal :=
  s.after (State.runCommand (State.cmdDocCancel document))

/-- DEST CANCEL (R113). -/
def execDestCancel (destination : BitVec 16) (s : State) :
    Host.Outcome State Fault Refusal :=
  s.after (State.runCommand (State.cmdDestCancel destination))

/-- DOC DELETE (R106). -/
def execDocDelete (document : BitVec 8) (s : State) :
    Host.Outcome State Fault Refusal :=
  s.after (State.runCommand (State.cmdDocDelete document))

/-- PRINT FIRST (R115). -/
def execPrintFirst (document : BitVec 8) (s : State) :
    Host.Outcome State Fault Refusal :=
  s.after (State.runCommand (State.cmdPrintFirst document))

/-- SCAN OPEN (R82). -/
def execScanOpen (document width k : BitVec 8) (s : State) :
    Host.Outcome State Fault Refusal :=
  s.after (State.runCommand (State.cmdScanOpen document width k))

/-- PAGE CUT (R89). -/
def execPageCut (s : State) : Host.Outcome State Fault Refusal := s.after (State.runCommand State.cmdPageCut)

/-- SCAN RESUME (R93). -/
def execScanResume (s : State) : Host.Outcome State Fault Refusal := s.after (State.runCommand State.cmdScanResume)

/-- SCAN CLOSE (R94). -/
def execScanClose (s : State) : Host.Outcome State Fault Refusal := s.after (State.runCommand State.cmdScanClose)

/-- PRINT OPEN (R161). -/
def execPrintOpen (s : State) : Host.Outcome State Fault Refusal := s.after (State.runCommand State.cmdPrintOpen)

/-- PRINT NEXT (R166). -/
def execPrintNext (s : State) : Host.Outcome State Fault Refusal := s.after (State.runCommand State.cmdPrintNext)

/-- PRINT CLOSE (R168). -/
def execPrintClose (s : State) : Host.Outcome State Fault Refusal := s.after (State.runCommand State.cmdPrintClose)

/-- SEND OPEN (R142). -/
def execSendOpen (line takesRepeat minLineBytes : BitVec 8) (s : State) :
    Host.Outcome State Fault Refusal :=
  s.after (State.runCommand (State.cmdSendOpen line takesRepeat minLineBytes))

/-- PAGE RESULT (R148). -/
def execPageResult (line verdict : BitVec 8) (s : State) :
    Host.Outcome State Fault Refusal :=
  s.after (State.runCommand (State.cmdPageResult line verdict))

/-- RECEIVE OPEN (R151). -/
def execReceiveOpen (line width k : BitVec 8) (s : State) :
    Host.Outcome State Fault Refusal :=
  s.after (State.runCommand (State.cmdReceiveOpen line width k))

/-- STREAM CLOSE (R156). -/
def execStreamClose (line : BitVec 8) (s : State) :
    Host.Outcome State Fault Refusal :=
  s.after (State.runCommand (State.cmdStreamClose line))

/-- CALL ANSWER (R124). -/
def execCallAnswer (line : BitVec 8) (s : State) :
    Host.Outcome State Fault Refusal :=
  s.after (State.runCommand (State.cmdCallAnswer line))

/-- ANSWER SEEN (R132). -/
def execAnswerSeen (line : BitVec 8) (s : State) :
    Host.Outcome State Fault Refusal :=
  s.after (State.runCommand (State.cmdAnswerSeen line))

/-- CALL END (R135). -/
def execCallEnd (line cause : BitVec 8) (s : State) :
    Host.Outcome State Fault Refusal :=
  s.after (State.runCommand (State.cmdCallEnd line cause))

/-- LOG RELEASE (R196). -/
def execLogRelease (count : BitVec 16) (s : State) :
    Host.Outcome State Fault Refusal :=
  s.after (State.runCommand (State.cmdLogRelease count))

end Sys2Proof.Machine
end

