-- ==== Sys2Proof/Machine/Dispatch.lean ====
section
/-! DEFINITION. One arm for each command: its meaning, called by its full name. -/

namespace Sys2Proof.Machine

/-- A command's effect on everything but the queue. -/
def exec (i : Instr) (s : State) : Host.Outcome State Fault Refusal :=
  match i with
  | .powerOn straps => Sys2Proof.Machine.execPowerOn straps s
  | .resetInputAssert => Sys2Proof.Machine.execResetInputAssert s
  | .resetInputRelease => Sys2Proof.Machine.execResetInputRelease s
  | .hostForwardedAccess a => Sys2Proof.Machine.execHostForwardedAccess a s
  | .holdLimitWrite w => Sys2Proof.Machine.execHoldLimitWrite w s
  | .noticeMaskWrite w => Sys2Proof.Machine.execNoticeMaskWrite w s
  | .maskReadComplete => Sys2Proof.Machine.execMaskReadComplete s
  | .windowTableWrite w => Sys2Proof.Machine.execWindowTableWrite w s
  | .tailWordWrite w => Sys2Proof.Machine.execTailWordWrite w s
  | .tailReadComplete => Sys2Proof.Machine.execTailReadComplete s
  | .acknowledgeWrite w => Sys2Proof.Machine.execAcknowledgeWrite w s
  | .controlAreaDrop w => Sys2Proof.Machine.execControlAreaDrop w s
  | .storeLogWriteDrop w => Sys2Proof.Machine.execStoreLogWriteDrop w s
  | .closedWindowAccess a => Sys2Proof.Machine.execClosedWindowAccess a s
  | .wrongDirectionWindowAccess a => Sys2Proof.Machine.execWrongDirectionWindowAccess a s
  | .scanWindowWrite w => Sys2Proof.Machine.execScanWindowWrite w s
  | .receiveWindowWrite w => Sys2Proof.Machine.execReceiveWindowWrite w s
  | .printWindowRead r => Sys2Proof.Machine.execPrintWindowRead r s
  | .sendWindowRead r => Sys2Proof.Machine.execSendWindowRead r s
  | .holdExpiry => Sys2Proof.Machine.execHoldExpiry s
  | .storeWriteComplete => Sys2Proof.Machine.execStoreWriteComplete s
  | .storeReadComplete => Sys2Proof.Machine.execStoreReadComplete s
  | .mirrorWriteComplete => Sys2Proof.Machine.execMirrorWriteComplete s
  | .slotReadComplete => Sys2Proof.Machine.execSlotReadComplete s
  | .resultWriteComplete => Sys2Proof.Machine.execResultWriteComplete s
  | .chargeRecordWriteComplete => Sys2Proof.Machine.execChargeRecordWriteComplete s
  | .unknownCommand code => Sys2Proof.Machine.execUnknownCommand code s
  | .storeSetup storeBase blockCount logBase reserve => Sys2Proof.Machine.execStoreSetup storeBase blockCount logBase reserve s
  | .timeSet day dayOfWeek second => Sys2Proof.Machine.execTimeSet day dayOfWeek second s
  | .periodSet entry daySet period start => Sys2Proof.Machine.execPeriodSet entry daySet period start s
  | .tariffSet band value0 value1 value2 value3 => Sys2Proof.Machine.execTariffSet band value0 value1 value2 value3 s
  | .prefixSet entry digitCount cls band digits => Sys2Proof.Machine.execPrefixSet entry digitCount cls band digits s
  | .accountSet account cls policy code budget => Sys2Proof.Machine.execAccountSet account cls policy code budget s
  | .accountClear account => Sys2Proof.Machine.execAccountClear account s
  | .lineSetup line settings => Sys2Proof.Machine.execLineSetup line settings s
  | .docCreate kind priority account retryInterval attemptLimit localCopy copies notBefore => Sys2Proof.Machine.execDocCreate kind priority account retryInterval attemptLimit localCopy copies notBefore s
  | .destAdd document number => Sys2Proof.Machine.execDestAdd document number s
  | .docRelease document => Sys2Proof.Machine.execDocRelease document s
  | .docCancel document => Sys2Proof.Machine.execDocCancel document s
  | .destCancel destination => Sys2Proof.Machine.execDestCancel destination s
  | .docDelete document => Sys2Proof.Machine.execDocDelete document s
  | .printFirst document => Sys2Proof.Machine.execPrintFirst document s
  | .scanOpen document width k => Sys2Proof.Machine.execScanOpen document width k s
  | .pageCut => Sys2Proof.Machine.execPageCut s
  | .scanResume => Sys2Proof.Machine.execScanResume s
  | .scanClose => Sys2Proof.Machine.execScanClose s
  | .printOpen => Sys2Proof.Machine.execPrintOpen s
  | .printNext => Sys2Proof.Machine.execPrintNext s
  | .printClose => Sys2Proof.Machine.execPrintClose s
  | .sendOpen line takesRepeat minLineBytes => Sys2Proof.Machine.execSendOpen line takesRepeat minLineBytes s
  | .pageResult line verdict => Sys2Proof.Machine.execPageResult line verdict s
  | .receiveOpen line width k => Sys2Proof.Machine.execReceiveOpen line width k s
  | .streamClose line => Sys2Proof.Machine.execStreamClose line s
  | .callAnswer line => Sys2Proof.Machine.execCallAnswer line s
  | .answerSeen line => Sys2Proof.Machine.execAnswerSeen line s
  | .callEnd line cause => Sys2Proof.Machine.execCallEnd line cause s
  | .logRelease count => Sys2Proof.Machine.execLogRelease count s
  | .encodeComplete => Sys2Proof.Machine.execEncodeComplete s
  | .decodeComplete => Sys2Proof.Machine.execDecodeComplete s
  | .checkComplete => Sys2Proof.Machine.execCheckComplete s
  | .expandComplete => Sys2Proof.Machine.execExpandComplete s
  | .retryTimerExpiry destination => Sys2Proof.Machine.execRetryTimerExpiry destination s
  | .secondEvent => Sys2Proof.Machine.execSecondEvent s
  | .ringBurstCounted line => Sys2Proof.Machine.execRingBurstCounted line s
  | .ringCycleEnd line => Sys2Proof.Machine.execRingCycleEnd line s
  | .meterPulseJudged line width => Sys2Proof.Machine.execMeterPulseJudged line width s
  | .reversal line => Sys2Proof.Machine.execReversal line s
  | .loopSensePresent line => Sys2Proof.Machine.execLoopSensePresent line s
  | .loopSenseAbsent line => Sys2Proof.Machine.execLoopSenseAbsent line s
  | .loopLoss line => Sys2Proof.Machine.execLoopLoss line s
  | .loopCheckExpiry line => Sys2Proof.Machine.execLoopCheckExpiry line s
  | .seizeDelayExpiry line => Sys2Proof.Machine.execSeizeDelayExpiry line s
  | .dialElementEnd line => Sys2Proof.Machine.execDialElementEnd line s
  | .noAnswerExpiry line => Sys2Proof.Machine.execNoAnswerExpiry line s
  | .clearGuardExpiry line => Sys2Proof.Machine.execClearGuardExpiry line s
  | .unitTimerExpiry line => Sys2Proof.Machine.execUnitTimerExpiry line s
  | .graceExpiry line => Sys2Proof.Machine.execGraceExpiry line s
  | .ringInputActive line => Sys2Proof.Machine.execRingInputActive line s
  | .ringInputInactive line => Sys2Proof.Machine.execRingInputInactive line s
  | .meterInputActive line => Sys2Proof.Machine.execMeterInputActive line s
  | .dialElementPhaseEnd line => Sys2Proof.Machine.execDialElementPhaseEnd line s

end Sys2Proof.Machine
end

