-- ==== Sys2Proof/Safety.lean ====
section
/-! DEFINITION. What must hold of the block between steps, and the parts of the state that its blocks' own work leaves
alone; both are named here for the statements and the laws. -/

namespace Sys2Proof

/-! ## Kinds of rows -/

/-- A row that is a ring command (R200). -/
def Instr.isRingCommand : Instr → Bool
  | .unknownCommand _ | .storeSetup _ _ _ _ | .timeSet _ _ _ | .periodSet _ _ _ _ | .tariffSet _ _ _ _ _
  | .prefixSet _ _ _ _ _ | .accountSet _ _ _ _ _ | .accountClear _ | .lineSetup _ _ | .docCreate _ _ _ _ _ _ _ _
  | .destAdd _ _ | .docRelease _ | .docCancel _ | .destCancel _ | .docDelete _ | .printFirst _ | .scanOpen _ _ _ | .pageCut
  | .scanResume | .scanClose | .printOpen | .printNext | .printClose | .sendOpen _ _ _ | .pageResult _ _
  | .receiveOpen _ _ _ | .streamClose _ | .callAnswer _ | .answerSeen _ | .callEnd _ _ | .logRelease _ => true
  | _ => false

/-- A ring command that PASS takes too (R23). -/
def Instr.isSetupCommand : Instr → Bool
  | .unknownCommand _ | .storeSetup _ _ _ _ | .timeSet _ _ _ | .periodSet _ _ _ _ | .tariffSet _ _ _ _ _
  | .prefixSet _ _ _ _ _ | .accountSet _ _ _ _ _ | .lineSetup _ _ => true
  | _ => false

/-- The host access a row carries. -/
def Instr.access : Instr → Option HostAccess
  | .hostForwardedAccess a | .closedWindowAccess a | .wrongDirectionWindowAccess a => some a
  | .holdLimitWrite w | .noticeMaskWrite w | .windowTableWrite w | .tailWordWrite w | .acknowledgeWrite w
  | .controlAreaDrop w | .storeLogWriteDrop w | .scanWindowWrite w | .receiveWindowWrite w => some (.write w)
  | .printWindowRead r | .sendWindowRead r => some (.read r)
  | _ => none

/-- A row that is the completion of a write on the memory port (R14). -/
def Instr.completesWrite : Instr → Bool
  | .storeWriteComplete | .mirrorWriteComplete | .resultWriteComplete | .chargeRecordWriteComplete => true
  | _ => false

namespace Machine

/-- The row that completes a request. -/
def PortKind.completion : PortKind → Instr
  | .storeWrite _ _ _ => .storeWriteComplete
  | .storeRead _ => .storeReadComplete
  | .recordWrite _ => .mirrorWriteComplete
  | .slotRead _ => .slotReadComplete
  | .resultWrite => .resultWriteComplete
  | .tailRead => .tailReadComplete
  | .maskRead => .maskReadComplete
  | .chargeWrite => .chargeRecordWriteComplete

/-! ## Invariants -/

/-- Page memory is in its canonical form. -/
def State.memoryCanonical (s : State) : Prop := Memory.wf s.mem = true

/-- The path unit's own bounds: the hold limit (R12) and the passed-over count (R15). -/
def State.pathBounded (s : State) : Prop :=
  Config.holdLimitMin ≤ s.path.holdLimit ∧ s.path.holdLimit ≤ Config.holdLimitMax ∧
    s.path.passedOver ≤ Config.passedOverLimit

/-- Each requester has at most one request in the queue or on the port (R14). -/
def State.oneRequestEach (s : State) : Prop :=
  s.path.requests.Nodup ∧ ∀ p, s.path.port = some p → p.requester ∉ s.path.requests

/-- The part at rest: no teardown, no stream open, no page or line job in hand, no access held, the memory port free. -/
def State.atRest (s : State) : Prop :=
  s.ctl.teardown = none ∧ s.dispatch.arbiterDue = false ∧ s.path.held = none ∧ s.path.port = none ∧
    s.path.passedOver < Config.passedOverLimit ∧ s.scan.state = .closed ∧ s.print.state = .closed ∧
    (∀ n, (s.stream n).state = .closed) ∧ (∀ w, (s.slot w).writing = none) ∧ ∀ i, (s.ctx i).job = .none

/-! ## What every step keeps whole -/

/-- The pages that the writer slots name, each slot's page being written before its page being closed (R73). -/
def State.slotPages (s : State) : List (Fin 512) :=
  allWriters.flatMap fun w => ((s.slot w).writing.toList ++ (s.slot w).closing.toList).map (·.page)

/-- R78, R79: every store block stands once, on the free list or on one page's chain, so that the free count and the pages'
block counts add up to the store's; a FREE page has no block; the writer slots name WRITING pages, each once; before
STORE SETUP there is no block. -/
def State.storeWhole (s : State) : Prop :=
  (s.store.freeList ++ s.store.pages.cells.flatMap (·.chain)).Perm (List.range s.store.blockCount) ∧
    (∀ p, (s.page p).state = .free → (s.page p).chain = []) ∧
    s.slotPages.Nodup ∧ (∀ p, p ∈ s.slotPages → (s.page p).state = .writing) ∧
    (s.ctl.engine = .pass → s.store.blockCount = 0)

/-- R136, R188, R194, R195: the unread records and the reservations stay within the log; there is one reservation for each
open context, and a line has a context exactly while it holds a call; the records that wait are those allotted and not
yet written; and the timers of a call's phases run in their line states only. -/
def State.callsWhole (s : State) : Prop :=
  s.charge.unread + s.charge.reservations ≤ 1024 ∧
    s.charge.reservations = s.charge.contexts.cells.countP (fun c => c.isSome) ∧
    (∀ n, (s.context n).isSome = (s.lineUnit n).record.state.hasCall) ∧
    s.charge.recordQueue.length = (s.charge.allotIndex - s.charge.writeIndex).toNat ∧
    s.charge.recordQueue.length ≤ s.charge.unread ∧
    (∀ p, s.path.port = some p → p.kind = .chargeWrite → s.charge.recordQueue ≠ []) ∧
    ∀ n, ((s.lineUnit n).seizeDelay ≠ none → (s.lineUnit n).record.state = .seizing) ∧
      ((s.lineUnit n).element ≠ none → (s.lineUnit n).record.state = .dialling) ∧
      ((s.lineUnit n).clearGuard ≠ none → (s.lineUnit n).record.state = .clearing)

/-- R40, R141, R198: while the teardown state is present no command is in progress and no line has a call context. -/
def State.teardownHoldsNoCall (s : State) : Prop :=
  s.ctl.teardown ≠ none → s.ctl.inProgress = none ∧ ∀ n, s.context n = none

/-- R101, R105, R114, R158, R161: the print queue holds each document once, and those whose printout is QUEUED or PRINTING;
the document PRINTING is the one that the print stream prints; a document that is building waits for no printout; a
COMPLETE one is neither building nor owed a printout; the scan stream's document and the document of a call are in use
and building, and no two calls share one. -/
def State.printWhole (s : State) : Prop :=
  s.dispatch.printQueue.Nodup ∧
    (∀ d, d ∈ s.dispatch.printQueue ↔ (s.doc d).obligation = .queued ∨ (s.doc d).obligation = .printing) ∧
    (∀ d, (s.doc d).obligation = .printing ↔ (s.print.state = .open ∨ s.print.state = .pageEnd) ∧ s.print.document = d) ∧
    (∀ d, (s.doc d).inUse = false → (s.doc d).obligation = .none) ∧
    (∀ d, (s.doc d).building = true → (s.doc d).obligation ≠ .queued ∧ (s.doc d).obligation ≠ .printing) ∧
    (∀ d, (s.doc d).complete = true → (s.doc d).building = false ∧ (s.doc d).obligation.owed = false) ∧
    (s.scan.state ≠ .closed → (s.doc s.scan.document).inUse = true ∧ (s.doc s.scan.document).building = true ∧
      (s.doc s.scan.document).kind ≠ .incoming) ∧
    (∀ n d, (s.stream n).callDoc = some d → (s.lineUnit n).record.state = .connected ∧ (s.doc d).inUse = true ∧
      (s.doc d).building = true ∧ (s.doc d).kind = .incoming) ∧
    ∀ n m d, (s.stream n).callDoc = some d → (s.stream m).callDoc = some d → n = m

/-! ## Frames of the memory port -/

/-- The port is free and the arbiter's next grant is the given requester's (R15): its request is at the head of the queue,
and no forwarded access waits, or eight have been granted past the requests. -/
def State.grantsNext (q : Requester) (s : State) : Prop :=
  s.path.port = none ∧ s.path.requests.head? = some q ∧
    (s.path.waitingAccess = none ∨ Config.passedOverLimit ≤ s.path.passedOver)

/-- The path unit with a requester's request on the port; all else as it was. -/
def PathUnit.granted (p : PathUnit) (q : Requester) (kind : PortKind) (addr : Nat) (bytes : List Byte) : PathUnit :=
  { p with
    port := some { requester := q, kind := kind, addr := addr, bytes := bytes }, passedOver := 0,
    requests := p.requests.filter (fun r => decide (r ≠ q)) }

/-! ## Frames of the control unit -/

/-- The control unit with the mirror write queue of `t` and the given notices; all else as it was. -/
def ControlUnit.rewritten (c : ControlUnit) (t : State) (notices : BitVec 12) : ControlUnit :=
  { c with queue := t.ctl.queue, notices := notices }

/-- The control unit with the mirror write queue of `t`, the given notices and the outcome of a ring command. -/
def ControlUnit.noted (c : ControlUnit) (t : State) (notices : BitVec 12) (code : ResultCode) (data : List Byte) :
    ControlUnit :=
  { c with queue := t.ctl.queue, notices := notices, lastResult := some ⟨code, data⟩ }

/-! ## What the blocks leave alone -/

/-- The parts that no stream, document, line or charge event changes: page memory, the commands that wait, the reset pin,
the memory port's queue and holder, the hold limit, the control region, the ring, the engine, the mask, the bounds of the
store, the clock and the tables that price a call. -/
structure Plant where
  mem : List Host.Cell
  pending : List Instr
  resetInput : Bool
  controlBase : Addr
  holdLimit : Nat
  holdCopy : BitVec 32
  requests : List Requester
  storeWrites : Table (Option StoreWrite) 5
  holder : Option Requester
  passedOver : Nat
  engine : Engine
  teardown : Option Teardown
  head : BitVec 6
  takenTail : BitVec 6
  ring : RingState
  inProgress : Option CommandInProgress
  ringErrors : Nat
  mask : BitVec 12
  lastResult : Option CommandResult
  storeBase : Nat
  blockCount : Nat
  logBase : Nat
  reserve : Nat
  clockSet : Bool
  clock : ClockValue
  dayOfWeek : Nat
  dividerDue : Nat
  calendar : Table CalendarEntry 8
  period : Fin 4
  grid : Table (Table Nat 4) 8
  prefixes : Table PrefixEntry 32

/-- The plant of a state. -/
def State.plant (s : State) : Plant :=
  { mem := s.mem, pending := s.pending, resetInput := s.resetInput, controlBase := s.path.controlBase,
    holdLimit := s.path.holdLimit, holdCopy := s.path.holdCopy, requests := s.path.requests, storeWrites := s.path.storeWrites,
    holder := s.path.port.map (·.requester), passedOver := s.path.passedOver, engine := s.ctl.engine,
    teardown := s.ctl.teardown, head := s.ctl.head, takenTail := s.ctl.takenTail, ring := s.ctl.ring,
    inProgress := s.ctl.inProgress, ringErrors := s.ctl.ringErrors, mask := s.ctl.mask, lastResult := s.ctl.lastResult,
    storeBase := s.store.base, blockCount := s.store.blockCount, logBase := s.store.logBase, reserve := s.store.reserve,
    clockSet := s.charge.clockSet, clock := s.charge.clock, dayOfWeek := s.charge.dayOfWeek,
    dividerDue := s.charge.dividerDue, calendar := s.charge.calendar, period := s.charge.period, grid := s.charge.grid,
    prefixes := s.charge.prefixes }

/-- The parts of the plant that the work at the end of a step leaves alone in every state: the commands that wait, the
reset pin, the control region, the engine, the command in progress, the mask, the result, the store's bounds, the clock and
the tables that price a call. -/
structure Setting where
  pending : List Instr
  resetInput : Bool
  controlBase : Addr
  engine : Engine
  inProgress : Option CommandInProgress
  ringErrors : Nat
  mask : BitVec 12
  lastResult : Option CommandResult
  storeBase : Nat
  blockCount : Nat
  logBase : Nat
  reserve : Nat
  clockSet : Bool
  clock : ClockValue
  dayOfWeek : Nat
  dividerDue : Nat
  calendar : Table CalendarEntry 8
  period : Fin 4
  grid : Table (Table Nat 4) 8
  prefixes : Table PrefixEntry 32

/-- The setting within a plant. -/
def Plant.setting (p : Plant) : Setting :=
  { pending := p.pending, resetInput := p.resetInput, controlBase := p.controlBase, engine := p.engine,
    inProgress := p.inProgress, ringErrors := p.ringErrors, mask := p.mask, lastResult := p.lastResult,
    storeBase := p.storeBase, blockCount := p.blockCount, logBase := p.logBase, reserve := p.reserve,
    clockSet := p.clockSet, clock := p.clock, dayOfWeek := p.dayOfWeek, dividerDue := p.dividerDue,
    calendar := p.calendar, period := p.period, grid := p.grid, prefixes := p.prefixes }

/-- The parts that the work at the end of a step leaves alone beside the plant: the accounts, the charge log, the time. -/
structure Books where
  accounts : Table Account 32
  allotIndex : BitVec 16
  writeIndex : BitVec 16
  readIndex : BitVec 16
  recordQueue : List ChargeRecord
  now : Nat
  freeCount : Nat

/-- The books of a state. -/
def State.books (s : State) : Books :=
  { accounts := s.charge.accounts, allotIndex := s.charge.allotIndex, writeIndex := s.charge.writeIndex,
    readIndex := s.charge.readIndex, recordQueue := s.charge.recordQueue, now := s.now, freeCount := s.freeCount }

end Machine

end Sys2Proof
end

