-- ==== Sys2Proof/WellFormed.lean ====
section
/-! DEFINITION. Which terms of `Instr` are commands: a host write carries no more bits than its size moves, an unknown command
code stands in no row of R200's table, and a meter pulse has a width. -/

namespace Sys2Proof

/-- The value of a host write fits its size (spec/00_scope.md section 6, "Host accesses"). -/
def HostWrite.wellFormed (w : HostWrite) : Bool := decide (w.data.toNat < 256 ^ w.size.bytes)

/-- A host access is well formed. -/
def HostAccess.wellFormed : HostAccess → Bool
  | .read _ => true
  | .write w => w.wellFormed

/-- The command codes of R200. -/
def knownCode (code : BitVec 8) : Bool :=
  decide (code.toNat ∈ [0x01, 0x02, 0x03, 0x04, 0x05, 0x06, 0x07, 0x08, 0x10, 0x11, 0x12, 0x13, 0x14, 0x15, 0x16, 0x20, 0x21,
    0x22, 0x23, 0x24, 0x25, 0x26, 0x27, 0x28, 0x29, 0x2A, 0x30, 0x31, 0x32, 0x38])

/-- A number field's unused characters and counts are not restricted (R200); an operand of a fixed width always fits. -/
def Instr.wellFormed : Instr → Bool
  | .hostForwardedAccess a | .closedWindowAccess a | .wrongDirectionWindowAccess a => a.wellFormed
  | .holdLimitWrite w | .noticeMaskWrite w | .windowTableWrite w | .tailWordWrite w | .acknowledgeWrite w
  | .controlAreaDrop w | .storeLogWriteDrop w | .scanWindowWrite w | .receiveWindowWrite w => w.wellFormed
  | .unknownCommand code => !knownCode code
  | .meterPulseJudged _ width => decide (0 < width)
  | _ => true

end Sys2Proof
end

