-- ==== Sys2Proof/Certificates/Slice0/Obligations.lean ====
section
/-! DEFINITION. The statements for the provers. Where a statement says `exec c s = .next t.settleStep`, `t` is the part as the
command's own effect leaves it, and `settleStep` is the work every step ends with (the line arbiter's due run, the streams,
the coder and memory port arbiters); the statements about the setting, the books, the ring and page memory say what that
work leaves alone. A frame is written as an equation: `t = { s with … }` names every part that may differ. -/

open Sys2Proof Sys2Proof.Machine

/-! ## The part as a whole -/

/-- A step takes the command at the front of the queue. -/
def Obligations.StepRunsTheFrontCommand : Prop :=
  ∀ (c : Instr) (rest : List Instr) (s : State), step { s with pending := c :: rest } = exec c { s with pending := rest }

/-- The work every step ends with keeps the setting, the books and, while no forwarded access waits for the port, page
memory; outside teardown it keeps the ring and starts no teardown. With no command waiting, one microsecond passes and
nothing of the setting changes (the model's choice, log entry 2). -/
def Obligations.EndOfStepKeeps : Prop :=
  (∀ s : State, s.settleStep.plant.setting = s.plant.setting ∧ s.settleStep.books = s.books ∧
    (s.path.waitingAccess = none → s.settleStep.mem = s.mem) ∧
    (s.ctl.teardown = none → s.settleStep.ctl.teardown = none ∧ s.settleStep.ctl.head = s.ctl.head ∧
      s.settleStep.ctl.takenTail = s.ctl.takenTail ∧ s.settleStep.ctl.ring = s.ctl.ring)) ∧
  (∀ s : State, s.pending = [] →
    ∃ u : State, step s = .next u ∧ u.now = s.now + 1 ∧ u.plant.setting = s.plant.setting ∧
      u.charge.accounts = s.charge.accounts ∧ u.charge.recordQueue = s.charge.recordQueue ∧
      (s.path.waitingAccess = none → u.mem = s.mem))

/-- No command faults, is refused or touches the queue, in any state. (What each command does is stated in the others.) -/
def Obligations.EveryCommandCompletes : Prop :=
  ∀ (c : Instr) (s : State), ∃ u : State, exec c s = .next u ∧ u.pending = s.pending

/-- The part right after reset (the straps at 0 are the model's choice, log entry 1; unwritten memory, log entry 3). -/
def Obligations.ResetValues : Prop :=
  State.reset.ctl.engine = .pass ∧ State.reset.ctl.head = 0 ∧ State.reset.ctl.takenTail = 0 ∧
    State.reset.ctl.ring = .ready ∧ State.reset.ctl.inProgress = none ∧ State.reset.ctl.notices = 0 ∧
    State.reset.ctl.mask = BitVec.allOnes 12 ∧ State.reset.ctl.teardown = none ∧
    State.reset.ctl.queue = allRecords.map .record ∧ State.reset.noticeOutput = false ∧
    State.reset.path.controlBase = 0 ∧ State.reset.path.holdLimit = 40 ∧ State.reset.path.held = none ∧
    State.reset.path.requests = [] ∧ (∀ w, State.reset.path.storeWrites.get w = none) ∧
    State.reset.path.port = none ∧ State.reset.path.passedOver = 0 ∧
    (∀ w, (State.reset.window w).status = .off ∧ (State.reset.window w).pending = none) ∧
    State.reset.store.base = 0 ∧ State.reset.store.blockCount = 0 ∧ State.reset.store.reserve = 32 ∧
    State.reset.store.freeList = [] ∧ (∀ p, State.reset.page p = PageRecord.empty) ∧
    State.reset.scan.state = .closed ∧ State.reset.print.state = .closed ∧
    (∀ n, (State.reset.stream n).state = .closed) ∧ State.reset.coder.engine = none ∧
    (∀ d, State.reset.doc d = DocRecord.empty) ∧ (∀ t, State.reset.dest t = DestRecord.empty) ∧
    State.reset.dispatch.printQueue = [] ∧ State.reset.dispatch.releaseCounter = 0 ∧
    (∀ n, (State.reset.lineUnit n).record.state = .disabled ∧
      (State.reset.lineUnit n).record.disabledReason = .off ∧ (State.reset.lineUnit n).offHook = false) ∧
    State.reset.charge.clockSet = false ∧ State.reset.charge.period = 0 ∧
    (State.reset.account 0).cls = 4 ∧ (∀ a, a ≠ 0 → (State.reset.account a).cls = 0) ∧
    (∀ n, State.reset.context n = none) ∧ State.reset.charge.reservations = 0 ∧ State.reset.mem = [] ∧
    State.reset.pending = []

/-- POWER_ON samples the straps and puts every record at its power-on value; page memory, the reset pin and the commands
that wait stand as they are. (What is kept is the model's choice, log entry 24.) -/
def Obligations.PowerOnTakesThePowerOnValues : Prop :=
  ∀ (straps : BitVec 4) (s : State),
    ∃ t : State, exec (.powerOn straps) s = .next t.settleStep ∧
      t = { State.powerOn straps s.mem s.resetInput with pending := s.pending, freeCount := s.freeCount } ∧
      t.path.controlBase.toNat = straps.toNat * 4194304 ∧ t.ctl.engine = .pass ∧ t.ctl.notices = 0 ∧
      t.ctl.mask = BitVec.allOnes 12 ∧ t.ctl.queue = allRecords.map .record ∧ allRecords.length = 1165

/-- The reset input's assertion starts teardown: no command is in progress, every window is off and keeps its staging
copy, every stream is CLOSED, a line that held a call is CLEARING with cause RESET and its context ended, no line rings,
no document is building, and the engine, the mask, the clock and the tables are kept. Asserting the reset input again in
teardown goes on with that teardown; releasing the input changes the pin alone. (That all of it is one step is read from
spec/95, log entry 43.) R81: the pages being written, in page index order, are freed, but for a scan page with lines,
which is closed SHORT. (A page whose close waits for another's counts with the closing pages, log entry 14.) R38, R40,
R41: while a page is being closed teardown stays as it is; then, after the line arbiter's due run, head and taken tail are
0, the ring is READY, every flag is clear and every record's rewrite is queued; and when every request then queued or on
the port has completed, no charge record waits, no mirror's rewrite is queued or on the port and the input is released,
RESET is raised beside the flags raised since (log entry 57), teardown is over and the line arbiter is to run. (What is
waited for: log entries 16, 52.) R20: the streams' store writes that were queued are discarded. -/
def Obligations.ResetInputStartsTeardown : Prop :=
  (∀ s : State, s.ctl.teardown = none →
    ∃ t : State, exec .resetInputAssert s = .next t.settleStep ∧ t.resetInput = true ∧ t.ctl.teardown = some .storeWork ∧
      t.ctl.inProgress = none ∧ QueueEntry.slotRead ∉ t.ctl.queue ∧ t.ctl.engine = s.ctl.engine ∧ t.ctl.mask = s.ctl.mask ∧
      t.ctl.ringErrors = s.ctl.ringErrors ∧ t.mem = s.mem ∧ (∀ i, t.path.storeWrites.get i = none) ∧
      (∀ w, (t.window w).active = ⟨0, 0⟩ ∧ (t.window w).pending = none ∧ (t.window w).status = .off ∧
        (t.window w).stagingBase = (s.window w).stagingBase ∧ (t.window w).stagingSize = (s.window w).stagingSize) ∧
      t.scan.state = .closed ∧ t.print.state = .closed ∧ (∀ n, (t.stream n).state = .closed) ∧
      (∀ n, (t.lineUnit n).record.state.hasCall = false ∧ (t.lineUnit n).record.state ≠ .ringing) ∧
      t.charge.grid = s.charge.grid ∧ t.charge.calendar = s.charge.calendar ∧ t.charge.prefixes = s.charge.prefixes ∧
      t.charge.clock = s.charge.clock ∧ t.charge.clockSet = s.charge.clockSet ∧ t.scan.cause = .none ∧
      (∀ n, (s.lineUnit n).record.state.hasCall = true →
        (t.lineUnit n).record.state = .clearing ∧ (t.lineUnit n).record.lastCause = .reset ∧ t.context n = none) ∧
      ∀ d, (t.doc d).inUse = true → (t.doc d).building = false) ∧
  ((∀ s : State, s.ctl.teardown ≠ none →
      exec .resetInputAssert s = .next ({ s with resetInput := true } : State).settleStep) ∧
    ∀ s : State, exec .resetInputRelease s = .next ({ s with resetInput := false } : State).settleStep) ∧
  ((∀ s : State, s.openPages.Pairwise (fun x y => x.1 ≤ y.1) ∧
      ∀ x, x ∈ s.openPages ↔ ∃ h, (s.slot x.2).page = some h ∧ h.page = x.1) ∧
    ∀ (w : Writer) (h : PageInHand) (s : State), (s.slot w).page = some h →
      let r := s.page h.page
      let t := s.resetPage (h.page, w)
      (∀ q, q ≠ h.page → t.page q = s.page q) ∧
      (w ≠ .scan ∨ r.lineCount = 0 →
        t.page h.page = PageRecord.empty ∧ t.store.freeList = s.store.freeList ++ r.chain ∧
          t.slot w = { s.slot w with writing := none } ∧
          t.pageList r.document = (s.pageList r.document).filter (fun q => decide (q ≠ h.page))) ∧
      (w = .scan → r.lineCount ≠ 0 → (s.slot w).closing = none →
        t.page h.page = { r with closing := true, short := true, byteCount := r.byteCount + 1 } ∧
          t.store.freeList = s.store.freeList ∧
          t.slot w = { writing := none, asked := none, closing := some { h with queued := h.queued ++ [0xF3] } })) ∧
  (∀ s : State, s.ctl.teardown = some .storeWork →
    (s.storeQuiet = true ↔ ∀ w, (s.slot w).writing = none ∧ (s.slot w).closing = none) ∧
    (s.storeQuiet = false → s.teardownAdvance = s) ∧
    (s.storeQuiet = true →
      ∃ t : State, s.teardownAdvance = t ∧ t = { s.runDueArbiter with ctl := t.ctl } ∧ t.ctl.head = 0 ∧ t.ctl.takenTail = 0 ∧
        t.ctl.ring = .ready ∧ t.ctl.notices = 0 ∧ t.ctl.mask = s.ctl.mask ∧ t.ctl.engine = s.ctl.engine ∧
        t.ctl.ringErrors = s.ctl.ringErrors ∧ t.ctl.inProgress = s.ctl.inProgress ∧
        (∀ r, QueueEntry.record r ∈ t.ctl.queue) ∧
        t.ctl.teardown = some (.rewriting (t.ctl.queue.length + if s.onPort .control then 1 else 0)))) ∧
  (∀ (left : Nat) (s : State), s.ctl.teardown = some (.rewriting left) →
    let written : Prop := ∀ r, QueueEntry.record r ∉ s.ctl.queue ∧ ∀ p, s.path.port = some p → p.kind ≠ .recordWrite r
    (left = 0 → s.charge.recordQueue = [] → written → s.resetInput = false →
      ∃ t : State, s.teardownAdvance = t ∧
        t = { s with
          dispatch := { s.dispatch with arbiterDue := true },
          ctl := { s.ctl with
            teardown := none, queue := t.ctl.queue, notices := s.ctl.notices ||| Notice.reset.bit } }) ∧
    (left ≠ 0 ∨ s.charge.recordQueue ≠ [] ∨ ¬written ∨ s.resetInput = true → s.teardownAdvance = s))

/-- R30: a raised flag becomes pending whatever its mask bit; a clear flag's raise queues the status words; a pending flag's
raise queues nothing; no other flag and nothing else changes; and the output follows the flags and the mask. -/
def Obligations.RaiseSetsAFlag : Prop :=
  ∀ (f : Notice) (s : State),
    (s.raise f).isPending f = true ∧ (∀ g, g ≠ f → (s.raise f).isPending g = s.isPending g) ∧
      (s.isPending f = true → s.raise f = s) ∧
      (s.isPending f = false →
        QueueEntry.record .statusWords ∈ (s.raise f).ctl.queue ∧
          (∀ e, e ∈ (s.raise f).ctl.queue ↔ e ∈ s.ctl.queue ∨ e = .record .statusWords)) ∧
      (s.raise f).ctl.mask = s.ctl.mask ∧
      s.raise f = { s with ctl := { s.ctl with notices := (s.raise f).ctl.notices, queue := (s.raise f).ctl.queue } } ∧
      ((s.raise f).noticeOutput = true ↔ ∃ g, (s.raise f).isPending g = true ∧ s.ctl.mask.getLsbD g.position = false)

/-- Every step keeps page memory in its canonical form: addresses below 2^26, strictly rising, and no byte that an unlisted
address reads as. (The form is the model's own representation, log entries 3 and 8, and no rule of the manual's.) -/
def Obligations.MemoryStaysCanonical : Prop :=
  ∀ s u : State, s.memoryCanonical → step s = .next u → u.memoryCanonical

/-- Every step keeps the hold limit within 2 to 250 microseconds and the passed-over count within 0 to 8. -/
def Obligations.PathStaysBounded : Prop :=
  ∀ s u : State, s.pathBounded → step s = .next u → u.pathBounded

/-- Every step keeps at most one request of each requester in the queue or on the port. -/
def Obligations.OneRequestOfEachRequester : Prop :=
  ∀ s u : State, s.oneRequestEach → step s = .next u → u.oneRequestEach

/-- The invariants that the other statements say every step keeps hold right after reset. -/
def Obligations.InvariantsHoldAtReset : Prop :=
  (State.reset.memoryCanonical ∧ State.reset.pathBounded ∧ State.reset.oneRequestEach) ∧
    State.reset.storeWhole ∧ State.reset.callsWhole ∧ State.reset.printWhole ∧
      State.reset.teardownHoldsNoCall

/-- A command that is neither a host access nor the completion of a write leaves every byte of page memory as it was, while
no forwarded access waits for the port (POWER_ON among them, whose keeping of page memory is the model's choice, log entry
24). The completion of a write on the port stores the request's bytes at its address and leaves every other byte as it
was: store writes, mirror rewrites, result writes and charge record writes. (Addresses wrap at 2^26, log entry 8.) R35: a
rewrite carries the whole record as it stands at its grant, to the record's place in the control region; the records lie
in part-written areas, none over another; and its completion frees the port and counts toward a teardown's end. -/
def Obligations.MemoryChangedByWritesAlone : Prop :=
  (∀ (c : Instr) (s : State), c.access = none → c.completesWrite = false → s.path.waitingAccess = none →
    ∃ u : State, exec c s = .next u ∧ ∀ a, Memory.read u.mem a = Memory.read s.mem a) ∧
  (∀ (s : State) (p : PortRequest), s.memoryCanonical → s.path.waitingAccess = none → s.path.port = some p →
    p.bytes.length ≤ Config.memoryBytes →
    ∀ c, c = p.kind.completion → c.completesWrite = true →
      ∃ u : State, exec c s = .next u ∧ (∀ i (h : i < p.bytes.length), Memory.read u.mem (byteAt p.addr i) = p.bytes[i]) ∧
        ∀ a, (∀ i, i < p.bytes.length → a ≠ byteAt p.addr i) → Memory.read u.mem a = Memory.read s.mem a) ∧
  ((∀ (r : RecordId) (rest : List QueueEntry) (s : State), s.grantsNext .control → s.ctl.queue = .record r :: rest →
      s.grantPort = { s with
        ctl := { s.ctl with queue := rest },
        path := s.path.granted .control (.recordWrite r) (s.path.controlBase.toNat + r.offset) (s.recordBytes r) }) ∧
    (∀ (r q : RecordId) (s : State),
      (s.recordBytes r).length = r.size ∧ (r ≠ q → r.offset + r.size ≤ q.offset ∨ q.offset + q.size ≤ r.offset) ∧
        ∀ i, i < r.size → partWritten (r.offset + i) = true) ∧
    ∀ (p : PortRequest) (r : RecordId) (s : State), s.path.port = some p → p.kind = .recordWrite r →
      exec .mirrorWriteComplete s = .next ({ s with
        mem := Memory.writeBytes s.mem p.addr p.bytes, path := { s.path with port := none },
        ctl := { s.ctl with teardown := Teardown.counted s.ctl.teardown } } : State).settleStep)

/-! ## Host accesses (chapter 1) -/

/-- R1, R2, R3: the classes in their order, by the address of the access's lowest byte, and each class's treatment. (The
dropped ranges are log entry 37.) -/
def Obligations.AccessesAreSortedByAddress : Prop :=
  ∀ (acc : HostAccess) (s : State) (a base : Nat), a = (accessAddr acc).toNat → base = s.path.controlBase.toNat →
    (base ≤ a ∧ a < base + 65536 →
      s.sortAccess acc = if isWrite acc = true ∧ partWritten (a - base) = true then .controlDrop else .forward) ∧
    (¬(base ≤ a ∧ a < base + 65536) →
      (s.ctl.engine = .running ∧ s.store.base ≤ a ∧ a < s.store.base + s.store.blockCount * 1024 →
        s.sortAccess acc = if isWrite acc = true then .storeDrop else .forward) ∧
      (¬(s.ctl.engine = .running ∧ s.store.base ≤ a ∧ a < s.store.base + s.store.blockCount * 1024) →
        (s.ctl.engine = .running ∧ s.store.logBase ≤ a ∧ a < s.store.logBase + 65536 →
          s.sortAccess acc = if isWrite acc = true then .logDrop else .forward) ∧
        (¬(s.ctl.engine = .running ∧ s.store.logBase ≤ a ∧ a < s.store.logBase + 65536) →
          (∀ w, s.windowHolds a w = true → (∀ v, v < w → s.windowHolds a v = false) → s.sortAccess acc = .window w) ∧
          ((∀ w, s.windowHolds a w = false) → s.sortAccess acc = .forward)))) ∧
    (∀ w, s.windowHolds a w = true ↔ (s.window w).active.base.toNat ≤ a ∧
      a < (s.window w).active.base.toNat + windowBytes (s.window w).active.sizeCode) ∧
    ∀ o, partWritten o = true ↔ (0x0404 ≤ o ∧ o < 0x040C) ∨ (0x0800 ≤ o ∧ o < 0x1000 ∧ 48 ≤ o % 64) ∨
      (0x2000 ≤ o ∧ o < 0x5980) ∨ (0x5A00 ≤ o ∧ o < 0x5A80) ∨ (0x6000 ≤ o ∧ o < 0x6500) ∨ (0x8000 ≤ o ∧ o < 0x10000)

/-- A forwarded access that finds the port free, with fewer than 8 accesses granted past waiting requests, is carried out:
a read returns what memory holds, a write changes its own bytes alone, and the access is answered. It is so for every host
access row whose access R1 forwards. R12: a forwarded access that arrives while a request has the port is the held access,
with its reason, the time the hold began and the limit in force; memory is as it was. R15: the arbiter of a free port, by
what waits: an access alone is carried out, the passed-over count 0; with requests waiting it is carried out and the count
gains 1 while the count is below 8; and at 8, or with no access, the oldest request is granted, which puts the count back
to 0 and leaves the access held; with nothing waiting the count is 0. (That an access completes in the step that grants it
is log entry 13; that bytes past the last address go on at address 0, log entry 8; that every row of an access is sorted
by its address, log entry 38.) -/
def Obligations.ForwardedAccess : Prop :=
  (∀ (c : Instr) (acc : HostAccess) (s : State), c.access = some acc → s.path.held = none → s.path.port = none →
    s.path.passedOver < 8 → s.sortAccess acc = .forward → s.memoryCanonical →
    ∃ u : State, exec c s = .next u ∧ u.path.held = none ∧ u.plant.setting = s.plant.setting ∧ u.books = s.books ∧
      (∀ r, acc = .read r →
        u.path.answer = some (.read (Memory.readBytes s.mem r.addr.toNat r.size.bytes)) ∧ u.mem = s.mem) ∧
      ∀ w, acc = .write w → u.path.answer = some .written ∧
        (∀ i (h : i < (hostWriteBytes w).length), Memory.read u.mem (byteAt w.addr.toNat i) = (hostWriteBytes w)[i]) ∧
        ∀ a, (∀ i, i < w.size.bytes → a ≠ byteAt w.addr.toNat i) → Memory.read u.mem a = Memory.read s.mem a) ∧
  (∀ (c : Instr) (acc : HostAccess) (s : State) (p : PortRequest), c.access = some acc → s.path.held = none →
    s.path.port = some p → s.sortAccess acc = .forward →
    ∃ u : State, exec c s = .next u ∧ u.mem = s.mem ∧ u.path.answer = s.path.answer ∧
      u.path.held = some { access := acc, window := none, reason := .memoryPort, start := s.now, limit := s.path.holdLimit }) ∧
  ∀ s : State,
    let counted (n : Nat) : State := { s with path := { s.path with passedOver := n } }
    (∀ p, s.path.port = some p → s.grantPort = s) ∧
    (s.path.port = none → s.path.requests = [] →
      (s.path.waitingAccess = none → s.grantPort = counted 0) ∧
      ∀ acc, s.path.waitingAccess = some acc → s.grantPort = (counted 0).forwardAccess acc) ∧
    (∀ q rest, s.path.port = none → s.path.requests = q :: rest →
      (∀ acc, s.path.waitingAccess = some acc → s.path.passedOver < 8 →
        s.grantPort = (counted (s.path.passedOver + 1)).forwardAccess acc) ∧
      (s.path.waitingAccess = none ∨ 8 ≤ s.path.passedOver → s.wantsPort q = true →
        s.grantPort = s.grantRequest q ∧ (s.grantRequest q).path.passedOver = 0 ∧
          (s.grantRequest q).path.port.map (fun p => p.requester) = some q ∧
          (s.grantRequest q).path.held = s.path.held ∧ (s.grantRequest q).mem = s.mem)) ∧
    (∀ r, s.forwardAccess (.read r) = { s with path := { s.path with
      held := none, answer := some (.read (Memory.readBytes s.mem r.addr.toNat r.size.bytes)) } }) ∧
    ∀ w, (s.forwardAccess (.write w)).mem = Memory.writeBytes s.mem w.addr.toNat (hostWriteBytes w) ∧
      (s.forwardAccess (.write w)).path.held = none ∧ (s.forwardAccess (.write w)).path.answer = some .written

/-- R12: the hold limit field's copy follows the written bytes, and the limit is the copy within 2 to 250. R22, R25: at
rest, a write that touches the mask field queues the read of the mask; a write to the tail word queues the read of the
tail; no notice changes. R31: at rest, a write to the acknowledge word clears exactly the flags whose bits the written
bytes set. (Log entries 13, 16, 39.) -/
def Obligations.ControlWritesAreSnooped : Prop :=
  (∀ (w : HostWrite) (s : State) (j : Nat), s.path.held = none → s.path.port = none → s.path.passedOver < 8 → j < 4 →
    w.addr.toNat = s.path.controlBase.toNat + j →
    ∃ u : State, exec (.holdLimitWrite w) s = .next u ∧ u.path.answer = some .written ∧
      u.path.holdLimit = max 2 (min 250 u.path.holdCopy.toNat) ∧
      ∀ i, i < 4 → u.path.holdCopy.extractLsb' (8 * i) 8 =
        if j ≤ i ∧ i < j + w.size.bytes then (hostWriteBytes w).getD (i - j) 0 else s.path.holdCopy.extractLsb' (8 * i) 8) ∧
  ((∀ (w : HostWrite) (s : State) (j : Nat), s.atRest → j < 8 → 4 < j + w.size.bytes →
      w.addr.toNat = s.path.controlBase.toNat + j →
      ∃ u : State, exec (.noticeMaskWrite w) s = .next u ∧ QueueEntry.maskRead ∈ u.ctl.queue ∧
        u.ctl = { s.ctl with queue := u.ctl.queue } ∧ u.path.answer = some .written) ∧
    ∀ (w : HostWrite) (s : State) (j : Nat), s.atRest → j < 4 → w.addr.toNat = s.path.controlBase.toNat + 0x0400 + j →
      ∃ u : State, exec (.tailWordWrite w) s = .next u ∧ QueueEntry.tailRead ∈ u.ctl.queue ∧
        u.ctl = { s.ctl with queue := u.ctl.queue } ∧ u.path.answer = some .written) ∧
  (∀ (w : HostWrite) (s : State) (j : Nat), s.atRest → (HostWrite.wellFormed w) = true → j < 4 →
    w.addr.toNat = s.path.controlBase.toNat + 0x040C + j →
    ∃ u : State, exec (.acknowledgeWrite w) s = .next u ∧
      u.ctl = { s.ctl with queue := u.ctl.queue, notices := s.ctl.notices &&& ~~~((w.data <<< (8 * j)).truncate 12) } ∧
      u.path.answer = some .written)

/-- R4, R6: at rest, a four-byte write to the base of a window entry reaches the staging copy alone; one to the word at
offset 12 takes the entry with its base aligned: pending in PASS, active at once in RUNNING, its stream being CLOSED. R5:
when an entry is refused. (Log entry 13.) R4, R6, R20, in every state, as the write is carried out: in RUNNING with its
stream not CLOSED the entry is PENDING, or REFUSED, and the active entry stays as it was; while the teardown state is
present the staging copy follows the write and no entry is taken; and a pending entry becomes active, or off, as its
stream enters CLOSED. -/
def Obligations.WindowEntryIsTaken : Prop :=
  (∀ (n : Fin 6) (w : HostWrite) (s : State), s.atRest → w.size = .four →
    (w.addr.toNat = s.path.controlBase.toNat + 0x0100 + 16 * n.val →
      ∃ u : State, exec (.windowTableWrite w) s = .next u ∧
        u.window n = { s.window n with stagingBase := w.data } ∧ ∀ m, m ≠ n → u.window m = s.window m) ∧
    (w.addr.toNat = s.path.controlBase.toNat + 0x010C + 16 * n.val →
      ∃ (u : State) (e : PendingWindow), exec (.windowTableWrite w) s = .next u ∧
        e.sizeCode = w.data.toNat % 256 ∧
        (1 ≤ e.sizeCode → e.sizeCode ≤ 8 →
          e.base.toNat = (s.window n).stagingBase.toNat % 67108864 / windowBytes e.sizeCode * windowBytes e.sizeCode) ∧
        e.refused = s.entryRefused e.base e.sizeCode ∧
        u.window n = (if s.ctl.engine = .running
          then { s.window n with stagingSize := w.data.truncate 8, active := e.entry, pending := none, status := e.status }
          else { s.window n with
            stagingSize := w.data.truncate 8, pending := some e, status := if e.refused then .refused else .pending }) ∧
        ∀ m, m ≠ n → u.window m = s.window m)) ∧
  (∀ (base : Addr) (size : Nat) (s : State),
    s.entryRefused base size = true ↔
      8 < size ∨ ∃ i, i < windowBytes size ∧
        (s.inControl (base.toNat + i) = true ∨ s.inStore (base.toNat + i) = true ∨ s.inLog (base.toNat + i) = true)) ∧
  (∀ (n : Fin 6) (w : HostWrite) (s : State), w.size = .four →
    let t := s.forwardAccess (.write w)
    (w.addr.toNat = s.path.controlBase.toNat + 0x0100 + 16 * n.val →
      t.window n = { s.window n with stagingBase := w.data } ∧ ∀ m, m ≠ n → t.window m = s.window m) ∧
    (w.addr.toNat = s.path.controlBase.toNat + 0x010C + 16 * n.val →
      let staged : WindowShadow := { s.window n with stagingSize := w.data.truncate 8 }
      (s.ctl.teardown ≠ none → t.window n = staged) ∧
      (s.ctl.teardown = none →
        ∃ e : PendingWindow, e.sizeCode = w.data.toNat % 256 ∧
          (1 ≤ e.sizeCode → e.sizeCode ≤ 8 →
            e.base.toNat = (s.window n).stagingBase.toNat % 67108864 / windowBytes e.sizeCode * windowBytes e.sizeCode) ∧
          e.refused = s.entryRefused e.base e.sizeCode ∧
          t.window n = (if s.ctl.engine = .running ∧ s.isClosed (windowStream n) = true
            then { staged with active := e.entry, pending := none, status := e.status }
            else { staged with pending := some e, status := if e.refused then .refused else .pending })) ∧
      ∀ m, m ≠ n → t.window m = s.window m)) ∧
  ∀ (n : Fin 6) (s : State),
    ((s.window n).pending = none → s.activatePending n = s) ∧
    ∀ e, (s.window n).pending = some e →
      let off : Prop := e.refused = true ∨ e.sizeCode = 0
      s.activatePending n = { s with
        path := { s.path with windows := s.path.windows.set n { s.window n with
          pending := none, active := if off then ⟨0, 0⟩ else ⟨e.base, e.sizeCode⟩,
          status := if e.refused = true then .refused else if e.sizeCode = 0 then .off else .active } },
        ctl := s.ctl.rewritten (s.activatePending n) s.ctl.notices }

/-- R2, R3: a dropped write changes no memory, adds 1 to its guard drop count, which stays at its maximum, raises GUARD and
completes at once. -/
def Obligations.DroppedWritesAreCounted : Prop :=
  ∀ (c : Instr) (w : HostWrite) (s : State), c.access = some (.write w) → s.path.held = none →
    (s.sortAccess (.write w) = .controlDrop →
      ∃ t : State, exec c s = .next t.settleStep ∧
        t = { s with
          path := { s.path with controlDrops := saturate 4294967295 s.path.controlDrops, answer := some .written },
          ctl := { s.ctl with queue := t.ctl.queue, notices := s.ctl.notices ||| Notice.guard.bit } } ∧
        (s.path.controlDrops < 4294967295 → QueueEntry.record .counters ∈ t.ctl.queue)) ∧
    (s.sortAccess (.write w) = .storeDrop →
      ∃ t : State, exec c s = .next t.settleStep ∧
        t = { s with
          path := { s.path with storeDrops := saturate 4294967295 s.path.storeDrops, answer := some .written },
          ctl := { s.ctl with queue := t.ctl.queue, notices := s.ctl.notices ||| Notice.guard.bit } } ∧
        (s.path.storeDrops < 4294967295 → QueueEntry.record .counters ∈ t.ctl.queue)) ∧
    (s.sortAccess (.write w) = .logDrop →
      ∃ t : State, exec c s = .next t.settleStep ∧
        t = { s with
          path := { s.path with logDrops := saturate 4294967295 s.path.logDrops, answer := some .written },
          ctl := { s.ctl with queue := t.ctl.queue, notices := s.ctl.notices ||| Notice.guard.bit } } ∧
        (s.path.logDrops < 4294967295 → QueueEntry.record .counters ∈ t.ctl.queue))

/-- R7, R9: an access to the window of a CLOSED stream, or against the direction of its window, completes at once: a read
returns 0x00 in every byte and changes nothing, a write is dropped and counted, and nothing else changes. -/
def Obligations.VoidWindowAccess : Prop :=
  ∀ (c : Instr) (acc : HostAccess) (w : Fin 6) (s : State), c.access = some acc → s.path.held = none →
    s.sortAccess acc = .window w →
    (s.isClosed (windowStream w) = true ∨ (windowStream w = .scan ∧ isWrite acc = false) ∨
      (windowStream w = .print ∧ isWrite acc = true) ∨
      ∃ n, windowStream w = .line n ∧ (isWrite acc = true ↔ (s.stream n).direction ≠ .receive)) →
    (isWrite acc = false →
      exec c s = .next ({ s with
        path := { s.path with answer := some (.read (List.replicate (accessBytes acc) 0)) } } : State).settleStep) ∧
    (isWrite acc = true →
      ∃ t : State, exec c s = .next t.settleStep ∧
        t = { s with
          scan := t.scan, print := t.print, streams := t.streams,
          path := { s.path with answer := some .written }, ctl := { s.ctl with queue := t.ctl.queue } } ∧
        t.scan = { s.scan with
          dropped := if windowStream w = .scan then saturate 65535 s.scan.dropped else s.scan.dropped } ∧
        t.print = { s.print with
          dropped := if windowStream w = .print then saturate 65535 s.print.dropped else s.print.dropped } ∧
        ∀ n, t.stream n = { s.stream n with
          dropped := if windowStream w = .line n then saturate 65535 (s.stream n).dropped else (s.stream n).dropped })

/-- R84: a scan window write, by the state of the scan stream: dropped and counted; held; or its bytes taken whole into the
raw line buffers. R85, R92: the first write of a page opens it; one whose open is refused is dropped and counted, the
stream is STARVED with the cause, its buffers EMPTY, and STREAM is raised. (A write is also held while a page's close waits
for another's, log entry 14.) -/
def Obligations.ScanWindowWrites : Prop :=
  (∀ (w : HostWrite) (s : State), s.path.held = none → s.sortAccess (.write w) = .window 0 →
    let heldNow : State := { s with path := { s.path with
      held := some { access := .write w, window := some 0, reason := .scanFull, start := s.now, limit := s.path.holdLimit } } }
    (s.scan.state = .starved ∨ s.scan.state = .closing →
      ∃ t : State, exec (.scanWindowWrite w) s = .next t.settleStep ∧
        t = { s with
          scan := { s.scan with dropped := saturate 65535 s.scan.dropped },
          path := { s.path with answer := some .written }, ctl := s.ctl.rewritten t s.ctl.notices }) ∧
    (s.scan.state = .cutting → exec (.scanWindowWrite w) s = .next heldNow.settleStep) ∧
    (s.scan.state = .open → (s.slot .scan).writing ≠ none → s.scan.room < w.size.bytes ∨ (s.slot .scan).asked ≠ none →
      exec (.scanWindowWrite w) s = .next heldNow.settleStep) ∧
    (s.scan.state = .open → (s.slot .scan).page ≠ none → w.size.bytes ≤ s.scan.room →
      ∃ t : State, exec (.scanWindowWrite w) s = .next t.settleStep ∧
        t = { s with
          scan := { s.scan with bufferA := t.scan.bufferA, bufferB := t.scan.bufferB },
          path := { s.path with answer := some .written }, ctl := s.ctl.rewritten t s.ctl.notices } ∧
        t.scan = (hostWriteBytes w).foldl ScanStream.takeByte s.scan ∧
        t.scan.heldBytes = s.scan.heldBytes + w.size.bytes)) ∧
  (∀ (w : HostWrite) (s : State), s.path.held = none → s.sortAccess (.write w) = .window 0 → s.scan.state = .open →
    (s.slot .scan).writing = none →
    (∀ s1, s.openPage .scan s.scan.document s.scan.width s.scan.k = .ok s1 → w.size.bytes ≤ s.scan.room →
      ∃ t : State, exec (.scanWindowWrite w) s = .next t.settleStep ∧
        t = { s1 with
          scan := (hostWriteBytes w).foldl ScanStream.takeByte s.scan, path := { s.path with answer := some .written },
          ctl := s1.ctl.rewritten t s1.ctl.notices }) ∧
    ∀ cause, s.openPage .scan s.scan.document s.scan.width s.scan.k = .error cause →
      ∃ t : State, exec (.scanWindowWrite w) s = .next t.settleStep ∧
        t = { s with
          scan := { s.scan.emptied with
            state := .starved, cause := cause.starve, dropped := saturate 65535 s.scan.dropped, trailing := s.scan.heldBytes },
          path := { s.path with answer := some .written },
          ctl := s.ctl.rewritten t (s.ctl.notices ||| Notice.stream.bit) })

/-- R53, R59, R65, R69: a page open's checks in their order, and what an accepted one writes: the page record, the lists, the
writer slot, the stream's context, whose job is discarded; and nothing else. -/
def Obligations.PageOpens : Prop :=
  ∀ (w : Writer) (d : Fin 64) (width : Width) (k : Nat) (s : State),
    (200 ≤ (s.pageList d).length → s.openPage w d width k = .error .pages) ∧
    ((s.pageList d).length < 200 →
      ((∀ p, (s.page p).state ≠ .free) → s.openPage w d width k = .error .entry) ∧
      ((∃ p, (s.page p).state = .free) →
        (s.freeBlocks = 0 ∨ (w = .scan ∧ s.freeBlocks ≤ s.store.reserve) → s.openPage w d width k = .error .block) ∧
        (¬(s.freeBlocks = 0 ∨ (w = .scan ∧ s.freeBlocks ≤ s.store.reserve)) →
          ∃ (t : State) (p : Fin 512) (b : Nat), s.openPage w d width k = .ok t ∧ (s.page p).state = .free ∧
            (∀ q, q < p → (s.page q).state ≠ .free) ∧ s.store.freeList = b :: t.store.freeList ∧
            t = { s with
              store := { s.store with
                freeList := t.store.freeList,
                pages := s.store.pages.set p { PageRecord.empty with
                  state := .writing, document := d, position := (s.pageList d).length + 1, width := width, k := k, chain := [b],
                  writer := w },
                slots := s.store.slots.set w.index { s.slot w with
                  writing := some { page := p, queued := [], check := 0xFFFF }, asked := none } },
              dispatch := { s.dispatch with pageLists := s.dispatch.pageLists.set d (s.pageList d ++ [p]) },
              coder := { s.coder with
                engine := s.coder.engine.map fun j => if j.stream = w.stream then { j with live := false } else j,
                contexts := s.coder.contexts.set w.stream.index
                  { isOpen := true, width := width, k := k, reference := List.replicate width.pixels false, repeatRun := 0,
                    job := .none } },
              ctl := s.ctl.rewritten t
                (if s.freeBlocks = s.store.reserve + 1 then s.ctl.notices ||| Notice.storeLow.bit else s.ctl.notices) } ∧
            QueueEntry.record (.page p) ∈ t.ctl.queue)))

/-- R152, R153: a receive window write: dropped and counted when the stream is STALLED, held while a line waits, and
otherwise taken; a byte of a run shorter than 192 joins the line under collection, and an END-OF-LINE completes it and
hands it to a CHECK job when the check buffer is empty and a page is being written. A taken write's bytes are collected
one after another; each is carried unframed behind a waiting line, or framed (R44, R152): an extension or any other byte
joins the line, a FILL is stripped, an END-OF-LINE completes the line, an END-OF-PAGE ends the page or cuts the line off
(log entry 20), and with no byte collected it ends the page and drops a lost mark (log entry 19). At 1,024 bytes without
END-OF-LINE the line is lost and no more is kept. R155: a page end with no line left to check closes the page, POOR by its
counts or the run of 12. R153: a line that moves with no page being written opens one and takes the carried bytes after
it, or by the refusal stalls the stream with nothing collected. (The coded bytes counted toward 1,024 are all of the stream's
coded queue, a closing page's with them, log entry 59.) -/
def Obligations.ReceiveWindowWrites : Prop :=
  (∀ (n : Fin 4) (w : HostWrite) (s : State), s.path.held = none →
    s.sortAccess (.write w) = .window (StreamId.index (.line n)) → (s.stream n).direction = .receive →
    let x := s.stream n
    (x.state = .stalled →
      ∃ t : State, exec (.receiveWindowWrite w) s = .next t.settleStep ∧
        t = { s with
          streams := s.streams.set n { x with dropped := saturate 65535 x.dropped },
          path := { s.path with answer := some .written }, ctl := s.ctl.rewritten t s.ctl.notices }) ∧
    (x.state = .open → x.waiting ≠ none →
      exec (.receiveWindowWrite w) s = .next ({ s with path := { s.path with
        held := some { access := .write w, window := some (StreamId.index (.line n)), reason := .receiveFull, start := s.now,
                       limit := s.path.holdLimit } } } : State).settleStep) ∧
    (x.state = .open → x.waiting = none →
      ∃ t : State, exec (.receiveWindowWrite w) s = .next t.settleStep ∧ t.path = { s.path with answer := some .written }) ∧
    (x.state = .open → x.waiting = none → x.pageEnd = false → x.carried = [] → x.collecting.inExtension = false →
      x.collecting.overflow = false → x.collecting.bytes.length + 1 < 1024 → w.size = .one →
      (w.data.toNat % 256 < 192 →
        ∃ t : State, exec (.receiveWindowWrite w) s = .next t.settleStep ∧
          t = { s with
            streams := s.streams.set n { x with
              collecting := { x.collecting with bytes := x.collecting.bytes ++ [w.data.truncate 8] } },
            path := { s.path with answer := some .written }, ctl := s.ctl.rewritten t s.ctl.notices }) ∧
      (w.data.toNat % 256 = 0xF1 → x.checkBuffer = none → s.codedQueue (.line n) ≤ 1024 →
        (s.slot (.line n)).page ≠ none → (s.ctx (.line n)).isOpen = true → (s.ctx (.line n)).job = .none →
        ∃ t : State, exec (.receiveWindowWrite w) s = .next t.settleStep ∧
          t = { s with
            streams := s.streams.set n { x with
              collecting := Collecting.empty,
              checkBuffer := some { bytes := x.collecting.bytes ++ [0xF1], lost := x.collecting.lost, endsPage := false } },
            coder := { s.coder with
              contexts := s.coder.contexts.set (StreamId.index (.line n)) { s.ctx (.line n) with job := .queued .check } },
            path := { s.path with answer := some .written }, ctl := s.ctl.rewritten t s.ctl.notices })) ∧
    (x.state = .open → x.waiting = none →
      exec (.receiveWindowWrite w) s =
        .next (((hostWriteBytes w).foldl (State.receiveByte n) s).answerHost .written).settleStep)) ∧
  (∀ (n : Fin 4) (b : Byte) (s : State),
    let x := s.stream n
    let c := x.collecting
    let framed (y : LineStream) : Prop := s.frameByte n b = { s with
      streams := s.streams.set n y, ctl := s.ctl.rewritten (s.frameByte n b) s.ctl.notices }
    (x.state = .open → s.receiveByte n b = (s.collectByte n b).receiveService n) ∧
    (x.state ≠ .open → s.receiveByte n b = s) ∧
    (x.direction = .receive → x.state = .open → s.receiveService n = (s.closeReceivePage n).moveLine n) ∧
    (x.waiting = none → s.collectByte n b = s.frameByte n b) ∧
    (x.waiting ≠ none → s.collectByte n b = { s with
      streams := s.streams.set n { x with carried := x.carried ++ [b] },
      ctl := s.ctl.rewritten (s.collectByte n b) s.ctl.notices }) ∧
    (c.inExtension = true → framed { x with collecting := { c.keep b with inExtension := false } }) ∧
    (c.inExtension = false →
      (b = 0xF2 → s.frameByte n b = s) ∧
      (b = 0xF1 → framed { x with
        collecting := Collecting.empty,
        waiting := some { bytes := (c.keep b).bytes, lost := (c.keep b).lost, endsPage := false } }) ∧
      (b = 0xF3 → c.bytes = [] → framed { x with
        collecting := Collecting.empty, pageEnd := x.pageEnd || (s.slot (.line n)).page.isSome }) ∧
      (b = 0xF3 → c.bytes ≠ [] → framed { x with
        collecting := Collecting.empty, waiting := some { bytes := c.bytes, lost := c.lost, endsPage := true } }) ∧
      (b ≠ 0xF1 → b ≠ 0xF2 → b ≠ 0xF3 → framed { x with
        collecting := { c.keep b with inExtension := decide (0xC0 ≤ b.toNat ∧ b.toNat ≤ 0xEF) } })) ∧
    (c.overflow = true → c.keep b = c) ∧
    (c.overflow = false → c.bytes.length + 1 = 1024 → b ≠ 0xF1 ∨ c.inExtension = true →
      c.keep b = { c with bytes := c.bytes ++ [b], lost := true, overflow := true }) ∧
    (c.overflow = false → ¬(c.bytes.length + 1 = 1024 ∧ (b ≠ 0xF1 ∨ c.inExtension = true)) →
      c.keep b = { c with bytes := c.bytes ++ [b] })) ∧
  (∀ (n : Fin 4) (s : State),
    let x := s.stream n
    (¬(x.pageEnd = true ∧ x.checkBuffer = none) → s.closeReceivePage n = s) ∧
    (∀ h, x.pageEnd = true → x.checkBuffer = none → (s.slot (.line n)).page = some h → (s.slot (.line n)).closing = none →
      let r := s.page h.page
      s.closeReceivePage n = { s with
        store := { s.store with
          pages := s.store.pages.set h.page { r with
            closing := true, byteCount := r.byteCount + 1,
            poor := r.poor || decide (r.lineCount < r.badLines * 16) || x.badRunFlag },
          slots := s.store.slots.set (Writer.index (.line n))
            { writing := none, asked := none, closing := some { h with queued := h.queued ++ [0xF3] } } },
        streams := s.streams.set n { x with pageEnd := false, badRun := 0, badRunFlag := false },
        ctl := s.ctl.rewritten (s.closeReceivePage n) s.ctl.notices }) ∧
    (x.waiting = none ∨ x.checkBuffer ≠ none ∨ 1024 < s.codedQueue (.line n) → s.moveLine n = s) ∧
    ∀ l d, x.waiting = some l → x.checkBuffer = none → s.codedQueue (.line n) ≤ 1024 → (s.slot (.line n)).writing = none →
      x.callDoc = some d →
      (∀ s1, s.openPage (.line n) d x.width x.k = .ok s1 →
        ∃ t : State, s.moveLine n = x.carried.foldl (State.collectByte n) t ∧
          t = { s1 with
            streams := s.streams.set n { x with
              waiting := none, carried := [], checkBuffer := some l, pageEnd := x.pageEnd || l.endsPage },
            coder := { s1.coder with
              contexts := s1.coder.contexts.set (StreamId.index (.line n)) { s1.ctx (.line n) with
                job := .queued .check } },
            ctl := s1.ctl.rewritten t s1.ctl.notices }) ∧
      ∀ cause, s.openPage (.line n) d x.width x.k = .error cause →
        s.moveLine n = { s with
          streams := s.streams.set n { x with
            state := .stalled, stall := if cause = .pages then .pages else .store, collecting := Collecting.empty,
            waiting := none, carried := [], checkBuffer := none, pageEnd := false },
          ctl := s.ctl.rewritten (s.moveLine n) (s.ctl.notices ||| Notice.stream.bit) })

/-- R165: a print window read: 0x00 past the page's last line, held while its bytes are not decoded, and otherwise the
next pixel bytes; the last byte of a line empties its buffer, and the last line's enters PAGE-END. A read of two or four
bytes takes its bytes one after another, as the stream stands after each: on into the other buffer at a line's end, white
past the last line of the page; it is held whole while one of them cannot be served. A page of 0 lines is in PAGE-END,
STREAM raised, as its page record is taken. -/
def Obligations.PrintWindowReads : Prop :=
  (∀ (r : HostRead) (s : State), s.path.held = none → s.sortAccess (.read r) = .window 1 →
    let x := s.print
    (x.state = .pageEnd ∨ x.state = .docEnd →
      exec (.printWindowRead r) s = .next ({ s with path := { s.path with
        answer := some (.read (List.replicate r.size.bytes 0)) } } : State).settleStep) ∧
    (x.state = .open → x.waiting = true ∨ x.buffer x.first = .empty ∨ x.buffer x.first = .decoding →
      exec (.printWindowRead r) s = .next ({ s with path := { s.path with
        held := some { access := .read r, window := some 1, reason := .printNotDecoded, start := s.now,
                       limit := s.path.holdLimit } } } : State).settleStep) ∧
    (∀ l served, x.state = .open → x.waiting = false → x.buffer x.first = .ready l served → r.size.bytes < l.length →
      exec (.printWindowRead r) s = .next ({ s with
        print := x.setBuffer x.first (.ready (l.drop r.size.bytes) (served + r.size.bytes)),
        path := { s.path with answer := some (.read (l.take r.size.bytes)) } } : State).settleStep) ∧
    ∀ b served, x.state = .open → x.waiting = false → x.buffer x.first = .ready [b] served → r.size = .one →
      ∃ t : State, exec (.printWindowRead r) s = .next t.settleStep ∧
        t = { s with
          print := { x.setBuffer x.first .empty with
            first := x.first.other, linesServed := x.linesServed + 1,
            state := if x.linesServed + 1 = x.lineCount then .pageEnd else .open },
          path := { s.path with answer := some (.read [b]) },
          ctl := s.ctl.rewritten t
            (if x.linesServed + 1 = x.lineCount then s.ctl.notices ||| Notice.stream.bit else s.ctl.notices) }) ∧
  (∀ (r : HostRead) (s : State), s.path.held = none → s.sortAccess (.read r) = .window 1 → s.print.state ≠ .closed →
    (∀ bytes u, s.servePrint r.size.bytes = some (bytes, u) →
      exec (.printWindowRead r) s = .next ({ u with path := { u.path with
        held := none, answer := some (.read bytes) } } : State).settleStep) ∧
    (s.servePrint r.size.bytes = none →
      exec (.printWindowRead r) s = .next ({ s with path := { s.path with
        held := some { access := .read r, window := some 1, reason := .printNotDecoded, start := s.now,
                       limit := s.path.holdLimit } } } : State).settleStep)) ∧
  (∀ s : State,
    let x := s.print
    s.servePrint 0 = some ([], s) ∧
    (∀ k, s.servePrintByte = none → s.servePrint (k + 1) = none) ∧
    (∀ k b u, s.servePrintByte = some (b, u) →
      s.servePrint (k + 1) = (u.servePrint k).map (fun y => (b :: y.1, y.2))) ∧
    (x.state = .pageEnd ∨ x.state = .docEnd → s.servePrintByte = some (0, s)) ∧
    (x.state = .open → x.waiting = true ∨ x.buffer x.first = .empty ∨ x.buffer x.first = .decoding →
      s.servePrintByte = none) ∧
    (∀ b c rest served, x.state = .open → x.waiting = false → x.buffer x.first = .ready (b :: c :: rest) served →
      s.servePrintByte = some (b, { s with print := x.setBuffer x.first (.ready (c :: rest) (served + 1)) })) ∧
    ∀ b served, x.state = .open → x.waiting = false → x.buffer x.first = .ready [b] served →
      ∃ t : State, s.servePrintByte = some (b, t) ∧
        t = { s with
          print := { x.setBuffer x.first .empty with
            first := x.first.other, linesServed := x.linesServed + 1,
            state := if x.linesServed + 1 = x.lineCount then .pageEnd else .open },
          ctl := s.ctl.rewritten t
            (if x.linesServed + 1 = x.lineCount then s.ctl.notices ||| Notice.stream.bit else s.ctl.notices) }) ∧
  ∀ (p : Fin 512) (s : State), (s.page p).lineCount = 0 →
    let r := s.page p
    s.printBegin p = { s with
      print := { s.print with
        waiting := false, page := p, width := r.width, lineCount := 0, byteCount := r.byteCount, state := .pageEnd },
      coder := { s.coder with
        engine := s.coder.engine.map fun j => if j.stream = .print then { j with live := false } else j,
        contexts := s.coder.contexts.set (StreamId.index .print)
          { isOpen := true, width := r.width, k := r.k, reference := List.replicate r.width.pixels false, repeatRun := 0,
            job := .none } },
      ctl := s.ctl.rewritten (s.printBegin p) (s.ctl.notices ||| Notice.stream.bit) }

/-- R10, R145: a send window read is never held: it answers the bytes that the stream serves one after another. Where the
stream serves no page each is FILL and nothing changes; where a byte is wanted and none is ready it is FILL, counted; a
run byte shorter than 192 at the head of the stored bytes is served to a far end that takes REPEAT. The stored bytes are
served in order (R44, R145): both bytes of a long run; a FILL without counting; an END-OF-LINE once the line has the least
number of bytes, FILL before it; and the END-OF-PAGE last. R146: to a far end that does not take REPEAT the lines that
EXPAND jobs returned are served in order, the END-OF-PAGE after the last, and the next stored line is queued for EXPAND.
R147, R150: the END-OF-PAGE served, an OPEN stream is in PAGE-END, and a DRAINING one has ENDED, STREAM raised. -/
def Obligations.SendWindowReads : Prop :=
  (∀ (n : Fin 4) (r : HostRead) (s : State), s.path.held = none →
      s.sortAccess (.read r) = .window (StreamId.index (.line n)) → (s.stream n).direction ≠ .receive →
      (s.stream n).state ≠ .closed →
      ∃ t : State, exec (.sendWindowRead r) s = .next t.settleStep ∧
        t = { (s.serveSend n r.size.bytes).2 with
          path := { (s.serveSend n r.size.bytes).2.path with answer := some (.read (s.serveSend n r.size.bytes).1) } } ∧
        (s.serveSend n r.size.bytes).1.length = r.size.bytes ∧
        ((s.stream n).serving = false →
          (s.serveSend n r.size.bytes) = (List.replicate r.size.bytes 0xF2, s))) ∧
    (∀ (n : Fin 4) (s : State), (s.stream n).serving = true →
      (sendByte (s.stream n) = none →
        (s.serveSendByte n).1 = 0xF2 ∧
          (s.serveSendByte n).2 = { s with
            streams := s.streams.set n { s.stream n with fillCount := saturate 65535 (s.stream n).fillCount },
            ctl := s.ctl.rewritten (s.serveSendByte n).2 s.ctl.notices }) ∧
      ∀ b rest, (s.stream n).takesRepeat = true → (s.stream n).readAhead = b :: rest →
        (s.stream n).inExtension = false → b.toNat < 192 →
        (s.serveSendByte n).1 = b ∧
          (s.serveSendByte n).2 = { s with
            streams := s.streams.set n { s.stream n with readAhead := rest, served := (s.stream n).served + 1 } }) ∧
  (∀ (x : LineStream) (b : Byte) (rest : List Byte), x.takesRepeat = true →
    (x.readAhead = [] → sendByte x = none) ∧
    (x.readAhead = b :: rest → x.inExtension = true →
      sendByte x = some (b, { x with readAhead := rest, served := x.served + 1, inExtension := false }, false)) ∧
    (x.readAhead = b :: rest → x.inExtension = false →
      (0xC0 ≤ b.toNat → b.toNat ≤ 0xEF → rest = [] → sendByte x = none) ∧
      (0xC0 ≤ b.toNat → b.toNat ≤ 0xEF → rest ≠ [] →
        sendByte x = some (b, { x with readAhead := rest, served := x.served + 1, inExtension := true }, false)) ∧
      (b.toNat < 0xC0 ∨ b = 0xF0 ∨ 0xF4 ≤ b.toNat →
        sendByte x = some (b, { x with readAhead := rest, served := x.served + 1 }, false)) ∧
      (b = 0xF1 → x.served + 1 < x.minLine → sendByte x = some (0xF2, { x with served := x.served + 1 }, false)) ∧
      (b = 0xF1 → x.minLine ≤ x.served + 1 → sendByte x = some (b, { x with readAhead := rest, served := 0 }, false)) ∧
      (b = 0xF2 → sendByte x = some (b, { x with readAhead := rest }, false)) ∧
      (b = 0xF3 → sendByte x = some (b, { x with readAhead := [] }, true)))) ∧
  (∀ (x : LineStream) (b c : Byte) (rest : List Byte) (k : Nat) (more : List ReadyLine), x.takesRepeat = false →
    (x.ready = ⟨b :: c :: rest, k⟩ :: more → sendByte x = some (b, { x with ready := ⟨c :: rest, k⟩ :: more }, false)) ∧
    (x.ready = ⟨[b], k⟩ :: more → sendByte x = some (b, { x with ready := more }, false)) ∧
    (x.ready = [] → x.readAhead = 0xF3 :: rest → sendByte x = some (0xF3, { x with readAhead := [] }, true)) ∧
    (x.ready = [] → x.readAhead = [] ∨ x.nextStored ≠ none → sendByte x = none)) ∧
  ∀ (n : Fin 4) (s : State), (s.stream n).serving = true →
    (∀ b y, sendByte (s.stream n) = some (b, y, false) →
      (s.serveSendByte n).1 = b ∧
        (s.serveSendByte n).2 = { s with
          streams := s.streams.set n y, ctl := s.ctl.rewritten (s.serveSendByte n).2 s.ctl.notices }) ∧
    (∀ b y, sendByte (s.stream n) = some (b, y, true) →
      (s.serveSendByte n).1 = b ∧
        ((s.stream n).state = .open →
          (s.serveSendByte n).2 = { s with
            streams := s.streams.set n { y with state := .pageEnd },
            ctl := s.ctl.rewritten (s.serveSendByte n).2 s.ctl.notices }) ∧
        ((s.stream n).state = .draining →
          (s.serveSendByte n).2 = { s with
            streams := s.streams.set n { y with drain := .ended },
            ctl := s.ctl.rewritten (s.serveSendByte n).2 (s.ctl.notices ||| Notice.stream.bit) })) ∧
    (∀ k, s.serveSend n 0 = ([], s) ∧
      s.serveSend n (k + 1) =
        ((s.serveSendByte n).1 :: ((s.serveSendByte n).2.serveSend n k).1, ((s.serveSendByte n).2.serveSend n k).2)) ∧
    ((s.stream n).takesRepeat = false → (s.stream n).nextStored ≠ none → (s.ctx (.line n)).isOpen = true →
      (s.ctx (.line n)).job = .none →
      s.sendService n = { s with coder := { s.coder with
        contexts := s.coder.contexts.set (StreamId.index (.line n)) { s.ctx (.line n) with job := .queued .expand } } })

/-- R13: at the expiry of the hold limit the held access completes: a read returns 0x00 in every byte, a write is dropped;
the window's stream counts the expiry, HOLD is raised, and a receive stream's line in collection is marked lost. (The
time is log entry 2.) -/
def Obligations.HoldExpires : Prop :=
  ∀ (h : HeldAccess) (w : Fin 6) (s : State), s.path.held = some h → h.window = some w →
    ∃ t : State, exec .holdExpiry s = .next t.settleStep ∧
      t = { s with
        now := max s.now (h.start + h.limit), scan := t.scan, print := t.print, streams := t.streams,
        path := { s.path with
          held := none,
          answer := some (match h.access with
            | .read r => .read (List.replicate r.size.bytes 0)
            | .write _ => .written) },
        ctl := s.ctl.rewritten t (s.ctl.notices ||| Notice.hold.bit) } ∧
      t.scan = { s.scan with
        expiries := if windowStream w = .scan then saturate 65535 s.scan.expiries else s.scan.expiries } ∧
      t.print = { s.print with
        expiries := if windowStream w = .print then saturate 65535 s.print.expiries else s.print.expiries } ∧
      ∀ n, t.stream n = { s.stream n with
        expiries := if windowStream w = .line n then saturate 65535 (s.stream n).expiries else (s.stream n).expiries,
        collecting := { (s.stream n).collecting with
          lost := (s.stream n).collecting.lost ||
            (decide (windowStream w = .line n) && isWrite h.access && decide (h.reason = .receiveFull)) } }

/-! ## Completions on the memory port and of the coder (chapters 1 to 4, 8, 9, 11) -/

/-- R22: the mask read's completion takes the mask; the port is free. R25, R26, R27, R42: the tail read's completion takes a
tail that is below 64 and at most 32 ahead of the head, makes the ring READY and begins the next command; another tail
is a ring error; in reset teardown none is taken. (A read that completes in teardown is log entry 16.) R38: in teardown a
completion of the control unit counts toward its end. At their grants the two reads take the four bytes of their words. -/
def Obligations.MaskAndTailReadsComplete : Prop :=
  (∀ (p : PortRequest) (s : State), s.path.port = some p → p.kind = .maskRead →
    exec .maskReadComplete s = .next ({ s with
      path := { s.path with port := none },
      ctl := { s.ctl with
        mask := BitVec.ofNat 12 (leValue p.bytes), teardown := Teardown.counted s.ctl.teardown } } : State).settleStep) ∧
  (∀ (p : PortRequest) (s : State), s.path.port = some p → p.kind = .tailRead →
    let v := leValue p.bytes
    let ahead := (BitVec.ofNat 6 v - s.ctl.head).toNat
    (s.ctl.teardown ≠ none →
      exec .tailReadComplete s = .next ({ s with
        path := { s.path with port := none },
        ctl := { s.ctl with teardown := Teardown.counted s.ctl.teardown } } : State).settleStep) ∧
    (s.ctl.teardown = none → v < 64 → ahead ≤ 32 →
      ∃ t : State, exec .tailReadComplete s = .next t.settleStep ∧
        t = { s with
          path := { s.path with port := none },
          ctl := { s.ctl with
            takenTail := BitVec.ofNat 6 v, ring := .ready, queue := t.ctl.queue,
            inProgress := if s.ctl.inProgress = none ∧ 1 ≤ ahead then some ⟨s.ctl.head, .reading⟩ else s.ctl.inProgress } } ∧
        (s.ctl.inProgress = none → 1 ≤ ahead → QueueEntry.slotRead ∈ t.ctl.queue)) ∧
    (s.ctl.teardown = none → ¬(v < 64 ∧ ahead ≤ 32) →
      ∃ t : State, exec .tailReadComplete s = .next t.settleStep ∧
        t = { s with
          path := { s.path with port := none },
          ctl := { s.ctl with
            ring := .halted, ringErrors := saturate 65535 s.ctl.ringErrors, queue := t.ctl.queue,
            notices := s.ctl.notices ||| Notice.command.bit } } ∧
        QueueEntry.record .counters ∈ t.ctl.queue)) ∧
  (∀ (rest : List QueueEntry) (s : State), s.grantsNext .control →
    (s.ctl.queue = .maskRead :: rest →
      s.grantPort = { s with
        ctl := { s.ctl with queue := rest },
        path := s.path.granted .control .maskRead (s.path.controlBase.toNat + 0x0004)
          (Memory.readBytes s.mem (s.path.controlBase.toNat + 0x0004) 4) }) ∧
    (s.ctl.queue = .tailRead :: rest →
      s.grantPort = { s with
        ctl := { s.ctl with queue := rest },
        path := s.path.granted .control .tailRead (s.path.controlBase.toNat + 0x0400)
          (Memory.readBytes s.mem (s.path.controlBase.toNat + 0x0400) 4) })) ∧
  ∀ k, Teardown.counted none = none ∧ Teardown.counted (some .storeWork) = some .storeWork ∧
    Teardown.counted (some (.rewriting (k + 1))) = some (.rewriting k)

/-- R27, R28: the slot read's completion executes the command that the slot's bytes spell at its owner, once, and queues its
result write behind the rewrites it caused; a read that reset teardown found on the port executes nothing. R27: the
result write's completion stores the result, advances the head, raises COMMAND and begins the next command that waits;
with no command in progress it stores its bytes alone. (The arbiter's run is log entry 6.) In teardown both count toward its
end. R14, R27, R35: at its grant the slot read takes the 48 argument bytes of the head's slot, and the result write stands
at the slot's byte 48. R200: the command that argument bytes spell, by their first, with its fields little-endian. R201:
the 16 bytes of a result. -/
def Obligations.RingSlotsComplete : Prop :=
  (∀ (p : PortRequest) (s : State), s.path.port = some p →
    (∀ c, p.kind = .slotRead true → s.ctl.inProgress = some c →
      let d := ({ s with path := { s.path with port := none } } : State).ringCommand (slotCommand p.bytes)
      ∃ t : State, exec .slotReadComplete s = .next t.settleStep ∧
        t = { d.state.runDueArbiter with ctl := { d.state.runDueArbiter.ctl with
          inProgress := some ⟨c.count, .executed⟩, lastResult := some d.result, queue := t.ctl.queue } } ∧
        (QueueEntry.resultWrite (c.count.toNat % 32) (resultBytes c.count d.result) ∉ d.state.runDueArbiter.ctl.queue →
          t.ctl.queue = d.state.runDueArbiter.ctl.queue ++
            [.resultWrite (c.count.toNat % 32) (resultBytes c.count d.result)])) ∧
    (p.kind = .slotRead false →
      exec .slotReadComplete s = .next ({ s with
        path := { s.path with port := none },
        ctl := { s.ctl with teardown := Teardown.counted s.ctl.teardown } } : State).settleStep)) ∧
  (∀ (p : PortRequest) (s : State), s.path.port = some p → p.kind = .resultWrite →
    let stored : State := { s with
      mem := Memory.writeBytes s.mem p.addr p.bytes, path := { s.path with port := none },
      ctl := { s.ctl with teardown := Teardown.counted s.ctl.teardown } }
    let waiting := (s.ctl.takenTail - (s.ctl.head + 1)).toNat
    (s.ctl.inProgress = none → exec .resultWriteComplete s = .next stored.settleStep) ∧
    (s.ctl.inProgress ≠ none →
      ∃ t : State, exec .resultWriteComplete s = .next t.settleStep ∧
        t = { stored with
          ctl := { stored.ctl with
            head := s.ctl.head + 1, notices := s.ctl.notices ||| Notice.command.bit, queue := t.ctl.queue,
            inProgress :=
              if s.ctl.ring = .ready ∧ 1 ≤ waiting ∧ waiting ≤ 32 ∧ s.ctl.teardown = none
              then some ⟨s.ctl.head + 1, .reading⟩ else none } } ∧
        QueueEntry.record .statusWords ∈ t.ctl.queue)) ∧
  (∀ (rest : List QueueEntry) (s : State), s.grantsNext .control →
    (s.ctl.queue = .slotRead :: rest →
      let a := s.path.controlBase.toNat + (0x0800 + 64 * (s.ctl.head.toNat % 32))
      s.grantPort = { s with
        ctl := { s.ctl with queue := rest },
        path := s.path.granted .control (.slotRead true) a (Memory.readBytes s.mem a 48) }) ∧
    ∀ slot bytes, s.ctl.queue = .resultWrite slot bytes :: rest →
      s.grantPort = { s with
        ctl := { s.ctl with queue := rest },
        path := s.path.granted .control .resultWrite (s.path.controlBase.toNat + (0x0800 + 64 * slot) + 48) bytes }) ∧
  (∀ l : List Byte,
    let f (w i : Nat) : BitVec w := BitVec.ofNat w (leValue ((l.drop i).take (w / 8)))
    (l.head? = some 0x01 → slotCommand l = .storeSetup (f 32 4) (f 16 8) (f 32 12) (f 16 16)) ∧
    (l.head? = some 0x02 → slotCommand l = .timeSet (f 16 4) (f 8 6) (f 32 8)) ∧
    (l.head? = some 0x03 → slotCommand l = .periodSet (f 8 4) (f 8 5) (f 8 6) (f 32 8)) ∧
    (l.head? = some 0x04 → slotCommand l = .tariffSet (f 8 4) (f 16 8) (f 16 10) (f 16 12) (f 16 14)) ∧
    (l.head? = some 0x05 → slotCommand l = .prefixSet (f 8 4) (f 8 5) (f 8 6) (f 8 7) (f 64 8)) ∧
    (l.head? = some 0x06 → slotCommand l = .accountSet (f 8 4) (f 8 5) (f 8 6) (f 16 8) (f 32 12)) ∧
    (l.head? = some 0x07 → slotCommand l = .accountClear (f 8 4)) ∧
    (l.head? = some 0x08 → slotCommand l = .lineSetup (f 8 4)
        { direction := f 8 8, dialMethod := f 8 9, chargeMethod := f 8 10, rings := f 8 11, seizeDelay := f 8 12,
          noAnswer := f 8 13, clearGuard := f 8 14, pauseLength := f 8 15, toneOn := f 16 16, toneGap := f 16 18 }) ∧
    (l.head? = some 0x10 → slotCommand l = .docCreate (f 8 4) (f 8 5) (f 8 6) (f 8 7) (f 8 8) (f 8 9) (f 8 10)
        { second := f 32 16, day := f 16 20, present := f 8 22 }) ∧
    (l.head? = some 0x11 → slotCommand l = .destAdd (f 8 4) { count := f 8 8, chars := f 96 9 }) ∧
    (l.head? = some 0x12 → slotCommand l = .docRelease (f 8 4)) ∧
    (l.head? = some 0x13 → slotCommand l = .docCancel (f 8 4)) ∧
    (l.head? = some 0x14 → slotCommand l = .destCancel (f 16 4)) ∧
    (l.head? = some 0x15 → slotCommand l = .docDelete (f 8 4)) ∧
    (l.head? = some 0x16 → slotCommand l = .printFirst (f 8 4)) ∧
    (l.head? = some 0x20 → slotCommand l = .scanOpen (f 8 4) (f 8 5) (f 8 6)) ∧
    (l.head? = some 0x21 → slotCommand l = .pageCut) ∧
    (l.head? = some 0x22 → slotCommand l = .scanResume) ∧
    (l.head? = some 0x23 → slotCommand l = .scanClose) ∧
    (l.head? = some 0x24 → slotCommand l = .printOpen) ∧
    (l.head? = some 0x25 → slotCommand l = .printNext) ∧
    (l.head? = some 0x26 → slotCommand l = .printClose) ∧
    (l.head? = some 0x27 → slotCommand l = .sendOpen (f 8 4) (f 8 5) (f 8 6)) ∧
    (l.head? = some 0x28 → slotCommand l = .pageResult (f 8 4) (f 8 5)) ∧
    (l.head? = some 0x29 → slotCommand l = .receiveOpen (f 8 4) (f 8 5) (f 8 6)) ∧
    (l.head? = some 0x2A → slotCommand l = .streamClose (f 8 4)) ∧
    (l.head? = some 0x30 → slotCommand l = .callAnswer (f 8 4)) ∧
    (l.head? = some 0x31 → slotCommand l = .answerSeen (f 8 4)) ∧
    (l.head? = some 0x32 → slotCommand l = .callEnd (f 8 4) (f 8 5)) ∧
    (l.head? = some 0x38 → slotCommand l = .logRelease (f 16 4)) ∧
    (∀ b, l.head? = some b →
      b ∉ ([0x01, 0x02, 0x03, 0x04, 0x05, 0x06, 0x07, 0x08, 0x10, 0x11, 0x12, 0x13, 0x14, 0x15, 0x16, 
        0x20, 0x21, 0x22, 0x23, 0x24, 0x25, 0x26, 0x27, 0x28, 0x29, 0x2A, 0x30, 0x31, 0x32, 0x38] : List Byte) → slotCommand l = .unknownCommand b)) ∧
  ∀ (count : BitVec 6) (r : CommandResult), r.data.length ≤ 14 →
    resultBytes count r = [BitVec.ofNat 8 r.code.code, count.zeroExtend 8] ++
      (if r.code = .ok then r.data ++ List.replicate (14 - r.data.length) 0 else List.replicate 14 0)

/-- R72, R74: a store write's completion stores its bytes; the one that carries a page's END-OF-PAGE makes that page
CLOSED with its check and raises STREAM, here while the page's document goes on building. R94: a CLOSING scan stream with
no line and no page left is then CLOSED. A close that waited for this one is taken (log entry 14). R14: a store write is
issued with the next bytes of its stream's coded queue, the closing page's first, as many as it can carry: at most 64 and
not past the block's end; while it is queued it keeps them, and bytes placed meanwhile wait for the next one. R17, R72: at
its grant they go to the place of the page's byte they are, are folded into the check and leave the queue; a line's write
is granted before a read that the line has to make (log entry 45). -/
def Obligations.StoreWriteClosesThePage : Prop :=
  (∀ (p : PortRequest) (w : Writer) (page : Fin 512) (ends : Bool) (s : State), s.path.port = some p →
    p.kind = .storeWrite w page ends →
    let stored : State := { s with
      mem := Memory.writeBytes s.mem p.addr p.bytes, path := { s.path with port := none } }
    (ends = false → exec .storeWriteComplete s = .next stored.settleStep) ∧
    (∀ h, ends = true → (s.slot w).closing = some h → h.page = page → (s.slot w).asked = none →
      (s.doc (s.page page).document).building = true → (w = .scan → s.scan.state ≠ .closing) →
      ∃ t : State, exec .storeWriteComplete s = .next t.settleStep ∧
        t.page page = { s.page page with state := .closed, closing := false, check := h.check } ∧
        (∀ q, q ≠ page → t.page q = s.page q) ∧ t.slot w = { s.slot w with closing := none } ∧
        t.isPending .stream = true ∧ t.mem = stored.mem ∧ t.path.port = none ∧ t.store.freeList = s.store.freeList ∧
        t.dispatch = s.dispatch ∧ t.lines = s.lines ∧ t.charge = s.charge) ∧
    (∀ h g flags, ends = true → (s.slot w).closing = some h → h.page = page → (s.slot w).writing = some g →
      (s.slot w).asked = some flags → g.page ≠ page → (s.doc (s.page page).document).building = true →
      (w = .scan → s.scan.state ≠ .closing ∧ s.scan.heldBytes = 0) →
      ∃ t : State, exec .storeWriteComplete s = .next t.settleStep ∧
        t.page page = { s.page page with state := .closed, closing := false, check := h.check } ∧
        t.page g.page = { s.page g.page with
          closing := true, byteCount := (s.page g.page).byteCount + 1, short := (s.page g.page).short || flags.short,
          truncated := (s.page g.page).truncated || flags.truncated, poor := (s.page g.page).poor || flags.poor } ∧
        t.slot w = { writing := none, asked := none, closing := some { g with queued := g.queued ++ [0xF3] } } ∧
        t.isPending .stream = true ∧ t.mem = stored.mem) ∧
    ∀ h, ends = true → (s.slot w).closing = some h → h.page = page → w = .scan → (s.slot w).writing = none →
      (s.slot w).asked = none → s.scan.state = .closing → s.scan.anyFull = false → (s.ctx .scan).job = .none →
      ∃ t : State, exec .storeWriteComplete s = .next t.settleStep ∧ t.scan.state = .closed ∧
        (t.ctx .scan).isOpen = false ∧ (t.doc s.scan.document).building = false ∧ t.isPending .stream = true ∧
        t.mem = stored.mem) ∧
  (∀ (w : Writer) (h : PageInHand) (closing : Bool) (s : State), (s.slot w).next = some (h, closing) →
    let r := s.page h.page
    let i := r.byteCount - h.queued.length
    let most := min (min 64 h.queued.length) (1024 - i % 1024)
    let n := match s.path.storeWrites.get w.index with
      | some q => if q.page = h.page then q.size else most
      | none => most
    let after : PageInHand := { h with
      queued := h.queued.drop n, check := (h.queued.take n).foldl foldByte h.check }
    (s.grantsNext w.requester →
      s.grantPort = { s with
        store := { s.store with
          slots := s.store.slots.set w.index
            (if closing = true then { s.slot w with closing := some after } else { s.slot w with writing := some after }) },
        path := s.path.granted w.requester (.storeWrite w h.page (closing && decide (h.queued.length ≤ n)))
          (s.store.base + 1024 * r.chain.getD (i / 1024) 0 + i % 1024) (h.queued.take n) }) ∧
    let t := s.issueRequests
    (s.onPort w.requester = false → w.requester ∈ t.path.requests) ∧
      (w.requester ∈ t.path.requests → t.path.storeWrites.get w.index = some ⟨h.page, n⟩)) ∧
  (∀ (w : Writer) (s : State),
    let t := s.issueRequests
    t = { s with path := { s.path with requests := t.path.requests, storeWrites := t.path.storeWrites } } ∧
      ((s.slot w).next = none ∨ w.requester ∉ t.path.requests → t.path.storeWrites.get w.index = none)) ∧
  ∀ (x : WriterSlot) (h : PageInHand),
    (x.next = some (h, true) ↔ x.closing = some h ∧ h.queued ≠ []) ∧
    (x.next = some (h, false) ↔ (∀ g, x.closing = some g → g.queued = []) ∧ x.writing = some h ∧ h.queued ≠ [])

/-- R18, R144, R147, R163: the bytes of a store read reach the stream that asked for them: they join its read-ahead bytes
and, for a send stream, its check, which is compared with the page record's as the page's END-OF-PAGE, or its last byte
(log entry 17), arrives; a mismatch stalls the stream, marks the page DAMAGED and sets the forced cause. A read whose
stream has let it go delivers nothing. (The drain phase of the mismatch is log entry 41.) R44: the END-OF-PAGE is the first
byte 0xF3 in token position; an extension is passed over. R14, R144, R163: at its grant a store read takes the page's bytes
from the stream's read position on, at most 64 and not past the block's end or the byte count. -/
def Obligations.StoreReadReachesItsStream : Prop :=
  (∀ (p : PortRequest) (s : State), s.path.port = some p →
    (p.kind = .storeRead false →
      exec .storeReadComplete s = .next ({ s with path := { s.path with port := none } } : State).settleStep) ∧
    (p.kind = .storeRead true → p.requester = .print →
      exec .storeReadComplete s = .next ({ s with
        path := { s.path with port := none },
        print := { s.print with
          readAhead := s.print.readAhead ++ p.bytes, readPos := s.print.readPos + p.bytes.length } } : State).settleStep) ∧
    ∀ n, p.kind = .storeRead true → p.requester = .line n →
      let x := s.stream n
      let record := s.page x.page
      let found := throughPageEnd x.inExtension (x.readAhead ++ p.bytes)
      (found = none → x.readPos + p.bytes.length ≠ record.byteCount →
        exec .storeReadComplete s = .next ({ s with
          path := { s.path with port := none },
          streams := s.streams.set n { x with
            readAhead := x.readAhead ++ p.bytes, readPos := x.readPos + p.bytes.length,
            check := x.check.map fun c => p.bytes.foldl foldByte c } } : State).settleStep) ∧
      ∀ new, found = some (x.readAhead ++ new) ∨
          (found = none ∧ x.readPos + p.bytes.length = record.byteCount ∧ new = p.bytes) →
        let folded := x.check.map fun c => new.foldl foldByte c
        (folded = some record.check →
          exec .storeReadComplete s = .next ({ s with
            path := { s.path with port := none },
            streams := s.streams.set n { x with
              readAhead := x.readAhead ++ new, readPos := x.readPos + new.length, check := none } } : State).settleStep) ∧
        (folded ≠ some record.check →
          ∃ t : State, exec .storeReadComplete s = .next t.settleStep ∧
            t.stream n = { x with
              state := .stalled, stall := .damaged, drain := .none, forced := true, readAhead := [], ready := [],
              check := none, readPos := x.readPos + new.length } ∧
            (∀ m, m ≠ n → t.stream m = s.stream m) ∧
            t.page x.page = (if record.state = .closed then { record with damaged := true } else record) ∧
            (∀ q, q ≠ x.page → t.page q = s.page q) ∧ t.isPending .stream = true ∧ t.mem = s.mem ∧
            t.path = { s.path with port := none } ∧ t.lines = s.lines ∧ t.dispatch = s.dispatch ∧ t.charge = s.charge)) ∧
  (∀ (b c : Byte) (l : List Byte),
    throughPageEnd false (0xF3 :: l) = some [0xF3] ∧ throughPageEnd false [] = none ∧
    (0xC0 ≤ b.toNat → b.toNat ≤ 0xEF →
      throughPageEnd false (b :: c :: l) = (throughPageEnd false l).map (fun m => b :: c :: m)) ∧
    (¬(0xC0 ≤ b.toNat ∧ b.toNat ≤ 0xEF) → b ≠ 0xF3 →
      throughPageEnd false (b :: l) = (throughPageEnd false l).map (fun m => b :: m)) ∧
    throughPageEnd true (c :: l) = (throughPageEnd false l).map (fun m => c :: m) ∧
    ∀ e m, throughPageEnd e l = some m → ∃ pre rest, m = pre ++ [0xF3] ∧ l = m ++ rest) ∧
  ∀ s : State,
    let taken (q : Requester) (r : PageRecord) (readPos byteCount : Nat) : Prop :=
      let n := min (min 64 (byteCount - readPos)) (1024 - readPos % 1024)
      let a := s.store.base + 1024 * r.chain.getD (readPos / 1024) 0 + readPos % 1024
      s.grantPort = { s with path := s.path.granted q (.storeRead true) a (Memory.readBytes s.mem a n) }
    (s.grantsNext .print → taken .print (s.page s.print.page) s.print.readPos s.print.byteCount) ∧
    ∀ n, s.grantsNext (.line n) → (s.slot (.line n)).next = none →
      let r := s.page (s.stream n).page
      taken (.line n) r (s.stream n).readPos r.byteCount

/-- R195: a charge record's write completes: the record leaves the queue, its bytes stand in the log and the write index
gains 1. At its grant the write carries the 64 bytes of the record at the head of the record queue, to the slot of its
index in the log. Section 12.6, R199: where each field of a record stands in its 64 bytes, little-endian, and that the
other bytes are zero. -/
def Obligations.ChargeRecordIsWritten : Prop :=
  (∀ (p : PortRequest) (s : State), s.path.port = some p → p.kind = .chargeWrite →
    ∃ t : State, exec .chargeRecordWriteComplete s = .next t.settleStep ∧
      t = { s with
        mem := Memory.writeBytes s.mem p.addr p.bytes, path := { s.path with port := none },
        charge := { s.charge with recordQueue := s.charge.recordQueue.tail, writeIndex := s.charge.writeIndex + 1 },
        ctl := s.ctl.rewritten t s.ctl.notices } ∧
      QueueEntry.record .counters ∈ t.ctl.queue) ∧
  (∀ (r : ChargeRecord) (rest : List ChargeRecord) (s : State), s.grantsNext .charge → s.charge.recordQueue = r :: rest →
    s.grantPort = { s with
      path := s.path.granted .charge .chargeWrite (s.store.logBase + 64 * (r.index.toNat % 1024)) r.bytes }) ∧
  ∀ r : ChargeRecord, r.number.length ≤ 24 →
    let field (i n : Nat) : Nat := leValue ((r.bytes.drop i).take n)
    r.bytes.length = 64 ∧ field 0 2 = r.index.toNat ∧ field 2 1 = r.line.val ∧
      field 3 1 = (if r.incoming = true then 2 else 1) ∧ field 4 2 = r.code % 65536 ∧
      field 6 1 = (match r.document with | some d => d.val | none => 255) ∧ field 7 1 = r.band.val ∧
      field 8 1 = r.method.code ∧ field 9 1 = r.cause.code ∧
      field 10 1 = (if r.timeValid = true then 1 else 0) + (if r.answerTime = none then 0 else 2) ∧
      field 11 1 = r.pagesConfirmed % 256 ∧ field 12 2 = min 65535 r.rejected ∧ field 14 2 = 0 ∧
      field 16 4 = r.seizeTime.second % 4294967296 ∧ field 20 2 = r.seizeTime.day.toNat ∧
      field 22 4 = r.endTime.second % 4294967296 ∧ field 26 2 = r.endTime.day.toNat ∧
      (∀ a, r.answerTime = some a → field 28 4 = a.second % 4294967296 ∧ field 32 2 = a.day.toNat) ∧
      (r.answerTime = none → field 28 6 = 0) ∧ field 34 2 = 0 ∧ field 36 4 = r.seconds.toNat ∧
      field 40 4 = r.units.toNat ∧ field 44 1 = r.number.length ∧
      (∀ (i : Nat) (h : i < r.number.length), field (45 + i / 2) 1 / 16 ^ (i % 2) % 16 = r.number[i].code) ∧
      (∀ i, i < 24 → r.number.length ≤ i → field (45 + i / 2) 1 / 16 ^ (i % 2) % 16 = 0) ∧ field 57 7 = 0

/-- R45, R47, R49, R50: the encoder's line for any pixels of a width is a valid line of that width, clipped or not; and one
that was not clipped decodes to the very pixels, whatever the reference line. -/
def Obligations.LineCodeRoundTrip : Prop :=
  ∀ (w : Width) (pixels reference : List Bool), pixels.length = w.pixels →
    lineValid w (encodeRuns 0 (runs pixels)).1 = true ∧
      ((encodeRuns 0 (runs pixels)).2 = false →
        decodeLine w reference (encodeRuns 0 (runs pixels)).1 = (pixels, false))

/-- R54, R70, R87: an ENCODE job's completion frees its raw buffer and places the coded line on the page being written,
where it fits; the context takes the job's reference line and REPEAT run. R63, R65, R67: a line that does not fit takes
the next block, STORELOW raised on the fall to the reserve. R91, R94: refused for want of a block, the line and what the
buffers hold are discarded, their bytes the trailing count; a page with lines is closed SHORT, one without is freed; and
the stream is STARVED with BLOCK, STREAM raised, or stays CLOSING. R88: the 4,096th line closes its page; bytes still held
open the next one at once, or starve the stream. R89: the line marked by a cut closes its page, and the stream is OPEN.
R94: in CLOSING the last line held closes its page. (A close asked for while another page is being closed is log entry
14.) R48, R54: what an ENCODE job hands back: REPEAT while K allows it and the pixels are the reference line's, else the
line's runs, clipped where R49 clips them, the pixels they decode to being the new reference line and the REPEAT run 0. -/
def Obligations.EncodeCompletes : Prop :=
  (∀ (h : PageInHand) (raw : List Byte) (s : State), s.coder.engine = some ⟨.scan, .encode, true⟩ →
    (s.slot .scan).page = some h → s.scan.buffer s.scan.first = .full raw →
    let e := encodeLine (s.ctx .scan) raw
    let r := s.page h.page
    let fits : Prop := r.byteCount + e.bytes.length + 1 ≤ 1024 * r.chain.length
    let line : PageRecord := { r with lineCount := r.lineCount + 1, byteCount := r.byteCount + e.bytes.length }
    let left : ScanStream := { s.scan.setBuffer s.scan.first .empty with
      first := s.scan.first.other, clipped := if e.clipped then saturate 65535 s.scan.clipped else s.scan.clipped }
    let coder : Coder := { s.coder with
      engine := none,
      contexts := s.coder.contexts.set (StreamId.index .scan) { s.ctx .scan with
        reference := e.reference, repeatRun := e.repeatRun, job := .none } }
    let ended : WriterSlot :=
      { writing := none, asked := none, closing := some { h with queued := h.queued ++ e.bytes ++ [0xF3] } }
    let closed : PageRecord := { line with closing := true, byteCount := r.byteCount + e.bytes.length + 1 }
    r.truncated = false →
    (s.scan.state = .open → r.lineCount + 1 < 4096 → fits →
      ∃ t : State, exec .encodeComplete s = .next t.settleStep ∧
        t = { s with
          store := { s.store with
            pages := s.store.pages.set h.page line,
            slots := s.store.slots.set Writer.scan.index { s.slot .scan with
              writing := some { h with queued := h.queued ++ e.bytes } } },
          coder := coder, scan := left, ctl := s.ctl.rewritten t s.ctl.notices } ∧
        QueueEntry.record (.page h.page) ∈ t.ctl.queue) ∧
    (∀ b rest, s.scan.state = .open → r.lineCount + 1 < 4096 → ¬fits → s.store.freeList = b :: rest →
      s.store.reserve < s.freeBlocks →
      ∃ t : State, exec .encodeComplete s = .next t.settleStep ∧
        t = { s with
          store := { s.store with
            freeList := rest, pages := s.store.pages.set h.page { line with chain := r.chain ++ [b] },
            slots := s.store.slots.set Writer.scan.index { s.slot .scan with
              writing := some { h with queued := h.queued ++ e.bytes } } },
          coder := coder, scan := left,
          ctl := s.ctl.rewritten t
            (if s.freeBlocks = s.store.reserve + 1 then s.ctl.notices ||| Notice.storeLow.bit else s.ctl.notices) }) ∧
    (r.lineCount ≠ 4096 → ¬fits → s.freeBlocks ≤ s.store.reserve → (s.slot .scan).closing = none →
      let discarded : ScanStream := { left.emptied with trailing := s.scan.width.rawBytes + left.heldBytes }
      (r.lineCount ≠ 0 →
        ∃ t : State, exec .encodeComplete s = .next t.settleStep ∧
          t = { s with
            store := { s.store with
              pages := s.store.pages.set h.page { r with closing := true, short := true, byteCount := r.byteCount + 1 },
              slots := s.store.slots.set Writer.scan.index
                { writing := none, asked := none, closing := some { h with queued := h.queued ++ [0xF3] } } },
            coder := coder,
            scan := if s.scan.state = .closing then discarded else { discarded with state := .starved, cause := .block },
            ctl := s.ctl.rewritten t
              (if s.scan.state = .closing then s.ctl.notices else s.ctl.notices ||| Notice.stream.bit) }) ∧
      (r.lineCount = 0 → s.scan.state ≠ .closing →
        ∃ t : State, exec .encodeComplete s = .next t.settleStep ∧
          t = { s with
            store := { s.store with
              freeList := s.store.freeList ++ r.chain, pages := s.store.pages.set h.page PageRecord.empty,
              slots := s.store.slots.set Writer.scan.index { s.slot .scan with writing := none } },
            dispatch := { s.dispatch with
              pageLists := s.dispatch.pageLists.set r.document
                ((s.pageList r.document).filter (fun q => decide (q ≠ h.page))) },
            coder := coder, scan := { discarded with state := .starved, cause := .block },
            ctl := s.ctl.rewritten t (s.ctl.notices ||| Notice.stream.bit) })) ∧
    (s.scan.state = .open → r.lineCount + 1 = 4096 → fits → (s.slot .scan).closing = none →
      ∃ u : State,
        u = { s with
          store := { s.store with
            pages := s.store.pages.set h.page closed, slots := s.store.slots.set Writer.scan.index ended },
          coder := coder, scan := left, ctl := s.ctl.rewritten u s.ctl.notices } ∧
        (left.heldBytes = 0 → exec .encodeComplete s = .next u.settleStep) ∧
        (left.heldBytes ≠ 0 →
          (∀ v, u.openPage .scan s.scan.document s.scan.width s.scan.k = .ok v →
            exec .encodeComplete s = .next v.settleStep) ∧
          ∀ cause, u.openPage .scan s.scan.document s.scan.width s.scan.k = .error cause →
            ∃ t : State, exec .encodeComplete s = .next t.settleStep ∧
              t = { u with
                scan := { left.emptied with state := .starved, cause := cause.starve, trailing := left.heldBytes },
                ctl := s.ctl.rewritten t (s.ctl.notices ||| Notice.stream.bit) })) ∧
    ((s.scan.state = .cutting ∧ s.scan.cut = some s.scan.first) ∨ (s.scan.state = .closing ∧ left.anyFull = false) →
      r.lineCount + 1 < 4096 → fits → (s.slot .scan).closing = none →
      ∃ t : State, exec .encodeComplete s = .next t.settleStep ∧
        t = { s with
          store := { s.store with
            pages := s.store.pages.set h.page closed, slots := s.store.slots.set Writer.scan.index ended },
          coder := coder,
          scan := if s.scan.state = .cutting then { left with state := .open, cut := none } else left,
          ctl := s.ctl.rewritten t s.ctl.notices })) ∧
  ∀ (c : LineContext) (raw : List Byte),
    let repeats : Prop := 0 < c.k ∧ rawPixels raw = c.reference ∧ c.repeatRun < c.k
    let coded := encodeRuns 0 (runs (rawPixels raw))
    (repeats → encodeLine c raw =
      { bytes := [0xF0, 0xF1], clipped := false, reference := c.reference, repeatRun := c.repeatRun + 1 }) ∧
    (¬repeats → encodeLine c raw =
      { bytes := coded.1, clipped := coded.2, reference := (decodeLine c.width c.reference coded.1).1, repeatRun := 0 })

/-- R56, R164: a DECODE job's completion fills the buffer it decodes to with the line's pixels, and counts a code error.
R57, R146: an EXPAND job's completion makes its line ready with the padding it needs, and counts a code error. R57: what
an EXPAND job hands back: the reference line's runs in the shortest form for REPEAT, else the stored bytes, their pixels
the new reference line, a line that is not valid being a code error. R52, R58: the coder arbiter leaves an engine that
runs; it takes of the queued jobs a CHECK, the line next after the line served last in its class; else an EXPAND, chosen
likewise; else the print stream's DECODE; else the scan stream's ENCODE; and with none queued nothing. -/
def Obligations.DecodeAndExpandComplete : Prop :=
  (∀ (line rest : List Byte) (s : State), s.coder.engine = some ⟨.print, .decode, true⟩ →
    s.print.nextLine = some (line, rest) →
    let c := s.ctx .print
    let d := decodeLine c.width c.reference line
    ∃ t : State, exec .decodeComplete s = .next t.settleStep ∧
      t = { s with
        coder := { s.coder with
          engine := none,
          contexts := s.coder.contexts.set (StreamId.index .print) { c with reference := d.1, job := .none } },
        print := { s.print.setBuffer s.print.decodingBuffer (.ready (pixelBytes d.1) 0) with
          readAhead := rest, codeErrors := if d.2 then saturate 65535 s.print.codeErrors else s.print.codeErrors },
        ctl := s.ctl.rewritten t s.ctl.notices }) ∧
  (∀ (n : Fin 4) (line rest : List Byte) (s : State), s.coder.engine = some ⟨.line n, .expand, true⟩ →
    (s.stream n).nextStored = some (line, rest) →
    let x := s.stream n
    let e := expandLine (s.ctx (.line n)) line
    ∃ t : State, exec .expandComplete s = .next t.settleStep ∧
      t = { s with
        coder := { s.coder with
          engine := none,
          contexts := s.coder.contexts.set (StreamId.index (.line n)) { s.ctx (.line n) with
            reference := e.reference, job := .none } },
        streams := s.streams.set n { x with
          readAhead := rest,
          ready := x.ready ++ [{ bytes := padLine x.minLine e.bytes, stored := x.readAhead.length - rest.length }],
          codeErrors := if e.codeError then saturate 65535 x.codeErrors else x.codeErrors },
        ctl := s.ctl.rewritten t s.ctl.notices }) ∧
  ((∀ (c : LineContext) (bytes : List Byte),
      (expandLine c [0xF0, 0xF1] = { bytes := expandRuns c.reference, codeError := false, reference := c.reference }) ∧
      (isRepeatLine bytes = true → expandLine c bytes = expandLine c [0xF0, 0xF1]) ∧
      (isRepeatLine bytes = false → expandLine c bytes =
        { bytes := bytes, codeError := !lineValid c.width bytes, reference := (decodeLine c.width c.reference bytes).1 }) ∧
      (isRepeatLine bytes = true ↔ countedTokens bytes = [.repeatLine, .endOfLine])) ∧
    (∀ pixels : List Bool, expandRuns pixels = ((runs pixels).map runBytes).flatten ++ [0xF1]) ∧
    ∀ n, (n < 192 → runBytes n = [BitVec.ofNat 8 n]) ∧
      (192 ≤ n → runBytes n = [BitVec.ofNat 8 (0xC0 + n / 256), BitVec.ofNat 8 (n % 256)])) ∧
  ∀ s : State,
    let has (i : StreamId) (kind : JobKind) : Prop := (s.ctx i).job = .queued kind
    let turn (last n : Fin 4) : Nat := (n.val + 3 - last.val) % 4
    let takes (i : StreamId) (kind : JobKind) (receive send : Fin 4) : Prop := s.arbitrateCoder = { s with coder :=
      { engine := some ⟨i, kind, true⟩, lastReceive := receive, lastSend := send,
        contexts := s.coder.contexts.set i.index { s.ctx i with job := .running kind } } }
    (s.coder.engine ≠ none → s.arbitrateCoder = s) ∧
    (s.coder.engine = none →
      (∀ n, has (.line n) .check →
        (∀ m, m ≠ n → has (.line m) .check → turn s.coder.lastReceive n < turn s.coder.lastReceive m) →
        takes (.line n) .check n s.coder.lastSend) ∧
      ((∀ m, ¬has (.line m) .check) →
        (∀ n, has (.line n) .expand →
          (∀ m, m ≠ n → has (.line m) .expand → turn s.coder.lastSend n < turn s.coder.lastSend m) →
          takes (.line n) .expand s.coder.lastReceive n) ∧
        ((∀ m, ¬has (.line m) .expand) →
          (has .print .decode → takes .print .decode s.coder.lastReceive s.coder.lastSend) ∧
          (¬has .print .decode → has .scan .encode → takes .scan .encode s.coder.lastReceive s.coder.lastSend) ∧
          (¬has .print .decode → ¬has .scan .encode → s.arbitrateCoder = s))))

/-- R55, R154: a CHECK job's completion empties the check buffer and places the line, or REPEAT, END-OF-LINE in place of a
bad one, which the page and the stream count. R65, R67, R70: a line that does not fit takes the next free block, STORELOW
raised on the fall to the reserve. R71, R154: a placement that is refused, at 4,096 lines or with no block free, marks the
page TRUNCATED, and a TRUNCATED page takes no more lines; the stream counts a bad line and nothing else of it. R55: what a
CHECK job hands back: a line that is valid and not marked lost is GOOD, its bytes as collected, its pixels the new
reference line, REPEAT leaving it; any other is BAD, REPEAT, END-OF-LINE in its place, the reference line unchanged. -/
def Obligations.CheckCompletes : Prop :=
  (∀ (n : Fin 4) (l : CollectedLine) (h : PageInHand) (s : State), s.coder.engine = some ⟨.line n, .check, true⟩ →
    (s.stream n).checkBuffer = some l → (s.slot (.line n)).page = some h →
    let x := s.stream n
    let v := checkLine (s.ctx (.line n)) l.bytes l.lost
    let r := s.page h.page
    let fits : Prop := r.byteCount + v.bytes.length + 1 ≤ 1024 * r.chain.length
    let line : PageRecord := { r with
      lineCount := r.lineCount + 1, byteCount := r.byteCount + v.bytes.length,
      badLines := if v.good then r.badLines else r.badLines + 1 }
    let coder : Coder := { s.coder with
      engine := none,
      contexts := s.coder.contexts.set (StreamId.index (.line n)) { s.ctx (.line n) with
        reference := v.reference, job := .none } }
    let checked : LineStream := { x with
      checkBuffer := none, badLines := if v.good then x.badLines else saturate 65535 x.badLines }
    let counted : LineStream := { checked with
      badRun := if v.good then 0 else x.badRun + 1,
      badRunFlag := if v.good then x.badRunFlag else x.badRunFlag || decide (12 ≤ x.badRun + 1) }
    let slots := s.store.slots.set (Writer.index (.line n)) { s.slot (.line n) with
      writing := some { h with queued := h.queued ++ v.bytes } }
    (r.truncated = false → r.lineCount ≠ 4096 → fits →
      ∃ t : State, exec .checkComplete s = .next t.settleStep ∧
        t = { s with
          store := { s.store with pages := s.store.pages.set h.page line, slots := slots },
          coder := coder, streams := s.streams.set n counted, ctl := s.ctl.rewritten t s.ctl.notices }) ∧
    (∀ b rest, r.truncated = false → r.lineCount ≠ 4096 → ¬fits → s.store.freeList = b :: rest →
      ∃ t : State, exec .checkComplete s = .next t.settleStep ∧
        t = { s with
          store := { s.store with
            freeList := rest, pages := s.store.pages.set h.page { line with chain := r.chain ++ [b] }, slots := slots },
          coder := coder, streams := s.streams.set n counted,
          ctl := s.ctl.rewritten t
            (if s.freeBlocks = s.store.reserve + 1 then s.ctl.notices ||| Notice.storeLow.bit else s.ctl.notices) }) ∧
    (r.truncated = false → r.lineCount = 4096 ∨ (¬fits ∧ s.store.freeList = []) →
      ∃ t : State, exec .checkComplete s = .next t.settleStep ∧
        t = { s with
          store := { s.store with pages := s.store.pages.set h.page { r with truncated := true } },
          coder := coder, streams := s.streams.set n checked, ctl := s.ctl.rewritten t s.ctl.notices }) ∧
    (r.truncated = true →
      ∃ t : State, exec .checkComplete s = .next t.settleStep ∧
        t = { s with
          coder := coder, streams := s.streams.set n checked, ctl := s.ctl.rewritten t s.ctl.notices })) ∧
  ∀ (c : LineContext) (bytes : List Byte) (lost : Bool),
    (lineValid c.width bytes = true → lost = false →
      (checkLine c bytes lost).good = true ∧ (checkLine c bytes lost).bytes = bytes ∧
        (checkLine c bytes lost).reference =
          (if isRepeatLine bytes = true then c.reference else (decodeLine c.width c.reference bytes).1)) ∧
    (lineValid c.width bytes = false ∨ lost = true →
      checkLine c bytes lost = { good := false, bytes := [0xF0, 0xF1], reference := c.reference })

/-! ## Ring commands (chapters 2 and 4 to 11) -/

/-- R28: a ring command's row runs the same execution that its slot read runs, and notes its outcome. R23, R28: an unknown
code is BADARG; in PASS every command but the setup commands is REFUSED; in RUNNING STORE SETUP is REFUSED; none of them
changes anything else. While the teardown state is present no ring command is taken: the row changes nothing (the row
form of R40 is log entry 4). -/
def Obligations.RingCommandsTaken : Prop :=
  (∀ (c : Instr) (s : State), c.isRingCommand = true → s.ctl.teardown = none →
    exec c s = .next ((s.ringCommand c).state.noteResult (s.ringCommand c).result).settleStep) ∧
  ((∀ (code : BitVec 8) (s : State), s.ctl.teardown = none →
      exec (.unknownCommand code) s = .next (s.noteResult ⟨.badArg, []⟩).settleStep) ∧
    (∀ (c : Instr) (s : State), c.isRingCommand = true → c.isSetupCommand = false → s.ctl.teardown = none →
      s.ctl.engine = .pass → exec c s = .next (s.noteResult ⟨.refused, []⟩).settleStep) ∧
    ∀ (base log : BitVec 32) (count reserve : BitVec 16) (s : State), s.ctl.teardown = none → s.ctl.engine = .running →
      exec (.storeSetup base count log reserve) s = .next (s.noteResult ⟨.refused, []⟩).settleStep) ∧
  (∀ (c : Instr) (s : State), c.isRingCommand = true → s.ctl.teardown ≠ none → exec c s = .next s.settleStep)

/-- R61, R62, R24, R6: STORE SETUP in PASS. Fields that fail R61 are BADARG; otherwise the engine is RUNNING, the store
holds every block free, every record's rewrite is queued and every window's pending entry is checked again and becomes
active. -/
def Obligations.StoreSetup : Prop :=
  ∀ (base log : BitVec 32) (count reserve : BitVec 16) (s : State), s.ctl.teardown = none → s.ctl.engine = .pass →
    let r := if reserve.toNat = 65535 then s.store.reserve else reserve.toNat
    let control := s.path.controlBase.toNat
    let fits : Prop :=
      base.toNat % 1024 = 0 ∧ 64 ≤ count.toNat ∧ count.toNat ≤ 8192 ∧ log.toNat % 65536 = 0 ∧
        (reserve.toNat ≤ 255 ∨ reserve.toNat = 65535) ∧ r < count.toNat ∧
        base.toNat + count.toNat * 1024 ≤ 67108864 ∧ log.toNat + 65536 ≤ 67108864 ∧
        (base.toNat + count.toNat * 1024 ≤ control ∨ control + 65536 ≤ base.toNat) ∧
        (log.toNat + 65536 ≤ control ∨ control + 65536 ≤ log.toNat) ∧
        (base.toNat + count.toNat * 1024 ≤ log.toNat ∨ log.toNat + 65536 ≤ base.toNat)
    (¬fits → exec (.storeSetup base count log reserve) s = .next (s.noteResult ⟨.badArg, []⟩).settleStep) ∧
    (fits →
      ∃ t : State, exec (.storeSetup base count log reserve) s = .next t.settleStep ∧
        t = { s with
          store := { StoreManager.powerOn with
            base := base.toNat, blockCount := count.toNat, logBase := log.toNat, reserve := r,
            freeList := List.range count.toNat },
          path := { s.path with windows := t.path.windows },
          ctl := { s.ctl with
            engine := .running, queue := t.ctl.queue,
            lastResult := some ⟨.ok, le 2 count.toNat ++ le 2 r⟩ } } ∧
        (∀ x, QueueEntry.record x ∈ t.ctl.queue) ∧
        (∀ w, (s.window w).pending = none → t.window w = s.window w) ∧
        ∀ w e, (s.window w).pending = some e →
          let off := e.refused || t.entryRefused e.base e.sizeCode
          t.window w = { s.window w with
            pending := none,
            active := if off = true ∨ e.sizeCode = 0 then ⟨0, 0⟩ else ⟨e.base, e.sizeCode⟩,
            status := if off = true then .refused else if e.sizeCode = 0 then .off else .active })

/-- R173: TIME SET. R175: a not-before time that the new clock has reached and the old had not, of a document in use and
not COMPLETE with a PENDING destination, raises CLOCK, and the line arbiter runs; with no such time and the period in
force as it was no flag changes. -/
def Obligations.TimeSet : Prop :=
  ∀ (day : BitVec 16) (dayOfWeek : BitVec 8) (second : BitVec 32) (s : State), s.ctl.teardown = none →
    (6 < dayOfWeek.toNat ∨ 86400 ≤ second.toNat →
      exec (.timeSet day dayOfWeek second) s = .next (s.noteResult ⟨.badArg, []⟩).settleStep) ∧
    (dayOfWeek.toNat ≤ 6 → second.toNat < 86400 →
      ∃ t : State, exec (.timeSet day dayOfWeek second) s = .next t.settleStep ∧
        t = { s with
          charge := { s.charge with
            clockSet := true, clock := ⟨day, second.toNat⟩, dayOfWeek := dayOfWeek.toNat,
            dividerDue := s.now + 1000000, period := t.charge.judged },
          dispatch := { s.dispatch with arbiterDue := true },
          ctl := s.ctl.noted t t.ctl.notices .ok [BitVec.ofNat 8 t.charge.period.val] } ∧
        (t.ctl.notices = s.ctl.notices ∨ t.ctl.notices = s.ctl.notices ||| Notice.clock.bit) ∧
        (t.charge.period ≠ s.charge.period → t.isPending .clock = true) ∧ QueueEntry.record .counters ∈ t.ctl.queue ∧
        let passed : Prop := ∃ d b, (s.doc d).inUse = true ∧ (s.doc d).complete = false ∧ (s.doc d).notBefore = some b ∧
          (∃ x, x ∈ (s.doc d).dests ∧ (s.dest x).state = .pending) ∧
          (s.charge.clockSet = false ∨ s.charge.clock.day.toNat < b.day.toNat ∨
            (s.charge.clock.day = b.day ∧ s.charge.clock.second < b.second)) ∧
          ¬(day.toNat < b.day.toNat ∨ (day = b.day ∧ second.toNat < b.second))
        (passed → t.isPending .clock = true) ∧
          (¬passed → t.charge.period = s.charge.period → t.ctl.notices = s.ctl.notices))

/-- R176, R177: PERIOD SET replaces a calendar entry, and the period in force is judged again: of the entries that name the
day of week and have begun, the one with the latest start, the lowest index among equals; 0 with none, or with the clock
not set. -/
def Obligations.PeriodSet : Prop :=
  (∀ (entry daySet period : BitVec 8) (start : BitVec 32) (s : State), s.ctl.teardown = none →
      (8 ≤ entry.toNat ∨ 128 ≤ daySet.toNat ∨ 4 ≤ period.toNat ∨ 86400 ≤ start.toNat →
        exec (.periodSet entry daySet period start) s = .next (s.noteResult ⟨.badArg, []⟩).settleStep) ∧
      ∀ (e : Fin 8) (p : Fin 4), entry.toNat = e.val → period.toNat = p.val → daySet.toNat < 128 → start.toNat < 86400 →
        ∃ t : State, exec (.periodSet entry daySet period start) s = .next t.settleStep ∧
          t = { s with
            charge := { s.charge with
              calendar := s.charge.calendar.set e ⟨daySet.truncate 7, start.toNat, p⟩, period := t.charge.judged },
            ctl := s.ctl.noted t
              (if t.charge.period = s.charge.period then s.ctl.notices else s.ctl.notices ||| Notice.clock.bit) .ok
              [BitVec.ofNat 8 t.charge.period.val] } ∧
          QueueEntry.record .tariff ∈ t.ctl.queue) ∧
    ∀ c : ChargeUnit,
      (c.clockSet = false → c.judged = 0) ∧
      (c.clockSet = true → (∀ e, (c.calendar.get e).qualifies c.dayOfWeek c.clock.second = false) → c.judged = 0) ∧
      ∀ e, c.clockSet = true → (c.calendar.get e).qualifies c.dayOfWeek c.clock.second = true →
        (∀ f, (c.calendar.get f).qualifies c.dayOfWeek c.clock.second = true →
          (c.calendar.get f).start < (c.calendar.get e).start ∨
            ((c.calendar.get f).start = (c.calendar.get e).start ∧ e ≤ f)) →
        c.judged = (c.calendar.get e).period

/-- R178: TARIFF SET. R179: PREFIX SET gives an entry its digits, class and band, or empties it. -/
def Obligations.TariffSetAndPrefixSet : Prop :=
  (∀ (band : BitVec 8) (v0 v1 v2 v3 : BitVec 16) (s : State), s.ctl.teardown = none →
    (8 ≤ band.toNat ∨ 3600 < v0.toNat ∨ 3600 < v1.toNat ∨ 3600 < v2.toNat ∨ 3600 < v3.toNat →
      exec (.tariffSet band v0 v1 v2 v3) s = .next (s.noteResult ⟨.badArg, []⟩).settleStep) ∧
    ∀ b : Fin 8, band.toNat = b.val → v0.toNat ≤ 3600 → v1.toNat ≤ 3600 → v2.toNat ≤ 3600 → v3.toNat ≤ 3600 →
      ∃ (t : State) (row : Table Nat 4), exec (.tariffSet band v0 v1 v2 v3) s = .next t.settleStep ∧
        row.get 0 = v0.toNat ∧ row.get 1 = v1.toNat ∧ row.get 2 = v2.toNat ∧ row.get 3 = v3.toNat ∧
        t = { s with
          charge := { s.charge with grid := s.charge.grid.set b row }, ctl := s.ctl.noted t s.ctl.notices .ok [] } ∧
        QueueEntry.record .tariff ∈ t.ctl.queue) ∧
  (∀ (entry count cls band : BitVec 8) (digits : BitVec 64) (s : State), s.ctl.teardown = none →
    (32 ≤ entry.toNat ∨ 8 < count.toNat ∨
        (∃ i, i < count.toNat ∧ 10 ≤ (digits.extractLsb' (8 * i) 8).toNat) ∨
        (1 ≤ count.toNat ∧ (cls = 0 ∨ 4 < cls.toNat ∨ 8 ≤ band.toNat)) →
      exec (.prefixSet entry count cls band digits) s = .next (s.noteResult ⟨.badArg, []⟩).settleStep) ∧
    ∀ (e : Fin 32) (x : PrefixEntry), entry.toNat = e.val → count.toNat = x.digits.length → x.digits.length ≤ 8 →
      (∀ i (h : i < x.digits.length), (digits.extractLsb' (8 * i) 8).toNat = x.digits[i].val) →
      (if count = 0 then x.cls = 0 ∧ x.band = 0
        else 1 ≤ x.cls ∧ x.cls ≤ 4 ∧ cls.toNat = x.cls ∧ band.toNat = x.band.val) →
      ∃ t : State, exec (.prefixSet entry count cls band digits) s = .next t.settleStep ∧
        t = { s with
          charge := { s.charge with prefixes := s.charge.prefixes.set e x }, ctl := s.ctl.noted t s.ctl.notices .ok [] } ∧
        QueueEntry.record (.prefixEntry e) ∈ t.ctl.queue)

/-- R185, R187: ACCOUNT SET. The charged units and the calls are kept, the at-budget flag is judged again, and BUDGET is
raised as it rises. R187: what the policy does to a context of the account: one without charging or not yet answered is
left; one that is CHARGING on an account at budget under CUT enters GRACE with its grace timer at 30 s; one in GRACE on an
account that is not returns to CHARGING, its grace timer stopped; any other is left. -/
def Obligations.AccountSet : Prop :=
  (∀ (account cls policy : BitVec 8) (code : BitVec 16) (budget : BitVec 32) (s : State), s.ctl.teardown = none →
    (32 ≤ account.toNat ∨ 9999 < code.toNat ∨ 4 < cls.toNat ∨ 1000000 < budget.toNat ∨ 2 ≤ policy.toNat →
      exec (.accountSet account cls policy code budget) s = .next (s.noteResult ⟨.badArg, []⟩).settleStep) ∧
    ∀ a : Fin 32, account.toNat = a.val → code.toNat ≤ 9999 → cls.toNat ≤ 4 → budget.toNat ≤ 1000000 → policy.toNat < 2 →
      ((∃ n c, s.context n = some c ∧ c.account = a ∧ cls.toNat < c.cls) →
        exec (.accountSet account cls policy code budget) s = .next (s.noteResult ⟨.barred, []⟩).settleStep) ∧
      ((∀ n c, s.context n = some c → c.account = a → c.cls ≤ cls.toNat) →
        let full := decide (budget.toNat ≠ 0 ∧ budget.toNat ≤ (s.account a).charged.toNat)
        ∃ t : State, exec (.accountSet account cls policy code budget) s = .next t.settleStep ∧
          t = { s with
            charge := { s.charge with
              accounts := s.charge.accounts.set a { s.account a with
                code := code.toNat, cls := cls.toNat, budget := budget.toNat,
                policy := if policy = 0 then .warn else .cut, atBudget := full },
              contexts := t.charge.contexts },
            dispatch := { s.dispatch with arbiterDue := true },
            ctl := s.ctl.noted t
              (if (s.account a).atBudget = false ∧ full = true then s.ctl.notices ||| Notice.budget.bit else s.ctl.notices)
              .ok [if full then 1 else 0] } ∧
          ∀ n, t.context n = (s.context n).map fun c => if c.account = a then c.policed (t.account a) s.now else c)) ∧
  ∀ (x : Account) (now : Nat) (c : CallContext),
    let cut : Prop := x.atBudget = true ∧ x.policy = .cut
    (c.method = .none ∨ c.phase = .unanswered → c.policed x now = c) ∧
    (c.method ≠ .none → c.phase = .charging →
      (cut → c.policed x now = { c with phase := .grace, graceTimer := some (now + 30000000) }) ∧
      (¬cut → c.policed x now = c)) ∧
    (c.method ≠ .none → c.phase = .grace →
      (cut → c.policed x now = c) ∧ (¬cut → c.policed x now = { c with phase := .charging, graceTimer := none }))

/-- R186: ACCOUNT CLEAR. -/
def Obligations.AccountClear : Prop :=
  ∀ (account : BitVec 8) (s : State), s.ctl.teardown = none → s.ctl.engine = .running →
    (31 < account.toNat → exec (.accountClear account) s = .next (s.noteResult ⟨.badArg, []⟩).settleStep) ∧
    ∀ a : Fin 32, account.toNat = a.val →
      let named : Prop := (∃ n c, s.context n = some c ∧ c.account = a) ∨ ∃ r, r ∈ s.charge.recordQueue ∧ r.account = a
      (named → exec (.accountClear account) s = .next (s.noteResult ⟨.busy, []⟩).settleStep) ∧
      (¬named →
        ∃ t : State, exec (.accountClear account) s = .next t.settleStep ∧
          t = { s with
            charge := { s.charge with
              accounts := s.charge.accounts.set a { s.account a with charged := 0, calls := 0, atBudget := false } },
            dispatch := { s.dispatch with arbiterDue := true }, ctl := s.ctl.noted t s.ctl.notices .ok [] })

/-- R196: LOG RELEASE. -/
def Obligations.LogRelease : Prop :=
  ∀ (count : BitVec 16) (s : State), s.ctl.teardown = none → s.ctl.engine = .running →
    ((s.charge.writeIndex - s.charge.readIndex).toNat < count.toNat →
      exec (.logRelease count) s = .next (s.noteResult ⟨.badArg, []⟩).settleStep) ∧
    (count.toNat ≤ (s.charge.writeIndex - s.charge.readIndex).toNat →
      let index := s.charge.readIndex + count
      let data := le 2 index.toNat ++ le 2 (s.charge.writeIndex - index).toNat
      (count = 0 → exec (.logRelease count) s = .next (s.noteResult ⟨.ok, data⟩).settleStep) ∧
      (count ≠ 0 →
        ∃ t : State, exec (.logRelease count) s = .next t.settleStep ∧
          t = { s with
            charge := { s.charge with readIndex := index }, dispatch := { s.dispatch with arbiterDue := true },
            ctl := s.ctl.noted t s.ctl.notices .ok data } ∧
          QueueEntry.record .counters ∈ t.ctl.queue))

/-- R117, R118: LINE SETUP: settings out of range are BADARG; an IDLE line takes them at once, DISABLED OFF where its
direction is OFF; a DISABLED line takes them and is IDLE unless its direction is OFF; any other line keeps them pending.
(That a line that enters DISABLED stops its ring qualifier, ring cycle and meter timing is log entry 25.) -/
def Obligations.LineSetup : Prop :=
  ∀ (line : BitVec 8) (f : SettingsField) (s : State), s.ctl.teardown = none →
    (4 ≤ line.toNat ∨ settingsOperand f = none →
      exec (.lineSetup line f) s = .next (s.noteResult ⟨.badArg, []⟩).settleStep) ∧
    (∀ x, settingsOperand f = some x ↔
      f.direction = BitVec.ofNat 8 x.direction.code ∧ f.dialMethod = BitVec.ofNat 8 x.dialMethod.code ∧
        f.chargeMethod = BitVec.ofNat 8 x.chargeMethod.code ∧
        f.rings.toNat = x.rings ∧ x.rings ≤ 9 ∧ f.seizeDelay.toNat = x.seizeDelay ∧ 1 ≤ x.seizeDelay ∧ x.seizeDelay ≤ 8 ∧
        f.noAnswer.toNat = x.noAnswer ∧ 20 ≤ x.noAnswer ∧ x.noAnswer ≤ 180 ∧
        f.clearGuard.toNat = x.clearGuard ∧ 1 ≤ x.clearGuard ∧ x.clearGuard ≤ 10 ∧
        f.pauseLength.toNat = x.pauseLength ∧ 1 ≤ x.pauseLength ∧ x.pauseLength ≤ 10 ∧
        f.toneOn.toNat = x.toneOn ∧ 50 ≤ x.toneOn ∧ x.toneOn ≤ 200 ∧
        f.toneGap.toNat = x.toneGap ∧ 50 ≤ x.toneGap ∧ x.toneGap ≤ 200) ∧
    ∀ (n : Fin 4) (x : LineSettings), line.toNat = n.val → settingsOperand f = some x →
      let u := s.lineUnit n
      ∃ t : State, exec (.lineSetup line f) s = .next t.settleStep ∧
        t = { s with
          lines := s.lines.set n (t.lineUnit n),
          dispatch := { s.dispatch with
            arbiterDue := s.dispatch.arbiterDue ||
              (decide (u.record.state = .idle ∨ u.record.state = .disabled) && decide (x.direction ≠ .off)) },
          ctl := s.ctl.noted t s.ctl.notices .ok
            [if u.record.state = .idle ∨ u.record.state = .disabled then 1 else 0] } ∧
        t.lineUnit n =
          match u.record.state with
          | .idle =>
            if x.direction = .off then { u.quiet with record := { u.record with
              active := x, pending := none, state := .disabled, disabledReason := .off, ringCount := 0 } }
            else { u with record := { u.record with active := x, pending := none } }
          | .disabled =>
            if x.direction = .off then { u with record := { u.record with
              active := x, pending := none, disabledReason := .off, noLoopRun := 0 } }
            else { u with record := { u.record with
              active := x, pending := none, state := .idle, disabledReason := .none, noLoopRun := 0, ringCount := 0 } }
          | _ => { u with record := { u.record with pending := some x } }

/-- R100: DOC CREATE: arguments out of range are BADARG, a full table is NOSPACE; otherwise the lowest free entry takes the
fields, building, its lists empty. -/
def Obligations.DocCreate : Prop :=
  ∀ (kind priority account interval limit localCopy copies : BitVec 8) (notBefore : ClockField) (s : State),
    s.ctl.teardown = none → s.ctl.engine = .running →
    let row := Instr.docCreate kind priority account interval limit localCopy copies notBefore
    let valid : Prop :=
      kind.toNat ≤ 1 ∧ priority.toNat ≤ 2 ∧ account.toNat ≤ 31 ∧ interval.toNat ≤ 60 ∧ limit.toNat ≤ 9 ∧
        1 ≤ copies.toNat ∧ copies.toNat ≤ 9 ∧ (notBefore.present ≠ 0 → notBefore.second.toNat < 86400) ∧
        (localCopy = 0 ∨ (localCopy = 1 ∧ kind = 0))
    (¬valid → exec row s = .next (s.noteResult ⟨.badArg, []⟩).settleStep) ∧
    (valid → (∀ d, (s.doc d).inUse = true) → exec row s = .next (s.noteResult ⟨.noSpace, []⟩).settleStep) ∧
    ∀ (d : Fin 64) (a : Fin 32), valid → a.val = account.toNat → (s.doc d).inUse = false →
      (∀ e, e < d → (s.doc e).inUse = true) →
      ∃ t : State, exec row s = .next t.settleStep ∧
        t = { s with
          dispatch := { s.dispatch with
            docs := s.dispatch.docs.set d { DocRecord.empty with
              inUse := true, building := true, kind := if kind = 0 then .out else .copy,
              priority := if priority = 0 then .flash else if priority = 1 then .urgent else .routine, account := a,
              notBefore := if notBefore.present = 0 then none else some ⟨notBefore.day, notBefore.second.toNat⟩,
              retryInterval := if interval = 0 then 5 else interval.toNat, attemptLimit := if limit = 0 then 3 else limit.toNat,
              localCopy := decide (localCopy = 1), copies := copies.toNat,
              obligation := if kind = 1 ∨ localCopy = 1 then .pending else .none },
            pageLists := s.dispatch.pageLists.set d [] },
          ctl := s.ctl.noted t s.ctl.notices .ok [BitVec.ofNat 8 d.val] } ∧
        QueueEntry.record (.document d) ∈ t.ctl.queue

/-- R103: DEST ADD, its checks in their order; a number is 1 to 24 characters, digits, `*`, `#` and pauses and not pauses
alone, and what lies past its count is not read (section 12.1). (That it makes the line arbiter run is log entry 33.)
R107: a run of the line arbiter serves the lines in index order and then sets the block reasons; a line is free in IDLE,
outside teardown, with direction OUT or BOTH and 8 s after its last burst (log entry 28); the block reasons of PENDING
destinations, LOG raised with LOGFULL; with no free line the run does nothing else. R108: the destination a free line
takes, by priority, release order and place in its list. R180: a number's class and band are those of the longest prefix
that leads it without its pauses, the lowest entry of equals, else 3 and 7. R109: what a choice fails with (its order is
log entry 48): FAILED with that cause, DISPATCH raised, and the choice is made again. R109, R126, R188: otherwise the
destination is DIALLING, a reservation taken, the context open, the line SEIZING off hook with its loop check and seize
delay timers running. -/
def Obligations.DestAdd : Prop :=
  (∀ (document : BitVec 8) (number : NumberField) (s : State), s.ctl.teardown = none → s.ctl.engine = .running →
    (64 ≤ document.toNat ∨ numberOperand number = none →
      exec (.destAdd document number) s = .next (s.noteResult ⟨.badArg, []⟩).settleStep) ∧
    (∀ l, numberOperand number = some l ↔
      number.count.toNat = l.length ∧ 1 ≤ l.length ∧ l.length ≤ 24 ∧ (∃ c, c ∈ l ∧ c ≠ .pause) ∧
        ∀ i (h : i < l.length), number.chars.toNat / 16 ^ i % 16 = l[i].code) ∧
    ∀ (d : Fin 64) (l : List DialChar), document.toNat = d.val → numberOperand number = some l →
      let r := s.doc d
      (r.inUse = false → exec (.destAdd document number) s = .next (s.noteResult ⟨.notFound, []⟩).settleStep) ∧
      (r.inUse = true →
        (r.kind = .copy ∨ r.complete = true →
          exec (.destAdd document number) s = .next (s.noteResult ⟨.badArg, []⟩).settleStep) ∧
        (r.kind ≠ .copy → r.complete = false →
          (r.kind = .incoming → r.building = true →
            exec (.destAdd document number) s = .next (s.noteResult ⟨.busy, []⟩).settleStep) ∧
          (r.kind = .out ∨ r.building = false →
            (64 ≤ r.dests.length ∨ (∀ t, (s.dest t).inUse = true) →
              exec (.destAdd document number) s = .next (s.noteResult ⟨.noSpace, []⟩).settleStep) ∧
            ∀ x : Fin 512, r.dests.length < 64 → (s.dest x).inUse = false → (∀ y, y < x → (s.dest y).inUse = true) →
              ∃ t : State, exec (.destAdd document number) s = .next t.settleStep ∧
                t = { s with
                  dispatch := { s.dispatch with
                    docs := s.dispatch.docs.set d { r with dests := r.dests ++ [x] },
                    dests := s.dispatch.dests.set x { DestRecord.empty with inUse := true, document := d, number := l },
                    arbiterDue := true },
                  ctl := s.ctl.noted t s.ctl.notices .ok (le 2 x.val ++ le 1 (r.dests.length + 1)) } ∧
                QueueEntry.record (.document d) ∈ t.ctl.queue ∧ QueueEntry.record (.destination x) ∈ t.ctl.queue)))) ∧
  (∀ s : State,
    (s.dispatch.arbiterDue = false → s.runDueArbiter = s) ∧
    (s.dispatch.arbiterDue = true →
      s.runDueArbiter = ({ s with dispatch := { s.dispatch with arbiterDue := false } } : State).runArbiter) ∧
    (∀ served, served = (((s.serveLine 0).serveLine 1).serveLine 2).serveLine 3 →
      s.runArbiter = served.listedDests.foldl State.setBlockReason served) ∧
    s.listedDests = (List.finRange 64).flatMap (fun d => (s.doc d).dests) ∧
    (∀ n, s.lineFree n = true ↔ s.ctl.teardown = none ∧ (s.lineUnit n).record.state = .idle ∧
      ((s.lineUnit n).record.active.direction = .out ∨ (s.lineUnit n).record.active.direction = .both) ∧
      ∀ b, (s.lineUnit n).lastBurst = some b → b + 8000000 ≤ s.now) ∧
    ((∀ n, s.lineFree n = false) →
      s.runArbiter = { s with
        dispatch := { s.dispatch with dests := s.runArbiter.dispatch.dests },
        ctl := s.ctl.rewritten s.runArbiter s.runArbiter.ctl.notices } ∧
      (∀ x, s.runArbiter.dest x = (if x ∈ s.listedDests ∧ (s.dest x).state = .pending
        then { s.dest x with blockReason := s.blockedBy x } else s.dest x)) ∧
      s.runArbiter.ctl.notices =
        (if ∃ x, x ∈ s.listedDests ∧ (s.dest x).state = .pending ∧ s.blockedBy x = .logFull
          then s.ctl.notices ||| Notice.log.bit else s.ctl.notices))) ∧
  (∀ (x : Fin 512) (s : State),
    let d := s.doc (s.dest x).document
    let waits : Prop := ∃ b, d.notBefore = some b ∧
      (s.charge.clockSet = false ∨ s.charge.clock.day.toNat < b.day.toNat ∨
        (s.charge.clock.day = b.day ∧ s.charge.clock.second < b.second))
    let room : Prop := s.ctl.engine = .running ∧ s.charge.unread + s.charge.reservations < 1024
    (d.released = false → s.blockedBy x = .unreleased) ∧
    (d.released = true → waits → s.blockedBy x = .notBefore) ∧
    (d.released = true → ¬waits → (s.account d.account).atBudget = true → s.blockedBy x = .budget) ∧
    (d.released = true → ¬waits → (s.account d.account).atBudget = false →
      (¬room → s.blockedBy x = .logFull) ∧ (room → s.blockedBy x = .noLine)) ∧
    (s.eligible x = true ↔ (s.dest x).state = .pending ∧ s.blockedBy x = .noLine)) ∧
  (∀ s : State,
    let before (x y : Fin 512) : Prop :=
      let a := s.doc (s.dest x).document
      let b := s.doc (s.dest y).document
      a.priority.rank < b.priority.rank ∨
        (a.priority.rank = b.priority.rank ∧ a.releaseOrder.toNat < b.releaseOrder.toNat)
    ((∀ x, x ∈ s.listedDests → s.eligible x = false) → s.bestDest = none) ∧
    (∀ x, x ∈ s.listedDests → s.eligible x = true → s.bestDest ≠ none) ∧
    ∀ x, s.bestDest = some x →
      ∃ pre post, s.listedDests = pre ++ x :: post ∧ s.eligible x = true ∧
        (∀ y, y ∈ pre → s.eligible y = true → before x y) ∧ ∀ y, y ∈ post → s.eligible y = true → ¬before y x) ∧
  (∀ (c : ChargeUnit) (number : List DialChar),
    let dialled := number.filter (fun x => decide (x ≠ .pause))
    let leads (e : PrefixEntry) : Prop := e.digits ≠ [] ∧ dialled.take e.digits.length = e.digits.map DialChar.digit
    ((∀ i, ¬leads (c.prefixes.get i)) → c.classify number = (3, 7)) ∧
    ∀ i, leads (c.prefixes.get i) →
      (∀ j, leads (c.prefixes.get j) →
        (c.prefixes.get j).digits.length < (c.prefixes.get i).digits.length ∨
          ((c.prefixes.get j).digits.length = (c.prefixes.get i).digits.length ∧ i ≤ j)) →
      c.classify number = ((c.prefixes.get i).cls, (c.prefixes.get i).band)) ∧
  (∀ (n : Fin 4) (x : Fin 512) (cls : Nat) (s : State),
    let d := s.doc (s.dest x).document
    let pulse : Prop := (s.lineUnit n).record.active.dialMethod = .pulse ∧
      (DialChar.star ∈ (s.dest x).number ∨ DialChar.hash ∈ (s.dest x).number)
    let void : Prop := d.building = false ∧ s.pageList (s.dest x).document = []
    ((s.account d.account).cls < cls → s.choiceFails n x cls = some .barred) ∧
    (cls ≤ (s.account d.account).cls → pulse → s.choiceFails n x cls = some .badNumber) ∧
    (cls ≤ (s.account d.account).cls → ¬pulse → void → s.choiceFails n x cls = some .empty) ∧
    (cls ≤ (s.account d.account).cls → ¬pulse → ¬void → s.choiceFails n x cls = none)) ∧
  ∀ (n : Fin 4) (k : Nat) (s : State),
    (s.lineFree n = false → s.serveLine n = s) ∧ (s.lineFree n = true → s.serveLine n = State.chooseFor n 513 s) ∧
    (s.bestDest = none → State.chooseFor n (k + 1) s = s) ∧
    ∀ x cls band, s.bestDest = some x → s.charge.classify (s.dest x).number = (cls, band) →
      (∀ cause, s.choiceFails n x cls = some cause →
        ∃ t : State, State.chooseFor n (k + 1) s = State.chooseFor n k t ∧
          t.dest x = { s.dest x with
            cls := cls, band := band, lastCause := cause, state := .failed, retryDue := none, blockReason := .none } ∧
          (∀ y, y ≠ x → t.dest y = s.dest y) ∧ t.isPending .dispatch = true ∧ t.lines = s.lines ∧ t.charge = s.charge) ∧
      (s.choiceFails n x cls = none →
        ∃ t : State, State.chooseFor n (k + 1) s = t ∧
          t = { s with
            dispatch := { s.dispatch with
              dests := s.dispatch.dests.set x { s.dest x with
                cls := cls, band := band, state := .dialling, line := some n, pageRetries := 0, blockReason := .none } },
            lines := s.lines.set n { s.lineUnit n with
              record := { (s.lineUnit n).record with
                state := .seizing, callDirection := .out, destination := some x, charsSent := 0, ringCount := 0 },
              offHook := true, number := (s.dest x).number, loopSeen := false, loopCheck := some (s.now + 1000000),
              seizeDelay := some (s.now + (s.lineUnit n).record.active.seizeDelay * 1000000) },
            charge := { s.charge with
              reservations := s.charge.reservations + 1,
              contexts := s.charge.contexts.set n (some
                { account := (s.doc (s.dest x).document).account, incoming := false, destination := some x,
                  document := some (s.dest x).document, number := (s.dest x).number, cls := cls, band := band,
                  method := match (s.lineUnit n).record.active.chargeMethod with | .meter => .meter | .time => .time,
                  phase := .unanswered, seizeTime := s.charge.clock, clockWasSet := s.charge.clockSet, answerTime := none,
                  answeredAt := none, units := 0, qualified := 0, rejected := 0, pagesConfirmed := 0, unitTimer := none,
                  graceTimer := none }) },
            ctl := s.ctl.rewritten t
              (if s.charge.unread + s.charge.reservations + 1 = 1024 then s.ctl.notices ||| Notice.log.bit
                else s.ctl.notices) })

/-- R104: DOC RELEASE; a release counter at its top takes a value the manual does not state (log entry 9). -/
def Obligations.DocRelease : Prop :=
  ∀ (document : BitVec 8) (s : State), s.ctl.teardown = none → s.ctl.engine = .running →
    (64 ≤ document.toNat → exec (.docRelease document) s = .next (s.noteResult ⟨.badArg, []⟩).settleStep) ∧
    ∀ d : Fin 64, document.toNat = d.val →
      let r := s.doc d
      (r.inUse = false → exec (.docRelease document) s = .next (s.noteResult ⟨.notFound, []⟩).settleStep) ∧
      (r.inUse = true →
        (r.kind = .copy ∨ r.complete = true →
          exec (.docRelease document) s = .next (s.noteResult ⟨.badArg, []⟩).settleStep) ∧
        (r.kind = .incoming → r.complete = false → r.building = true →
          exec (.docRelease document) s = .next (s.noteResult ⟨.busy, []⟩).settleStep) ∧
        (r.kind ≠ .copy → r.complete = false → r.kind = .out ∨ r.building = false →
          (r.released = true →
            exec (.docRelease document) s = .next (s.noteResult ⟨.ok, le 4 r.releaseOrder.toNat⟩).settleStep) ∧
          (r.released = false →
            ∃ t : State, exec (.docRelease document) s = .next t.settleStep ∧
              t = { s with
                freeCount := t.freeCount,
                dispatch := { s.dispatch with
                  docs := s.dispatch.docs.set d { r with released := true, releaseOrder := s.dispatch.releaseCounter },
                  releaseCounter := t.dispatch.releaseCounter, arbiterDue := true },
                ctl := s.ctl.noted t s.ctl.notices .ok (le 4 s.dispatch.releaseCounter.toNat) } ∧
              (s.dispatch.releaseCounter ≠ BitVec.allOnes 32 →
                t.dispatch.releaseCounter = s.dispatch.releaseCounter + 1 ∧ t.freeCount = s.freeCount))))

/-- R112: DOC CANCEL: a bad index, a free entry and a document being written are refused, a COMPLETE one is left as it is;
a document whose destinations are all PENDING and that owes no printout has them CANCELLED and is COMPLETE, DISPATCH
raised, or goes on where it is still building, which no stream writes (log entry 53). R112, R113: DEST CANCEL: a bad index
and a free entry are refused; a final destination is left as it is; a PENDING one, or a WAITING one with its retry timer
stopped, is CANCELLED at once. (What counts as being written by a receive stream is log entry 23.) A DIALLING one is
marked, its line cleared with CANCEL, and it is settled CANCELLED with an attempt counted. R150: a SENDING one is marked,
and its send stream drains by the state it is in. Of every document that DOC CANCEL takes: each destination is treated by
its state, in list order (log entry 58), then the printout, then the obligations are checked; DEST CANCEL likewise its one destination. R112, R167,
R169: a printout owed is DONE; QUEUED and PRINTING leave the print queue, and the print stream of a PRINTING one is in
DOC-END, nothing read or decoded, waiting no (log entry 54), STREAM raised. R105, R77: a document in use with no
obligation left is COMPLETE, DISPATCH raised, its pages released in list order; any other is left. -/
def Obligations.DocCancelAndDestCancel : Prop :=
  (∀ (document : BitVec 8) (s : State), s.ctl.teardown = none → s.ctl.engine = .running →
    (64 ≤ document.toNat → exec (.docCancel document) s = .next (s.noteResult ⟨.badArg, []⟩).settleStep) ∧
    ∀ d : Fin 64, document.toNat = d.val →
      let r := s.doc d
      (r.inUse = false → exec (.docCancel document) s = .next (s.noteResult ⟨.notFound, []⟩).settleStep) ∧
      (r.inUse = true →
        ((s.scan.state ≠ .closed ∧ s.scan.document = d) ∨
            (∃ n, (s.stream n).direction = .receive ∧ (s.stream n).state ≠ .closed ∧ (s.stream n).callDoc = some d) →
          exec (.docCancel document) s = .next (s.noteResult ⟨.busy, []⟩).settleStep) ∧
        (¬((s.scan.state ≠ .closed ∧ s.scan.document = d) ∨
            (∃ n, (s.stream n).direction = .receive ∧ (s.stream n).state ≠ .closed ∧ (s.stream n).callDoc = some d)) →
          (r.complete = true → exec (.docCancel document) s = .next (s.noteResult ⟨.ok, []⟩).settleStep) ∧
          (r.complete = false → r.building = false → r.obligation = .none ∨ r.obligation = .done →
            (∀ x, x ∈ r.dests → (s.dest x).state = .pending ∧ (s.dest x).document = d) →
            (∀ p, p ∈ s.pageList d → (s.page p).state ≠ .writing) →
            ∃ t : State, exec (.docCancel document) s = .next t.settleStep ∧
              (∀ x, x ∈ r.dests → t.dest x = { s.dest x with state := .cancelled, retryDue := none, blockReason := .none }) ∧
              (∀ x, x ∉ r.dests → t.dest x = s.dest x) ∧ t.doc d = { r with complete := true } ∧
              (∀ e, e ≠ d → t.doc e = s.doc e) ∧ (∀ p, p ∈ s.pageList d → t.page p = PageRecord.empty) ∧
              (∀ p, p ∉ s.pageList d → t.page p = s.page p) ∧
              t.ctl = s.ctl.noted t (s.ctl.notices ||| Notice.dispatch.bit) .ok [] ∧ t.mem = s.mem ∧ t.path = s.path ∧
              t.lines = s.lines ∧ t.streams = s.streams ∧ t.charge = s.charge ∧ t.scan = s.scan ∧ t.print = s.print)))) ∧
  (∀ (destination : BitVec 16) (s : State), s.ctl.teardown = none → s.ctl.engine = .running →
    (512 ≤ destination.toNat → exec (.destCancel destination) s = .next (s.noteResult ⟨.badArg, []⟩).settleStep) ∧
    ∀ x : Fin 512, destination.toNat = x.val →
      let r := s.dest x
      (r.inUse = false → exec (.destCancel destination) s = .next (s.noteResult ⟨.notFound, []⟩).settleStep) ∧
      (r.inUse = true → (s.doc r.document).building = true →
        (r.state.final = true → exec (.destCancel destination) s = .next (s.noteResult ⟨.ok, []⟩).settleStep) ∧
        (r.state = .pending ∨ r.state = .waiting →
          ∃ t : State, exec (.destCancel destination) s = .next t.settleStep ∧
            t = { s with
              dispatch := { s.dispatch with
                dests := s.dispatch.dests.set x { r with state := .cancelled, retryDue := none, blockReason := .none },
                retryTimers := if r.state = .waiting then s.dispatch.retryTimers.set x none else s.dispatch.retryTimers },
              ctl := s.ctl.noted t (s.ctl.notices ||| Notice.dispatch.bit) .ok [] } ∧
            QueueEntry.record (.destination x) ∈ t.ctl.queue) ∧
        (∀ n c, r.state = .dialling → r.line = some n → (s.lineUnit n).record.state.hasCall = true →
          s.context n = some c → c.destination = some x →
          ∃ t : State, exec (.destCancel destination) s = .next t.settleStep ∧
            (t.lineUnit n).record.state = .clearing ∧ (t.lineUnit n).record.lastCause = .cancel ∧ t.context n = none ∧
            t.dest x = { r with
              cancelRequested := true, line := none, lastCause := .cancel, attempts := r.attempts + 1, state := .cancelled,
              retryDue := none, blockReason := .none } ∧
            t.isPending .dispatch = true ∧ t.ctl.lastResult = some ⟨.ok, []⟩ ∧ t.mem = s.mem) ∧
        ∀ n, r.state = .sending → r.line = some n →
          let y := s.stream n
          ∃ t : State, exec (.destCancel destination) s = .next t.settleStep ∧
            t = { s with
              dispatch := { s.dispatch with dests := s.dispatch.dests.set x { r with cancelRequested := true } },
              streams := s.streams.set n
                (match y.state with
                  | .open => { y with state := .draining, drain := .serving }
                  | .pageEnd => { y with state := .draining, drain := .ended }
                  | .waitPage | .docEnd => { y with state := .draining, drain := .done }
                  | .draining | .stalled | .closed => y),
              ctl := s.ctl.noted t
                (if y.state = .pageEnd ∨ y.state = .waitPage ∨ y.state = .docEnd then s.ctl.notices ||| Notice.stream.bit
                  else s.ctl.notices) .ok [] })) ∧
  (∀ (document : BitVec 8) (d : Fin 64) (s : State), s.ctl.teardown = none → s.ctl.engine = .running →
    document.toNat = d.val → (s.doc d).inUse = true → (s.doc d).complete = false → s.beingWritten d = false →
    exec (.docCancel document) s = .next
      ((((((s.doc d).dests.foldl State.cancelDest s).cancelPrint d).checkComplete d).noteResult ⟨.ok, []⟩).settleStep) ∧
    ((s.doc d).building = true → (s.doc d).obligation = .none ∨ (s.doc d).obligation = .done →
      (∀ x, x ∈ (s.doc d).dests → (s.dest x).state = .pending ∧ (s.dest x).document = d) →
      ∃ t : State, exec (.docCancel document) s = .next t.settleStep ∧ t.dispatch.docs = s.dispatch.docs ∧
        (∀ x, x ∈ (s.doc d).dests → t.dest x = { s.dest x with state := .cancelled, retryDue := none, blockReason := .none }) ∧
        (∀ x, x ∉ (s.doc d).dests → t.dest x = s.dest x) ∧ t.store = s.store ∧ t.ctl.lastResult = some ⟨.ok, []⟩)) ∧
  (∀ (destination : BitVec 16) (x : Fin 512) (s : State), s.ctl.teardown = none → s.ctl.engine = .running →
    destination.toNat = x.val → (s.dest x).inUse = true →
    exec (.destCancel destination) s = .next
      ((((s.cancelDest x).checkComplete (s.dest x).document).noteResult ⟨.ok, []⟩).settleStep)) ∧
  (∀ (x : Fin 512) (s : State),
    let r := s.dest x
    let set (t : State) (dests : DestRecord) (streams : Table LineStream 4) (notices : BitVec 12) : State := { s with
      dispatch := { s.dispatch with dests := s.dispatch.dests.set x dests }, streams := streams,
      ctl := s.ctl.rewritten t notices }
    (r.state.final = true → s.cancelDest x = s) ∧
    (r.state = .pending → s.cancelDest x = s.becomeFinal x r .cancelled) ∧
    (r.state = .waiting → s.cancelDest x = ({ s with
      dispatch := { s.dispatch with retryTimers := s.dispatch.retryTimers.set x none } } : State).becomeFinal x r .cancelled) ∧
    (∀ n, r.state = .dialling → r.line = some n →
      ∃ t : State, t = set t { r with cancelRequested := true } s.streams s.ctl.notices ∧
        s.cancelDest x = if (s.lineUnit n).record.state.hasCall = true then t.clearOrder n .cancel else t) ∧
    (∀ n, r.state = .sending → r.line = some n →
      let y := s.stream n
      s.cancelDest x = set (s.cancelDest x) { r with cancelRequested := true }
        (s.streams.set n
          (match y.state with
            | .open => { y with state := .draining, drain := .serving }
            | .pageEnd => { y with state := .draining, drain := .ended }
            | .waitPage | .docEnd => { y with state := .draining, drain := .done }
            | .draining | .stalled | .closed => y))
        (if y.state = .pageEnd ∨ y.state = .waitPage ∨ y.state = .docEnd then s.ctl.notices ||| Notice.stream.bit
          else s.ctl.notices)) ∧
    ∀ final, ∃ t : State, s.becomeFinal x r final = t.checkComplete r.document ∧
      t = set t { r with state := final, retryDue := none, blockReason := .none } s.streams
        (s.ctl.notices ||| Notice.dispatch.bit)) ∧
  (∀ (d : Fin 64) (s : State),
    let r := s.doc d
    let queue := s.dispatch.printQueue
    let done (t : State) (queue : List (Fin 64)) : State := { s with
      dispatch := { s.dispatch with docs := s.dispatch.docs.set d { r with obligation := .done }, printQueue := queue },
      ctl := s.ctl.rewritten t t.ctl.notices }
    let t := s.cancelPrint d
    (r.obligation = .none ∨ r.obligation = .done → t = s) ∧
    (r.obligation = .pending → t = done t queue ∧ t.ctl.notices = s.ctl.notices) ∧
    (r.obligation = .queued → t = done t (queue.filter (fun e => decide (e ≠ d))) ∧ t.ctl.notices = s.ctl.notices) ∧
    (r.obligation = .printing →
      t = { done t (queue.filter (fun e => decide (e ≠ d))) with
        print := { s.print with
          state := .docEnd, waiting := false, readAhead := [], bufferA := .empty, bufferB := .empty, first := .a },
        coder := t.coder, path := { s.path with port := t.path.port } } ∧
      t.ctl.notices = s.ctl.notices ||| Notice.stream.bit ∧
      t.coder = { s.coder with
        engine := s.coder.engine.map fun j => if j.stream = .print then { j with live := false } else j,
        contexts := s.coder.contexts.set (StreamId.index .print) { s.ctx .print with
          isOpen := false, reference := [], repeatRun := 0, job := .none } } ∧
      t.path.port = s.path.port.map fun p =>
        if p.requester = .print ∧ p.kind = .storeRead true then { p with kind := .storeRead false } else p)) ∧
  ∀ (d : Fin 64) (s : State),
    let r := s.doc d
    let owes : Prop := r.building = true ∨ r.obligation = .pending ∨ r.obligation = .queued ∨ r.obligation = .printing ∨
      (∃ p, p ∈ s.pageList d ∧ (s.page p).state = .writing) ∨ ∃ x, x ∈ r.dests ∧ (s.dest x).state.final = false
    (r.inUse = false ∨ r.complete = true ∨ owes → s.checkComplete d = s) ∧
    (r.inUse = true → r.complete = false → ¬owes →
      ∃ t : State, s.checkComplete d = (s.pageList d).foldl State.releasePage t ∧
        t = { s with
          dispatch := { s.dispatch with docs := s.dispatch.docs.set d { r with complete := true } },
          ctl := s.ctl.rewritten t (s.ctl.notices ||| Notice.dispatch.bit) }) ∧
    ∀ p, s.releasePage p = { s with
      store := { s.store with
        freeList := s.store.freeList ++ (s.page p).chain, pages := s.store.pages.set p PageRecord.empty },
      ctl := s.ctl.rewritten (s.releasePage p) s.ctl.notices }

/-- R106: DOC DELETE. -/
def Obligations.DocDelete : Prop :=
  ∀ (document : BitVec 8) (s : State), s.ctl.teardown = none → s.ctl.engine = .running →
    (64 ≤ document.toNat → exec (.docDelete document) s = .next (s.noteResult ⟨.badArg, []⟩).settleStep) ∧
    ∀ d : Fin 64, document.toNat = d.val →
      let r := s.doc d
      (r.inUse = false → exec (.docDelete document) s = .next (s.noteResult ⟨.notFound, []⟩).settleStep) ∧
      (r.inUse = true → r.complete = false →
        exec (.docDelete document) s = .next (s.noteResult ⟨.busy, []⟩).settleStep) ∧
      (r.inUse = true → r.complete = true →
        ∃ t : State, exec (.docDelete document) s = .next t.settleStep ∧
          t = { s with
            dispatch := { s.dispatch with
              docs := s.dispatch.docs.set d DocRecord.empty, pageLists := s.dispatch.pageLists.set d [],
              dests := t.dispatch.dests, retryTimers := t.dispatch.retryTimers },
            ctl := s.ctl.noted t s.ctl.notices .ok [] } ∧
          (∀ x, t.dest x = if x ∈ r.dests then DestRecord.empty else s.dest x) ∧
          (∀ x, t.dispatch.retryTimers.get x = if x ∈ r.dests then none else s.dispatch.retryTimers.get x) ∧
          QueueEntry.record (.document d) ∈ t.ctl.queue ∧
          ∀ x, x ∈ r.dests → s.dest x ≠ DestRecord.empty → QueueEntry.record (.destination x) ∈ t.ctl.queue)

/-- R115: PRINT FIRST. -/
def Obligations.PrintFirst : Prop :=
  ∀ (document : BitVec 8) (s : State), s.ctl.teardown = none → s.ctl.engine = .running →
    (64 ≤ document.toNat → exec (.printFirst document) s = .next (s.noteResult ⟨.badArg, []⟩).settleStep) ∧
    ∀ d : Fin 64, document.toNat = d.val →
      (d ∉ s.dispatch.printQueue →
        exec (.printFirst document) s = .next (s.noteResult ⟨.notFound, []⟩).settleStep) ∧
      (d ∈ s.dispatch.printQueue → (s.doc d).obligation = .printing →
        exec (.printFirst document) s = .next (s.noteResult ⟨.ok, []⟩).settleStep) ∧
      ∀ h rest, s.dispatch.printQueue = h :: rest → d ∈ h :: rest → (s.doc d).obligation ≠ .printing →
        exec (.printFirst document) s = .next (({ s with dispatch := { s.dispatch with
          printQueue :=
            if (s.doc h).obligation = .printing then h :: d :: rest.filter (fun e => decide (e ≠ d))
            else d :: (h :: rest).filter (fun e => decide (e ≠ d)) } } : State).noteResult ⟨.ok, []⟩).settleStep

/-- R82: SCAN OPEN, its checks in their order; the stream is OPEN with its buffers EMPTY and its counts 0. R93: SCAN RESUME.
-/
def Obligations.ScanOpenAndResume : Prop :=
  (∀ (document width k : BitVec 8) (s : State), s.ctl.teardown = none → s.ctl.engine = .running →
    (64 ≤ document.toNat ∨ 2 < width.toNat ∨ 16 < k.toNat →
      exec (.scanOpen document width k) s = .next (s.noteResult ⟨.badArg, []⟩).settleStep) ∧
    ∀ (d : Fin 64) (w : Width), document.toNat = d.val → width.toNat = w.code → k.toNat ≤ 16 →
      let r := s.doc d
      (r.inUse = false → exec (.scanOpen document width k) s = .next (s.noteResult ⟨.notFound, []⟩).settleStep) ∧
      (r.inUse = true → r.kind = .incoming ∨ r.building = false →
        exec (.scanOpen document width k) s = .next (s.noteResult ⟨.badArg, []⟩).settleStep) ∧
      (r.inUse = true → r.kind ≠ .incoming → r.building = true →
        (s.scan.state ≠ .closed →
          exec (.scanOpen document width k) s = .next (s.noteResult ⟨.busy, []⟩).settleStep) ∧
        (s.scan.state = .closed →
          ∃ t : State, exec (.scanOpen document width k) s = .next t.settleStep ∧
            t = { s with
              scan :=
                { state := .open, cause := .none, document := d, width := w, k := k.toNat, bufferA := .empty,
                  bufferB := .empty, first := .a, cut := none, trailing := 0, dropped := 0, expiries := 0, clipped := 0 },
              ctl := s.ctl.noted t s.ctl.notices .ok [] } ∧
            QueueEntry.record (.stream 0) ∈ t.ctl.queue))) ∧
  (∀ s : State, s.ctl.teardown = none → s.ctl.engine = .running →
    (s.scan.state ≠ .starved → exec .scanResume s = .next (s.noteResult ⟨.busy, []⟩).settleStep) ∧
    (s.scan.state = .starved → s.scan.cause = .pages →
      exec .scanResume s = .next (s.noteResult ⟨.badArg, []⟩).settleStep) ∧
    (s.scan.state = .starved → s.scan.cause ≠ .pages →
      (s.store.reserve < s.freeBlocks ∧ (∃ p, (s.page p).state = .free) →
        ∃ t : State, exec .scanResume s = .next t.settleStep ∧
          t = { s with
            scan := { s.scan with state := .open, cause := .none }, ctl := s.ctl.noted t s.ctl.notices .ok [] } ∧
          QueueEntry.record (.stream 0) ∈ t.ctl.queue) ∧
      (¬(s.store.reserve < s.freeBlocks ∧ (∃ p, (s.page p).state = .free)) →
        exec .scanResume s = .next (s.noteResult ⟨.busy, []⟩).settleStep)))

/-- R89: PAGE CUT: BUSY with no session; OK and no more while STARVED, CUTTING or with no page being written; and OPEN
with a page, the FILLING buffer is completed with white, the trailing byte count takes what it held, and the page is
closed at once where no line is left, or after the marked last line: the padded one, or else the line that became FULL
last. R94: SCAN CLOSE: BUSY with no session or while CLOSING; otherwise a write held on the window is dropped, the FILLING
buffer is EMPTY and its bytes are the trailing count (in STARVED the count of the starvation stays), the FULL buffers are
kept, no cut is marked and the stream is CLOSING; the store, the documents, the lines, the print and line streams and the
books are as they were. Where a line is left that is all; where none is left, the page being written is closed at once
with no flag; and a stream with no page being written or closed is CLOSED at once, its context IDLE, STREAM raised, a
pending window entry active (R6), and its document stops building (R95). (The cause kept is log entry 22; a close asked
for while another page of the stream is being closed waits for it, log entry 14.) -/
def Obligations.PageCutAndScanClose : Prop :=
  (∀ s : State, s.ctl.teardown = none → s.ctl.engine = .running →
    (s.scan.state = .closed ∨ s.scan.state = .closing →
      exec .pageCut s = .next (s.noteResult ⟨.busy, []⟩).settleStep) ∧
    (s.scan.state = .starved ∨ s.scan.state = .cutting ∨ (s.scan.state = .open ∧ (s.slot .scan).page = none) →
      exec .pageCut s = .next (s.noteResult ⟨.ok, le 2 s.scan.trailing⟩).settleStep) ∧
    (∀ h, s.scan.state = .open → (s.slot .scan).page = some h → s.scan.bufferA = .empty → s.scan.bufferB = .empty →
      ((s.slot .scan).closing = none →
        ∃ t : State, exec .pageCut s = .next t.settleStep ∧
          t = { s with
            scan := { s.scan with trailing := 0, cut := none },
            store := { s.store with
              pages := s.store.pages.set h.page { s.page h.page with
                closing := true, byteCount := (s.page h.page).byteCount + 1 },
              slots := s.store.slots.set Writer.scan.index
                { writing := none, asked := none, closing := some { h with queued := h.queued ++ [0xF3] } } },
            ctl := s.ctl.noted t s.ctl.notices .ok [0, 0] }) ∧
      ((s.slot .scan).closing ≠ none →
        ∃ t : State, exec .pageCut s = .next t.settleStep ∧
          t = { s with
            scan := { s.scan with trailing := 0, cut := none },
            store := { s.store with
              slots := s.store.slots.set Writer.scan.index { s.slot .scan with asked := some {} } },
            ctl := s.ctl.noted t s.ctl.notices .ok [0, 0] })) ∧
    (∀ l buf, s.scan.state = .open → (s.slot .scan).page ≠ none → s.scan.buffer buf = .filling l →
      (s.scan.first = buf → s.scan.buffer buf.other = .empty) →
      (s.scan.first ≠ buf → (s.scan.buffer buf.other).isFull = true) →
      ∃ t : State, exec .pageCut s = .next t.settleStep ∧
        t = { s with
          scan := { s.scan.setBuffer buf (.full (padTo s.scan.width.rawBytes l)) with
            state := .cutting, trailing := l.length, cut := some buf },
          ctl := s.ctl.noted t s.ctl.notices .ok (le 2 l.length) }) ∧
    ∀ l, s.scan.state = .open → (s.slot .scan).page ≠ none → s.scan.buffer s.scan.first = .full l →
      (∀ m, s.scan.buffer s.scan.first.other ≠ .filling m) →
      ∃ t : State, exec .pageCut s = .next t.settleStep ∧
        t = { s with
          scan := { s.scan with
            state := .cutting, trailing := 0,
            cut := some (if (s.scan.buffer s.scan.first.other).isFull then s.scan.first.other else s.scan.first) },
          ctl := s.ctl.noted t s.ctl.notices .ok [0, 0] }) ∧
  (∀ s : State, s.ctl.teardown = none → s.ctl.engine = .running →
    (s.scan.state = .closed ∨ s.scan.state = .closing →
      exec .scanClose s = .next (s.noteResult ⟨.busy, []⟩).settleStep) ∧
    (s.scan.state = .open ∨ s.scan.state = .cutting ∨ s.scan.state = .starved →
      let x := s.scan
      let kept (b : RawBuffer) : RawBuffer := match b with
        | .filling _ => .empty
        | .empty => .empty
        | .full l => .full l
      let closing : ScanStream := { x with
        state := .closing, bufferA := kept x.bufferA, bufferB := kept x.bufferB, cut := none,
        trailing := if x.state = .starved then x.trailing else x.fillingBytes,
        dropped := if s.path.held.any (fun h => decide (h.window = some 0) && isWrite h.access) = true
          then saturate 65535 x.dropped else x.dropped }
      let path : PathUnit := match s.path.held with
        | some h =>
          if h.window = some 0 then { s.path with
            held := none,
            answer := some (match h.access with
              | .read r => .read (List.replicate r.size.bytes 0)
              | .write _ => .written) }
          else s.path
        | none => s.path
      let data := le 2 closing.trailing
      let lineLeft : Prop := x.anyFull = true ∨ (s.ctx .scan).job ≠ .none
      (lineLeft ∨ ((s.slot .scan).page = none ∧ ¬((s.slot .scan).writing = none ∧ (s.slot .scan).closing = none)) →
        ∃ t : State, exec .scanClose s = .next t.settleStep ∧
          t = { s with scan := closing, path := path, ctl := s.ctl.noted t s.ctl.notices .ok data }) ∧
      (∀ h, ¬lineLeft → (s.slot .scan).page = some h →
        ((s.slot .scan).closing = none →
          ∃ t : State, exec .scanClose s = .next t.settleStep ∧
            t = { s with
              scan := closing, path := path,
              store := { s.store with
                pages := s.store.pages.set h.page { s.page h.page with
                  closing := true, byteCount := (s.page h.page).byteCount + 1 },
                slots := s.store.slots.set Writer.scan.index
                  { writing := none, asked := none, closing := some { h with queued := h.queued ++ [0xF3] } } },
              ctl := s.ctl.noted t s.ctl.notices .ok data }) ∧
        ((s.slot .scan).closing ≠ none →
          ∃ t : State, exec .scanClose s = .next t.settleStep ∧
            t = { s with
              scan := closing, path := path,
              store := { s.store with slots := s.store.slots.set Writer.scan.index { s.slot .scan with asked := some {} } },
              ctl := s.ctl.noted t s.ctl.notices .ok data })) ∧
      (¬lineLeft → (s.slot .scan).writing = none → (s.slot .scan).closing = none →
        ∃ u : State, exec .scanClose s = .next ((u.endBuilding x.document).noteResult ⟨.ok, data⟩).settleStep ∧
          (u.endBuilding x.document).scan.state = .closed ∧ ((u.endBuilding x.document).doc x.document).building = false ∧
          (u.endBuilding x.document).print = s.print ∧
          u = { s with
            scan := { closing with state := .closed, first := .a },
            path := { path with windows := u.path.windows },
            coder := { s.coder with
              engine := s.coder.engine.map fun j => if j.stream = .scan then { j with live := false } else j,
              contexts := s.coder.contexts.set (StreamId.index .scan) { s.ctx .scan with
                isOpen := false, reference := [], repeatRun := 0, job := .none } },
            ctl := s.ctl.rewritten u (s.ctl.notices ||| Notice.stream.bit) } ∧
          (∀ w, w ≠ 0 → u.window w = s.window w) ∧
          ((s.window 0).pending = none → u.window 0 = s.window 0) ∧
          ∀ e, (s.window 0).pending = some e →
            u.window 0 = { s.window 0 with active := e.entry, pending := none, status := e.status })))

/-- R161: PRINT OPEN: BUSY unless CLOSED, NOTFOUND with nothing queued; otherwise the head of the print queue is PRINTING
and stays there, and the stream is OPEN at its first copy and page, its counts 0; a page not yet CLOSED is waited for.
R162: a page is started at PRINT OPEN and at PRINT NEXT alike: nothing read, framed, decoded or served; of a CLOSED page
the width and counts are taken and the context is open, a page of 0 lines being in PAGE-END at once; else the stream
waits; a read of the page before that has the port is discarded (log entry 55). R166, R167: PRINT NEXT: BUSY but in
PAGE-END; the next page, then the next copy, is started; after the last copy's last page the stream is in DOC-END, the
document leaves the print queue with its obligation DONE, STREAM is raised, and the result shows the copy and position as
they stood beside DOC-END (log entry 51). R168: PRINT CLOSE: BUSY when CLOSED; otherwise the stream is CLOSED with nothing
read or decoded kept, its window's held access is over, and a document not printed to its end is QUEUED again. -/
def Obligations.PrintCommands : Prop :=
  let started (s t : State) (d : Fin 64) (position : Nat) : Prop :=
    t.print.readPos = 0 ∧ t.print.readAhead = [] ∧ t.print.linesFramed = 0 ∧ t.print.linesServed = 0 ∧
      t.print.bufferA = .empty ∧ t.print.bufferB = .empty ∧
      (∀ p, (s.pageList d)[position - 1]? = some p →
        t.print.page = p ∧
        ((s.page p).state = .closed →
          t.print.waiting = false ∧ t.print.width = (s.page p).width ∧ t.print.lineCount = (s.page p).lineCount ∧
            t.print.byteCount = (s.page p).byteCount ∧
            t.print.state = (if (s.page p).lineCount = 0 then .pageEnd else .open) ∧
            ((s.page p).lineCount = 0 → t.isPending .stream = true) ∧
            t.ctx .print = { isOpen := true, width := (s.page p).width, k := (s.page p).k,
                             reference := List.replicate (s.page p).width.pixels false, repeatRun := 0, job := .none }) ∧
        ((s.page p).state ≠ .closed → t.print.state = .open ∧ t.print.waiting = true) ∧
        t.path = { s.path with port := s.path.port.map fun q =>
          if q.requester = .print ∧ q.kind = .storeRead true then { q with kind := .storeRead false } else q })
  (∀ s : State, s.ctl.teardown = none → s.ctl.engine = .running →
    (s.print.state ≠ .closed → exec .printOpen s = .next (s.noteResult ⟨.busy, []⟩).settleStep) ∧
    (s.print.state = .closed → s.dispatch.printQueue = [] →
      exec .printOpen s = .next (s.noteResult ⟨.notFound, []⟩).settleStep) ∧
    ∀ d rest, s.print.state = .closed → s.dispatch.printQueue = d :: rest →
      ∃ t : State, exec .printOpen s = .next t.settleStep ∧
        t.ctl.lastResult = some ⟨.ok, [BitVec.ofNat 8 d.val, BitVec.ofNat 8 (s.doc d).copies,
          BitVec.ofNat 8 (s.pageList d).length]⟩ ∧
        t.dispatch = { s.dispatch with docs := s.dispatch.docs.set d { s.doc d with obligation := .printing } } ∧
        t.print.document = d ∧ t.print.copy = 1 ∧ t.print.position = 1 ∧ t.print.dropped = 0 ∧ t.print.expiries = 0 ∧
        t.print.codeErrors = 0 ∧ t.print.bufferA = .empty ∧ t.print.bufferB = .empty ∧ t.print.linesServed = 0 ∧
        started s t d 1 ∧
        (∀ p, (s.pageList d)[0]? = some p → (s.page p).state = .closed → (s.page p).lineCount ≠ 0 →
          t.print.state = .open ∧ t.print.waiting = false ∧ t.print.page = p ∧ t.print.lineCount = (s.page p).lineCount ∧
            (t.ctx .print).isOpen = true) ∧
        (∀ p, (s.pageList d)[0]? = some p → (s.page p).state ≠ .closed → t.print.state = .open ∧ t.print.waiting = true) ∧
        t.mem = s.mem ∧ t.store = s.store ∧ t.lines = s.lines ∧ t.charge = s.charge ∧ t.scan = s.scan ∧ t.streams = s.streams) ∧
  (∀ s : State, s.ctl.teardown = none → s.ctl.engine = .running →
    let x := s.print
    (x.state ≠ .pageEnd → exec .printNext s = .next (s.noteResult ⟨.busy, []⟩).settleStep) ∧
    (x.state = .pageEnd → x.position < (s.pageList x.document).length ∨ x.copy < (s.doc x.document).copies →
      ∃ t : State, exec .printNext s = .next t.settleStep ∧
        t.print.copy = (if x.position < (s.pageList x.document).length then x.copy else x.copy + 1) ∧
        t.print.position = (if x.position < (s.pageList x.document).length then x.position + 1 else 1) ∧
        t.print.document = x.document ∧ t.print.linesServed = 0 ∧ started s t x.document t.print.position ∧
        t.print.dropped = x.dropped ∧ t.print.expiries = x.expiries ∧ t.print.codeErrors = x.codeErrors ∧
        t.ctl.lastResult = some ⟨.ok, [BitVec.ofNat 8 t.print.copy, BitVec.ofNat 8 t.print.position, 0]⟩ ∧
        t.dispatch = s.dispatch ∧ t.mem = s.mem ∧ t.store = s.store ∧ t.lines = s.lines ∧ t.charge = s.charge ∧
        t.scan = s.scan ∧ t.streams = s.streams) ∧
    (x.state = .pageEnd → (s.pageList x.document).length ≤ x.position → (s.doc x.document).copies ≤ x.copy →
      ∃ t : State, exec .printNext s = .next t.settleStep ∧
        t.print.state = .docEnd ∧ t.isPending .stream = true ∧ (t.doc x.document).obligation = .done ∧
        t.dispatch.printQueue = s.dispatch.printQueue.filter (fun e => decide (e ≠ x.document)) ∧
        t.ctl.lastResult = some ⟨.ok, [BitVec.ofNat 8 x.copy, BitVec.ofNat 8 x.position, 1]⟩ ∧ t.mem = s.mem ∧
        t.lines = s.lines ∧ t.charge = s.charge ∧ t.scan = s.scan ∧ t.streams = s.streams)) ∧
  (∀ s : State, s.ctl.teardown = none → s.ctl.engine = .running →
    (s.print.state = .closed → exec .printClose s = .next (s.noteResult ⟨.busy, []⟩).settleStep) ∧
    (s.print.state ≠ .closed →
      ∃ t : State, exec .printClose s = .next t.settleStep ∧
        t.print.state = .closed ∧ t.print.readAhead = [] ∧ t.print.bufferA = .empty ∧ t.print.bufferB = .empty ∧
        t.print.expiries = s.print.expiries ∧ t.print.codeErrors = s.print.codeErrors ∧ (t.ctx .print).isOpen = false ∧
        t.ctl.lastResult = some ⟨.ok, []⟩ ∧ (t.window 1).pending = none ∧ (∀ h, t.path.held = some h → h.window ≠ some 1) ∧
        t.dispatch = { s.dispatch with
          docs :=
            if s.print.state = .open ∨ s.print.state = .pageEnd
            then s.dispatch.docs.set s.print.document { s.doc s.print.document with obligation := .queued }
            else s.dispatch.docs } ∧
        t.mem = s.mem ∧ t.store = s.store ∧ t.lines = s.lines ∧ t.charge = s.charge ∧ t.scan = s.scan ∧ t.streams = s.streams))

/-- R142, R143: SEND OPEN on a CONNECTED outgoing line with its stream CLOSED and no cancellation requested: the destination
is SENDING, the stream's counts are 0, and it seeks the page after those confirmed: it serves a CLOSED one from its
first byte, waits for one being written or for a document still building, and is in DOC-END when none remains. -/
def Obligations.SendOpen : Prop :=
  ∀ (line repeats least : BitVec 8) (s : State), s.ctl.teardown = none → s.ctl.engine = .running →
    (4 ≤ line.toNat ∨ 1 < repeats.toNat ∨ 40 < least.toNat →
      exec (.sendOpen line repeats least) s = .next (s.noteResult ⟨.badArg, []⟩).settleStep) ∧
    ∀ n : Fin 4, line.toNat = n.val → repeats.toNat ≤ 1 → least.toNat ≤ 40 →
      let record := (s.lineUnit n).record
      ((record.state ≠ .connected ∨ record.callDirection ≠ .out ∨ (s.stream n).state ≠ .closed ∨ record.destination = none) →
        exec (.sendOpen line repeats least) s = .next (s.noteResult ⟨.busy, []⟩).settleStep) ∧
      ∀ x, record.state = .connected → record.callDirection = .out → (s.stream n).state = .closed →
        record.destination = some x →
        ((s.dest x).cancelRequested = true →
          exec (.sendOpen line repeats least) s = .next (s.noteResult ⟨.busy, []⟩).settleStep) ∧
        ((s.dest x).cancelRequested = false →
          let d := (s.dest x).document
          let next := (s.pageList d)[(s.dest x).confirmed]?
          ∃ t : State, exec (.sendOpen line repeats least) s = .next t.settleStep ∧
            t.ctl.lastResult = some ⟨.ok, le 1 ((s.dest x).confirmed + 1)⟩ ∧
            t.dispatch = { s.dispatch with dests := s.dispatch.dests.set x { s.dest x with state := .sending } } ∧
            (t.stream n).direction = .send ∧ (t.stream n).takesRepeat = decide (repeats = 1) ∧
            (t.stream n).minLine = least.toNat ∧ (t.stream n).document = d ∧
            (t.stream n).position = (s.dest x).confirmed + 1 ∧ (t.stream n).dropped = 0 ∧ (t.stream n).expiries = 0 ∧
            (t.stream n).fillCount = 0 ∧ (t.stream n).codeErrors = 0 ∧ (∀ m, m ≠ n → t.stream m = s.stream m) ∧
            (∀ p, next = some p → (s.page p).state = .closed →
              (t.stream n).state = .open ∧ (t.stream n).page = p ∧ (t.stream n).readPos = 0 ∧
                (t.stream n).readAhead = [] ∧ (t.stream n).check = some 0xFFFF ∧ t.ctl.notices = s.ctl.notices) ∧
            (∀ p, next = some p → (s.page p).state ≠ .closed → (t.stream n).state = .waitPage ∧ t.isPending .stream = true) ∧
            (next = none →
              (t.stream n).state = (if (s.doc d).building = true then .waitPage else .docEnd) ∧ t.isPending .stream = true) ∧
            t.mem = s.mem ∧ t.store = s.store ∧ t.lines = s.lines ∧ t.charge = s.charge ∧ t.scan = s.scan ∧ t.print = s.print)

/-- R148: PAGE RESULT on a send stream: BUSY in a state that waits for no verdict; in PAGE-END OK confirms the page and the
next is sought (R143): served when CLOSED, waited for, or none and DOC-END; RETRY serves it again up to three
times and else stalls the stream (above 4 retries, log entry 21), BAD stalls the stream; in DRAINING with its drain ENDED
the drain is DONE, STREAM raised (R159). -/
def Obligations.PageResult : Prop :=
  ∀ (line verdict : BitVec 8) (s : State), s.ctl.teardown = none → s.ctl.engine = .running →
    (4 ≤ line.toNat ∨ 3 ≤ verdict.toNat →
      exec (.pageResult line verdict) s = .next (s.noteResult ⟨.badArg, []⟩).settleStep) ∧
    ∀ n : Fin 4, line.toNat = n.val → verdict.toNat ≤ 2 →
      let x := s.stream n
      let takes := x.direction = .send ∧ (x.state = .pageEnd ∨ (x.state = .draining ∧ x.drain = .ended))
      ((s.lineUnit n).record.destination = none ∨ ¬takes →
        exec (.pageResult line verdict) s = .next (s.noteResult ⟨.busy, []⟩).settleStep) ∧
      ∀ y, (s.lineUnit n).record.destination = some y → takes →
        (x.state = .pageEnd → verdict = 0 →
          ∃ t : State, exec (.pageResult line verdict) s = .next t.settleStep ∧
            t.dest y = { s.dest y with confirmed := (s.dest y).confirmed + 1, pageRetries := 0 } ∧
            (∀ z, z ≠ y → t.dest z = s.dest z) ∧
            t.context n = (s.context n).map (fun c => { c with pagesConfirmed := c.pagesConfirmed + 1 }) ∧
            t.ctl.lastResult = some ⟨.ok, le 1 ((s.dest y).confirmed + 1)⟩ ∧
            (t.stream n).position = (s.dest y).confirmed + 2 ∧
            (∀ p, (s.pageList (s.dest y).document)[(s.dest y).confirmed + 1]? = some p → (s.page p).state = .closed →
              (t.stream n).state = .open ∧ (t.stream n).page = p ∧ (t.stream n).readPos = 0 ∧
                (t.stream n).check = some 0xFFFF) ∧
            (∀ p, (s.pageList (s.dest y).document)[(s.dest y).confirmed + 1]? = some p → (s.page p).state ≠ .closed →
              (t.stream n).state = .waitPage ∧ t.isPending .stream = true) ∧
            ((s.pageList (s.dest y).document)[(s.dest y).confirmed + 1]? = none →
              (t.stream n).state = (if (s.doc (s.dest y).document).building = true then .waitPage else .docEnd) ∧
                t.isPending .stream = true) ∧
            t.mem = s.mem ∧ t.store = s.store ∧ t.lines = s.lines) ∧
        (x.state = .pageEnd → verdict = 1 → (s.dest y).pageRetries ≠ 255 →
          ∃ t : State, exec (.pageResult line verdict) s = .next t.settleStep ∧
            t.dest y = { s.dest y with pageRetries := (s.dest y).pageRetries + 1 } ∧
            (if ((s.dest y).pageRetries + 1).toNat ≤ 3
              then (t.stream n).state = .open ∧ (t.stream n).page = x.page ∧ (t.stream n).readPos = 0 ∧
                (t.stream n).check = some 0xFFFF
              else (t.stream n).state = .stalled ∧ (t.stream n).stall = .failed ∧ t.isPending .stream = true) ∧
            t.ctl.lastResult = some ⟨.ok, le 1 (s.dest y).confirmed⟩ ∧ t.mem = s.mem ∧ t.store = s.store ∧
            t.lines = s.lines ∧ t.charge = s.charge) ∧
        (x.state = .pageEnd → verdict = 2 →
          ∃ t : State, exec (.pageResult line verdict) s = .next t.settleStep ∧
            (t.stream n).state = .stalled ∧ (t.stream n).stall = .bad ∧ t.isPending .stream = true ∧
            t.ctl.lastResult = some ⟨.ok, le 1 (s.dest y).confirmed⟩ ∧ t.dispatch = s.dispatch ∧ t.mem = s.mem ∧
            t.store = s.store ∧ t.lines = s.lines ∧ t.charge = s.charge) ∧
        (x.state = .draining →
          ∃ t : State, exec (.pageResult line verdict) s = .next t.settleStep ∧
            t.streams = s.streams.set n { x with drain := .done } ∧ t.isPending .stream = true ∧
            t.dest y = (if verdict = 0
              then { s.dest y with confirmed := (s.dest y).confirmed + 1, pageRetries := 0 } else s.dest y) ∧
            t.ctl.lastResult = some ⟨.ok, le 1 (t.dest y).confirmed⟩ ∧ t.mem = s.mem ∧ t.store = s.store ∧ t.lines = s.lines)

/-- R151, R101: RECEIVE OPEN on a CONNECTED incoming line with its stream CLOSED: the call's document, or with none yet the
lowest free entry as a new IN document, and the stream OPEN with nothing collected and its counts 0; NOSPACE with no
free entry. R156, R157: STREAM CLOSE: BUSY when CLOSED; otherwise the stream is CLOSED with nothing of the session kept
but its direction, counts and position, its context IDLE, its window's held access over and no window entry pending; a
page being received is closed TRUNCATED when it has lines, and freed when it has none; the call goes on. (A close asked for
while another page of the stream is being closed waits for it, log entry 14; RECEIVE OPEN keeps the coded bytes of a page
that is still closing, log entry 59.) -/
def Obligations.ReceiveOpenAndStreamClose : Prop :=
  (∀ (line width k : BitVec 8) (s : State), s.ctl.teardown = none → s.ctl.engine = .running →
    (4 ≤ line.toNat ∨ 2 < width.toNat ∨ 16 < k.toNat →
      exec (.receiveOpen line width k) s = .next (s.noteResult ⟨.badArg, []⟩).settleStep) ∧
    ∀ (n : Fin 4) (w : Width), line.toNat = n.val → width.toNat = w.code → k.toNat ≤ 16 →
      let record := (s.lineUnit n).record
      let opened (d : Fin 64) : LineStream := { s.stream n with
        direction := .receive, state := .open, stall := .none, callDoc := some d, document := d, width := w, k := k.toNat,
        dropped := 0, expiries := 0, badLines := 0, collecting := Collecting.empty, waiting := none, carried := [],
        checkBuffer := none, pageEnd := false, badRun := 0, badRunFlag := false }
      (record.state ≠ .connected ∨ record.callDirection ≠ .incoming ∨ (s.stream n).state ≠ .closed →
        exec (.receiveOpen line width k) s = .next (s.noteResult ⟨.busy, []⟩).settleStep) ∧
      (record.state = .connected → record.callDirection = .incoming → (s.stream n).state = .closed →
        (∀ d, (s.stream n).callDoc = some d →
          ∃ t : State, exec (.receiveOpen line width k) s = .next t.settleStep ∧
            t = { s with
              streams := s.streams.set n (opened d), ctl := s.ctl.noted t s.ctl.notices .ok [BitVec.ofNat 8 d.val] }) ∧
        ((s.stream n).callDoc = none → (∀ d, (s.doc d).inUse = true) →
          exec (.receiveOpen line width k) s = .next (s.noteResult ⟨.noSpace, []⟩).settleStep) ∧
        ∀ d, (s.stream n).callDoc = none → (s.doc d).inUse = false → (∀ e, e < d → (s.doc e).inUse = true) →
          ∃ t : State, exec (.receiveOpen line width k) s = .next t.settleStep ∧
            t = { s with
              streams := s.streams.set n (opened d),
              dispatch := { s.dispatch with
                docs := s.dispatch.docs.set d DocRecord.newIncoming, pageLists := s.dispatch.pageLists.set d [] },
              charge := { s.charge with contexts := t.charge.contexts },
              ctl := s.ctl.noted t s.ctl.notices .ok [BitVec.ofNat 8 d.val] } ∧
            t.context n = (s.context n).map (fun c => { c with document := some d }) ∧
            ∀ m, m ≠ n → t.context m = s.context m)) ∧
  (∀ (line : BitVec 8) (s : State), s.ctl.teardown = none → s.ctl.engine = .running →
    (4 ≤ line.toNat → exec (.streamClose line) s = .next (s.noteResult ⟨.badArg, []⟩).settleStep) ∧
    ∀ n : Fin 4, line.toNat = n.val →
      ((s.stream n).state = .closed → exec (.streamClose line) s = .next (s.noteResult ⟨.busy, []⟩).settleStep) ∧
      ((s.stream n).state ≠ .closed →
        ∃ t : State, exec (.streamClose line) s = .next t.settleStep ∧
          t.stream n = { (s.stream n).shut with dropped := (t.stream n).dropped } ∧ (∀ m, m ≠ n → t.stream m = s.stream m) ∧
          (t.ctx (.line n)).isOpen = false ∧ (t.window (StreamId.index (.line n))).pending = none ∧
          (∀ h, t.path.held = some h → h.window ≠ some (StreamId.index (.line n))) ∧
          t.ctl = s.ctl.noted t s.ctl.notices .ok [] ∧ t.mem = s.mem ∧ t.lines = s.lines ∧ t.charge = s.charge ∧
          t.scan = s.scan ∧ t.print = s.print ∧
          ((s.stream n).direction ≠ .receive ∨ (s.slot (.line n)).page = none →
            t.store = s.store ∧ t.dispatch = s.dispatch) ∧
          ∀ h, (s.stream n).direction = .receive → (s.slot (.line n)).page = some h →
            let r := s.page h.page
            let poor := r.poor || decide (r.lineCount < r.badLines * 16) || (s.stream n).badRunFlag
            (r.lineCount ≠ 0 → (s.slot (.line n)).closing = none →
              t.store = { s.store with
                pages := s.store.pages.set h.page { r with
                  closing := true, truncated := true, byteCount := r.byteCount + 1, poor := poor },
                slots := s.store.slots.set (Writer.index (.line n))
                  { writing := none, asked := none, closing := some { h with queued := h.queued ++ [0xF3] } } } ∧
              t.dispatch = s.dispatch) ∧
            (r.lineCount ≠ 0 → (s.slot (.line n)).closing ≠ none →
              (t.slot (.line n)).asked = some { truncated := true, poor := s.pagePoor n } ∧
              (t.slot (.line n)).writing = some h ∧ (∀ q, t.page q = s.page q) ∧ t.dispatch = s.dispatch) ∧
            (r.lineCount = 0 →
              t.store = { s.store with
                freeList := s.store.freeList ++ r.chain, pages := s.store.pages.set h.page PageRecord.empty,
                slots := s.store.slots.set (Writer.index (.line n)) { s.slot (.line n) with writing := none } } ∧
              t.dispatch = { s.dispatch with
                pageLists := s.dispatch.pageLists.set r.document
                  ((s.pageList r.document).filter (fun q => decide (q ≠ h.page))) })))

/-- R124, R123: CALL ANSWER on a line set to be answered by the host: BUSY unless RINGING; NOSPACE without a free document
entry and NOLOG without room in the log, the line ringing on with the reason shown; otherwise the line is CONNECTED, off
hook, a reservation taken, its context open, LINE raised. R132, R131, R189: ANSWER SEEN: BUSY but on an AWAITING or
CONNECTED line, no effect on a CONNECTED one; an AWAITING call is CONNECTED with answer source HOST, LINE raised, and
its METER context charges from now on. R135, R136, R193: CALL END: a cause the host may not give is BADARG, a line
without a call is BUSY; otherwise the line is CLEARING, on hook, with the cause taken, its stream CLOSED, its context
ended and its record allotted and queued, its clear guard running. (The loop loss timer at the answer is log
entry 26; BADARG before BUSY, log entry 49.)
R110, R193: the end of a call's context settles its destination. A destination with cancel requested is CANCELLED; else
NORMAL is judged against the document's pages, and the cause's row of R110's table decides: final with DISPATCH raised,
WAITING for the document's interval, or PENDING with the arbiter asked to run (RESET's retry of 0 s: log entry 30). R111:
what WAITING sets. -/
def Obligations.CallCommands : Prop :=
  (∀ (line : BitVec 8) (s : State), s.ctl.teardown = none → s.ctl.engine = .running →
    (4 ≤ line.toNat → exec (.callAnswer line) s = .next (s.noteResult ⟨.badArg, []⟩).settleStep) ∧
    ∀ n : Fin 4, line.toNat = n.val →
      let u := s.lineUnit n
      (u.record.active.rings ≠ 0 → exec (.callAnswer line) s = .next (s.noteResult ⟨.badArg, []⟩).settleStep) ∧
      (u.record.active.rings = 0 → u.record.state ≠ .ringing →
        exec (.callAnswer line) s = .next (s.noteResult ⟨.busy, []⟩).settleStep) ∧
      (u.record.active.rings = 0 → u.record.state = .ringing →
        ((∀ d, (s.doc d).inUse = true) →
          ∃ t : State, exec (.callAnswer line) s = .next t.settleStep ∧
            t = { s with
              lines := s.lines.set n { u with record := { u.record with answerRefusal := .entry } },
              ctl := s.ctl.noted t s.ctl.notices .noSpace [] }) ∧
        ((∃ d, (s.doc d).inUse = false) → s.mayReserve = false →
          ∃ t : State, exec (.callAnswer line) s = .next t.settleStep ∧
            t = { s with
              lines := s.lines.set n { u with record := { u.record with answerRefusal := .log } },
              ctl := s.ctl.noted t s.ctl.notices .noLog [] }) ∧
        ((∃ d, (s.doc d).inUse = false) → s.mayReserve = true →
          ∃ (t : State) (c : CallContext), exec (.callAnswer line) s = .next t.settleStep ∧
            t = { s with
              lines := s.lines.set n { u with
                record := { u.record with
                  state := .connected, callDirection := .incoming, destination := none, answerSource := .none, ringCount := 0,
                  answerRefusal := .none },
                offHook := true, loopLoss := some (s.now + 400000) },
              charge := { s.charge with
                reservations := s.charge.reservations + 1, contexts := s.charge.contexts.set n (some c) },
              ctl := s.ctl.noted t t.ctl.notices .ok [] } ∧
            c.account = 0 ∧ c.incoming = true ∧ c.method = .none ∧ c.phase = .charging ∧ c.seizeTime = s.charge.clock ∧
            c.answerTime = some s.charge.clock ∧ c.answeredAt = some s.now ∧ c.units = 0 ∧ t.isPending .line = true))) ∧
  (∀ (line : BitVec 8) (s : State), s.ctl.teardown = none → s.ctl.engine = .running →
    (4 ≤ line.toNat → exec (.answerSeen line) s = .next (s.noteResult ⟨.badArg, []⟩).settleStep) ∧
    ∀ n : Fin 4, line.toNat = n.val →
      let u := s.lineUnit n
      (u.record.state = .connected → exec (.answerSeen line) s = .next (s.noteResult ⟨.ok, []⟩).settleStep) ∧
      (u.record.state ≠ .connected → u.record.state ≠ .awaiting →
        exec (.answerSeen line) s = .next (s.noteResult ⟨.busy, []⟩).settleStep) ∧
      (u.record.state = .awaiting →
        ∃ t : State, exec (.answerSeen line) s = .next t.settleStep ∧
          t.lines = s.lines.set n { u with
            record := { u.record with state := .connected, answerSource := .host }, noAnswer := none } ∧
          t.isPending .line = true ∧ t.ctl.lastResult = some ⟨.ok, []⟩ ∧ t.mem = s.mem ∧ t.store = s.store ∧
          t.streams = s.streams ∧
          ∀ c, s.context n = some c → c.method = .meter →
            t.charge = { s.charge with contexts := s.charge.contexts.set n (some (({ c with
              answerTime := some s.charge.clock, answeredAt := some s.now, phase := .charging } : CallContext).policed
                (s.account c.account) s.now)) })) ∧
  (∀ (line cause : BitVec 8) (s : State), s.ctl.teardown = none → s.ctl.engine = .running →
    (4 ≤ line.toNat ∨ cause = 0 ∨ 4 < cause.toNat →
      exec (.callEnd line cause) s = .next (s.noteResult ⟨.badArg, []⟩).settleStep) ∧
    ∀ (n : Fin 4) (given : Cause), line.toNat = n.val → cause.toNat = given.code → 1 ≤ cause.toNat → cause.toNat ≤ 4 →
      let u := s.lineUnit n
      let taken : Cause := if (s.stream n).forced = true then .damaged else given
      (u.record.state.hasCall = false →
        exec (.callEnd line cause) s = .next (s.noteResult ⟨.busy, []⟩).settleStep) ∧
      (u.record.state.hasCall = true →
        ∃ t : State, exec (.callEnd line cause) s = .next t.settleStep ∧
          t.lines = s.lines.set n { u with
            record := { u.record with state := .clearing, lastCause := taken, destination := none, noLoopRun := 0 },
            offHook := false, toneCode := 0, element := none, loopCheck := none, seizeDelay := none, noAnswer := none,
            loopLoss := none, clearGuard := some (s.now + u.record.active.clearGuard * 1000000) } ∧
          (t.stream n).state = .closed ∧ (t.stream n).callDoc = none ∧ (t.stream n).forced = false ∧
          t.context n = none ∧ (∀ m, m ≠ n → t.context m = s.context m) ∧
          t.ctl.lastResult = some ⟨.ok, [BitVec.ofNat 8 taken.code]⟩ ∧ t.mem = s.mem ∧
          (s.context n = none → t.charge.recordQueue = s.charge.recordQueue ∧ t.charge.allotIndex = s.charge.allotIndex) ∧
          ∀ c, s.context n = some c →
            ∃ r, t.charge.recordQueue = s.charge.recordQueue ++ [r] ∧ r.index = s.charge.allotIndex ∧ r.line = n ∧
              r.account = c.account ∧ r.units = c.units ∧ r.cause = taken ∧ r.seizeTime = c.seizeTime ∧
              r.endTime = s.charge.clock ∧ r.number = c.number ∧ t.charge.allotIndex = s.charge.allotIndex + 1 ∧
              t.charge.reservations = s.charge.reservations - 1 ∧
              t.account c.account = { s.account c.account with calls := saturate 65535 (s.account c.account).calls })) ∧
  (∀ (n : Fin 4) (c : CallContext) (cause : Cause) (s : State), s.context n = some c →
    ∃ u : State, u.dispatch = s.dispatch ∧ u.now = s.now ∧ u.charge.clock = s.charge.clock ∧
      u.charge.clockSet = s.charge.clockSet ∧ u.context n = none ∧
      (∀ x, c.destination = some x → s.endContext n cause = u.settle x cause) ∧
      (c.destination = none → s.endContext n cause = u)) ∧
  (∀ (x : Fin 512) (given : Cause) (s : State),
    let r := s.dest x
    let d := s.doc r.document
    let cause := s.settledCause x given
    let tried : DestRecord := { r with line := none, lastCause := cause, attempts := r.attempts + 1 }
    let more : Prop := r.attempts + 1 < d.attemptLimit
    let retried : Prop := cause = .incomplete ∨ cause = .busy ∨ cause = .noAnswer ∨ cause = .noLoop ∨ cause = .loopDrop ∨
      cause = .failed
    (given ≠ .normal → cause = given) ∧
    (given = .normal → s.pageList r.document = [] → d.building = false → cause = .empty) ∧
    (given = .normal → s.pageList r.document ≠ [] → r.confirmed = (s.pageList r.document).length → d.building = false →
      cause = .normal) ∧
    (given = .normal → d.building = true ∨ (s.pageList r.document ≠ [] ∧ r.confirmed ≠ (s.pageList r.document).length) →
      cause = .incomplete) ∧
    (r.cancelRequested = true → s.settle x given = s.becomeFinal x tried .cancelled) ∧
    (r.cancelRequested = false →
      (cause = .normal → s.settle x given = s.becomeFinal x tried .done) ∧
      (retried → more → s.settle x given = s.startRetry x tried (d.retryInterval * 60)) ∧
      (retried ∨ cause = .budget ∨ cause = .reset → ¬more → s.settle x given = s.becomeFinal x tried .failed) ∧
      (cause = .budget ∨ cause = .reset → more → s.settle x given = s.becomePending x tried) ∧
      (cause = .damaged ∨ cause = .empty → s.settle x given = s.becomeFinal x tried .failed) ∧
      (cause = .cancel → s.settle x given = s.becomeFinal x tried .cancelled) ∧
      (cause = .glare → s.settle x given = s.becomePending x { r with line := none, lastCause := .glare }))) ∧
  ∀ (x : Fin 512) (r : DestRecord) (final : DestState) (seconds : Nat) (s : State),
    ((s.doc r.document).building = true →
      s.becomeFinal x r final = { s with
        dispatch := { s.dispatch with
          dests := s.dispatch.dests.set x { r with state := final, retryDue := none, blockReason := .none } },
        ctl := s.ctl.rewritten (s.becomeFinal x r final) (s.ctl.notices ||| Notice.dispatch.bit) }) ∧
    (s.becomeFinal x r final).dest x = { r with state := final, retryDue := none, blockReason := .none } ∧
    (s.becomeFinal x r final).isPending .dispatch = true ∧
    s.becomePending x r = { s with
      dispatch := { s.dispatch with
        dests := s.dispatch.dests.set x { r with state := .pending, retryDue := none }, arbiterDue := true },
      ctl := s.ctl.rewritten (s.becomePending x r) s.ctl.notices } ∧
    s.startRetry x r seconds = { s with
      dispatch := { s.dispatch with
        dests := s.dispatch.dests.set x { r with
          state := .waiting,
          retryDue :=
            if s.charge.clockSet = true
            then some
              { day := s.charge.clock.day + BitVec.ofNat 16 ((s.charge.clock.second + seconds) / 86400),
                second := (s.charge.clock.second + seconds) % 86400 }
            else none },
        retryTimers := s.dispatch.retryTimers.set x (some (s.now + seconds * 1000000)) },
      ctl := s.ctl.rewritten (s.startRetry x r seconds) s.ctl.notices }

/-! ## Timers and line signals (chapters 6, 7, 10, 11) -/

/-- R172: a second event with the clock not set only starts the next second; with it set the clock advances, day 65,535
followed by day 0 and the day of week by the next, and the period in force is judged. R175: a not-before time that the
clock then reaches, of a document in use and not COMPLETE with a PENDING destination, raises CLOCK and makes the line
arbiter run; with none reached and the period as it was neither happens. R111: a retry timer's expiry makes its WAITING
destination PENDING, its retry due absent, and the line arbiter runs; a timer that does not run has none. (The time is log
entry 2.) -/
def Obligations.SecondsAndRetries : Prop :=
  (∀ s : State,
    (s.charge.clockSet = false →
      exec .secondEvent s = .next ({ s with
        now := max s.now s.charge.dividerDue,
        charge := { s.charge with dividerDue := s.charge.dividerDue + 1000000 } } : State).settleStep) ∧
    (s.charge.clockSet = true →
      let last := decide (86400 ≤ s.charge.clock.second + 1)
      ∃ t : State, exec .secondEvent s = .next t.settleStep ∧
        t = { s with
          now := max s.now s.charge.dividerDue,
          charge := { s.charge with
            dividerDue := s.charge.dividerDue + 1000000,
            clock := if last then ⟨s.charge.clock.day + 1, 0⟩ else ⟨s.charge.clock.day, s.charge.clock.second + 1⟩,
            dayOfWeek :=
              if last then (if s.charge.dayOfWeek < 6 then s.charge.dayOfWeek + 1 else 0) else s.charge.dayOfWeek,
            period := t.charge.judged },
          dispatch := { s.dispatch with arbiterDue := t.dispatch.arbiterDue },
          ctl := s.ctl.rewritten t t.ctl.notices } ∧
        (t.ctl.notices = s.ctl.notices ∨ t.ctl.notices = s.ctl.notices ||| Notice.clock.bit) ∧
        (t.charge.period ≠ s.charge.period → t.isPending .clock = true) ∧ QueueEntry.record .counters ∈ t.ctl.queue ∧
        let before (c b : ClockValue) : Prop := c.day.toNat < b.day.toNat ∨ (c.day = b.day ∧ c.second < b.second)
        let passed : Prop := ∃ d b, (s.doc d).inUse = true ∧ (s.doc d).complete = false ∧ (s.doc d).notBefore = some b ∧
          (∃ x, x ∈ (s.doc d).dests ∧ (s.dest x).state = .pending) ∧ before s.charge.clock b ∧ ¬before t.charge.clock b
        (passed → t.isPending .clock = true ∧ t.dispatch.arbiterDue = true) ∧
          (¬passed → t.dispatch.arbiterDue = s.dispatch.arbiterDue ∧
            (t.charge.period = s.charge.period → t.ctl.notices = s.ctl.notices)))) ∧
  (∀ (x : Fin 512) (s : State),
    (s.dispatch.retryTimers.get x = none → exec (.retryTimerExpiry x) s = .next s.settleStep) ∧
    ∀ due, s.dispatch.retryTimers.get x = some due →
      ∃ t : State, exec (.retryTimerExpiry x) s = .next t.settleStep ∧
        t = { s with
          now := max s.now due,
          dispatch := { s.dispatch with
            retryTimers := s.dispatch.retryTimers.set x none,
            dests := if (s.dest x).state = .waiting
              then s.dispatch.dests.set x { s.dest x with state := .pending, retryDue := none } else s.dispatch.dests,
            arbiterDue := s.dispatch.arbiterDue || decide ((s.dest x).state = .waiting) },
          ctl := s.ctl.rewritten t s.ctl.notices } ∧
        ((s.dest x).state = .waiting → QueueEntry.record (.destination x) ∈ t.ctl.queue))

/-- Every step keeps the spec's own invariants, each with what it rests on. R78, R79: every store block stands once, on
the free list or on one page's chain, and the pages of the writer slots are WRITING, each in one slot (`storeWhole`).
R194, R195, R136, R188: the unread records and the reservations stay within the log's 1,024 places, the reservations equal
the open contexts, one for each line that holds a call, and the queued records are those allotted and not yet written
(`callsWhole`). R114, R105, R101: the print queue holds each document once, and those whose printout is QUEUED or
PRINTING; no COMPLETE document builds or owes a printout (`printWhole`, which rests on `callsWhole`). R141, R198: while
the teardown state is present no command is in progress and no line holds a call (`teardownHoldsNoCall`, which rests on
`callsWhole`; that no line answers there is log entry 50), so that RESET finds the reservation count 0 and, no record
waiting, the write index equal to the allot index. -/
def Obligations.StoreLogAndPrintQueueStayWhole : Prop :=
  (∀ s u : State, s.storeWhole → step s = .next u → u.storeWhole) ∧
  (∀ s u : State, s.callsWhole → step s = .next u → u.callsWhole) ∧
  (∀ s u : State, s.callsWhole → s.printWhole → step s = .next u → u.printWhole) ∧
  (∀ s u : State, s.callsWhole → s.teardownHoldsNoCall → step s = .next u → u.teardownHoldsNoCall) ∧
  ∀ s : State, s.callsWhole → s.teardownHoldsNoCall → s.ctl.teardown ≠ none →
    s.charge.reservations = 0 ∧ (s.charge.recordQueue = [] → s.charge.writeIndex = s.charge.allotIndex)

/-- R120, R131: meter pulses: the width is timed from the input's going active, but on a DISABLED line; a pulse that ends
is disregarded but in AWAITING and CONNECTED, where the context counts it, rejected or qualified; a qualified one answers
an AWAITING call. R121, R131: a reversal answers an AWAITING call, and is disregarded in any other state. R121, R127: loop
sense: present on a line that holds a call it stops the loop loss timer, and in SEIZING it is seen; absent where loop
current is established it starts that timer; neither has an effect elsewhere. (Log entries 2, 27, 36.) R189: an answer
charges a TIME context one unit and loads its unit timer with the grid's value; a meter answer counts its pulse and
charges a METER context one. R119: the ring input is timed from its going active, but on a DISABLED line, and no longer
once it is inactive. R119, R139: a counted burst keeps its time and starts the ring cycle, but on a DISABLED line, where
it has no effect. R122, R123: on an IDLE line that may be answered RINGING with LINE raised; on an IDLE line that only
calls out, and in RINGING below the answering count, the ring count gains 1; at that count the line answers, or shows what
it lacks, and in reset teardown makes no try (log entry 50); the loop loss timer starts at the answer (log entry 26); and
none of these elsewhere. R128: in SEIZING glare: on hook, the context ended with GLARE, the destination PENDING with no
attempt counted, the line RINGING with LINE raised, or IDLE when it only calls out; a line that answers at its first ring
then tries to answer at once. R119, R125, R118: the end of the ring cycle: the ring count is 0; a RINGING line is IDLE
again with the settings that wait, DISABLED where they are OFF, its ring and meter timing stopped (log entry 25), and the
line arbiter runs, as it does for a line that is IDLE. -/
def Obligations.MeterReversalAndLoopSignals : Prop :=
  (∀ (n : Fin 4) (width : Nat) (s : State),
    let u := s.lineUnit n
    (u.record.state ≠ .disabled → u.meterStart = none →
      exec (.meterInputActive n) s = .next ({ s with
        lines := s.lines.set n { u with meterStart := some s.now } } : State).settleStep) ∧
    (u.record.state = .disabled ∨ u.meterStart ≠ none → exec (.meterInputActive n) s = .next s.settleStep) ∧
    (u.meterStart = none → exec (.meterPulseJudged n width) s = .next s.settleStep) ∧
    ∀ start, u.meterStart = some start →
      let ended : State := { s with
        now := max s.now (start + width), lines := s.lines.set n { u with meterStart := none } }
      (u.record.state ≠ .awaiting → u.record.state ≠ .connected →
        exec (.meterPulseJudged n width) s = .next ended.settleStep) ∧
      (u.record.state = .awaiting ∨ u.record.state = .connected → ¬(30000 ≤ width ∧ width ≤ 300000) →
        exec (.meterPulseJudged n width) s = .next ({ ended with
          charge := { s.charge with contexts := match s.context n with
            | some c => s.charge.contexts.set n (some { c with rejected := c.rejected + 1 })
            | none => s.charge.contexts } } : State).settleStep) ∧
      (u.record.state = .connected → 30000 ≤ width → width ≤ 300000 →
        ∃ t : State, exec (.meterPulseJudged n width) s = .next t.settleStep ∧ t.lines = ended.lines ∧ t.mem = s.mem ∧
          (t.context n).map (fun x => x.qualified) = (s.context n).map (fun x => x.qualified + 1) ∧
          ∀ c, s.context n = some c → c.method = .meter → c.phase = .charging ∨ c.phase = .grace →
            c.units ≠ BitVec.allOnes 32 → (s.account c.account).charged ≠ BitVec.allOnes 32 →
            (t.context n).map (fun x => x.units) = some (c.units + 1) ∧
              (t.account c.account).charged = (s.account c.account).charged + 1) ∧
      (u.record.state = .awaiting → 30000 ≤ width → width ≤ 300000 →
        ∃ t : State, exec (.meterPulseJudged n width) s = .next t.settleStep ∧
          t.lines = s.lines.set n { u with
            meterStart := none, noAnswer := none,
            record := { u.record with state := .connected, answerSource := .meter } } ∧
          t.isPending .line = true ∧ t.mem = s.mem ∧
          ∀ c, s.context n = some c → c.method = .meter → c.units ≠ BitVec.allOnes 32 →
            (s.account c.account).charged ≠ BitVec.allOnes 32 →
            (t.context n).map (fun x => (x.qualified, x.units)) = some (c.qualified + 1, c.units + 1) ∧
              (t.account c.account).charged = (s.account c.account).charged + 1)) ∧
  (∀ (n : Fin 4) (s : State),
    let u := s.lineUnit n
    (u.record.state ≠ .awaiting → exec (.reversal n) s = .next s.settleStep) ∧
    (u.record.state = .awaiting →
      ∃ t : State, exec (.reversal n) s = .next t.settleStep ∧
        t.lines = s.lines.set n { u with
          record := { u.record with state := .connected, answerSource := .reversal }, noAnswer := none } ∧
        t.isPending .line = true ∧ t.mem = s.mem ∧ t.store = s.store ∧ t.streams = s.streams ∧
        ∀ c, s.context n = some c → c.method = .time → c.units ≠ BitVec.allOnes 32 →
          (s.account c.account).charged ≠ BitVec.allOnes 32 →
          let x := s.account c.account
          let value := (s.charge.grid.get c.band).get s.charge.period
          let full : Prop := x.budget ≠ 0 ∧ x.budget ≤ x.charged.toNat + 1
          (t.context n).map (fun y => (y.units, y.unitTimer)) =
              some (c.units + 1, if value = 0 then none else some (s.now + value * 1000000)) ∧
            (t.context n).map (fun y => (y.answerTime, y.answeredAt)) = some (some s.charge.clock, some s.now) ∧
            (t.context n).map (fun y => y.phase) = some (if full ∧ x.policy = .cut then .grace else .charging) ∧
            t.account c.account = { x with charged := x.charged + 1, atBudget := decide full })) ∧
  (∀ (n : Fin 4) (s : State),
    let u := s.lineUnit n
    (u.record.state.hasCall = true →
      exec (.loopSensePresent n) s = .next ({ s with lines := s.lines.set n { u with
        loopSeen := u.loopSeen || decide (u.record.state = .seizing), loopLoss := none } } : State).settleStep) ∧
    (u.record.state.hasCall = false → exec (.loopSensePresent n) s = .next s.settleStep) ∧
    ((u.record.state = .seizing ∧ u.loopSeen = true) ∨ u.record.state = .dialling ∨ u.record.state = .awaiting ∨
        u.record.state = .connected →
      u.loopLoss = none →
      exec (.loopSenseAbsent n) s = .next ({ s with
        lines := s.lines.set n { u with loopLoss := some (s.now + 400000) } } : State).settleStep) ∧
    (u.loopLoss ≠ none ∨ u.record.state.hasCall = false ∨ (u.record.state = .seizing ∧ u.loopSeen = false) →
      exec (.loopSenseAbsent n) s = .next s.settleStep)) ∧
  (∀ (n : Fin 4) (s : State),
    let u := s.lineUnit n
    (u.record.state ≠ .disabled → u.ring = .inactive →
      exec (.ringInputActive n) s = .next ({ s with
        lines := s.lines.set n { u with ring := .timing (s.now + 150000) } } : State).settleStep) ∧
    (u.record.state = .disabled ∨ u.ring ≠ .inactive → exec (.ringInputActive n) s = .next s.settleStep) ∧
    exec (.ringInputInactive n) s = .next ({ s with lines := s.lines.set n { u with ring := .inactive } } : State).settleStep) ∧
  (∀ (n : Fin 4) (s : State),
    let u := s.lineUnit n
    (u.record.state = .disabled ∨ (∀ due, u.ring ≠ .timing due) → exec (.ringBurstCounted n) s = .next s.settleStep) ∧
    ∀ due, u.ring = .timing due →
      let at_ := max s.now due
      let v : LineUnit := { u with ring := .counted, lastBurst := some at_, ringCycle := some (at_ + 8000000) }
      (u.record.state = .dialling ∨ u.record.state = .awaiting ∨ u.record.state = .connected ∨ u.record.state = .clearing →
        exec (.ringBurstCounted n) s = .next ({ s with now := at_, lines := s.lines.set n v } : State).settleStep) ∧
      (u.record.state = .idle → u.record.active.direction = .incoming ∨ u.record.active.direction = .both →
        u.record.active.rings ≠ 1 →
        ∃ t : State, exec (.ringBurstCounted n) s = .next t.settleStep ∧
          t = { s with
            now := at_,
            lines := s.lines.set n { v with record := { u.record with
              state := .ringing, ringCount := 1, answerRefusal := .none } },
            ctl := s.ctl.rewritten t (s.ctl.notices ||| Notice.line.bit) } ∧
          QueueEntry.record (.line n) ∈ t.ctl.queue) ∧
      ((u.record.state = .idle ∧ (u.record.active.direction = .off ∨ u.record.active.direction = .out)) ∨
          (u.record.state = .ringing ∧
            (u.record.active.rings = 0 ∨ saturate 255 u.record.ringCount < u.record.active.rings)) →
        ∃ t : State, exec (.ringBurstCounted n) s = .next t.settleStep ∧
          t = { s with
            now := at_,
            lines := s.lines.set n { v with record := { u.record with ringCount := saturate 255 u.record.ringCount } },
            ctl := s.ctl.rewritten t s.ctl.notices }) ∧
      (let entered : Prop := u.record.state = .idle ∧
         (u.record.active.direction = .incoming ∨ u.record.active.direction = .both) ∧ u.record.active.rings = 1
       let count := if u.record.state = .idle then 1 else saturate 255 u.record.ringCount
       let refused (why : AnswerRefusal) (flag : Notice) : Prop :=
         ∃ t : State, exec (.ringBurstCounted n) s = .next t.settleStep ∧
           t = { s with
             now := at_,
             lines := s.lines.set n { v with record := { u.record with
               state := .ringing, ringCount := count, answerRefusal := why } },
             ctl := s.ctl.rewritten t
               ((if u.record.state = .idle then s.ctl.notices ||| Notice.line.bit else s.ctl.notices) ||| flag.bit) }
       entered ∨ (u.record.state = .ringing ∧ u.record.active.rings ≠ 0 ∧ u.record.active.rings ≤ count) →
       (s.ctl.teardown ≠ none →
         ∃ t : State, exec (.ringBurstCounted n) s = .next t.settleStep ∧
           t = { s with
             now := at_,
             lines := s.lines.set n { v with record := { u.record with
               state := .ringing, ringCount := count,
               answerRefusal := if u.record.state = .idle then .none else u.record.answerRefusal } },
             ctl := s.ctl.rewritten t
               (if u.record.state = .idle then s.ctl.notices ||| Notice.line.bit else s.ctl.notices) }) ∧
       (s.ctl.teardown = none → (∀ d, (s.doc d).inUse = true) → refused .entry .dispatch) ∧
       (s.ctl.teardown = none → (∃ d, (s.doc d).inUse = false) → s.mayReserve = false → refused .log .log) ∧
       (s.ctl.teardown = none → (∃ d, (s.doc d).inUse = false) → s.mayReserve = true →
         ∃ (t : State) (c : CallContext), exec (.ringBurstCounted n) s = .next t.settleStep ∧
           t = { s with
             now := at_,
             lines := s.lines.set n { v with
               record := { u.record with
                 state := .connected, callDirection := .incoming, destination := none, answerSource := .none, ringCount := 0,
                 answerRefusal := .none },
               offHook := true, loopLoss := some (at_ + 400000) },
             charge := { s.charge with
               reservations := s.charge.reservations + 1, contexts := s.charge.contexts.set n (some c) },
             ctl := s.ctl.rewritten t t.ctl.notices } ∧
           c.account = 0 ∧ c.incoming = true ∧ c.method = .none ∧ c.phase = .charging ∧ c.seizeTime = s.charge.clock ∧
           c.answerTime = some s.charge.clock ∧ c.answeredAt = some at_ ∧ c.units = 0 ∧ t.isPending .line = true)) ∧
      (∀ c x, u.record.state = .seizing → s.context n = some c → c.destination = some x →
        (s.dest x).cancelRequested = false →
        ¬((u.record.active.direction = .incoming ∨ u.record.active.direction = .both) ∧ u.record.active.rings = 1) →
        let rings := u.record.active.direction = .incoming ∨ u.record.active.direction = .both
        ∃ (t : State) (r : ChargeRecord), exec (.ringBurstCounted n) s = .next t.settleStep ∧ t.now = at_ ∧
          t.lines = s.lines.set n { v with
            record := { u.record with
              state := if rings then .ringing else .idle, ringCount := 1, lastCause := .glare, destination := none,
              callDirection := .none, answerRefusal := if rings then .none else u.record.answerRefusal },
            offHook := false, loopCheck := none, seizeDelay := none, loopLoss := none } ∧
          (rings → t.isPending .line = true) ∧ t.context n = none ∧
          t.charge.recordQueue = s.charge.recordQueue ++ [r] ∧ r.cause = .glare ∧ r.units = c.units ∧
          r.index = s.charge.allotIndex ∧ t.charge.reservations = s.charge.reservations - 1 ∧
          t.dest x = { s.dest x with line := none, lastCause := .glare, state := .pending, retryDue := none } ∧
          t.dispatch.arbiterDue = true ∧ t.mem = s.mem) ∧
      ∀ c x, u.record.state = .seizing → s.context n = some c → c.destination = some x →
        (s.dest x).cancelRequested = false → s.ctl.teardown = none →
        u.record.active.direction = .incoming ∨ u.record.active.direction = .both → u.record.active.rings = 1 →
        let room : Prop := s.ctl.engine = .running ∧
          (s.charge.allotIndex + 1 - s.charge.readIndex).toNat + (s.charge.reservations - 1) < 1024
        let noEntry : Prop := ∀ d, (s.doc d).inUse = true
        let glared : LineUnit := { v with
          record := { u.record with
            state := .ringing, ringCount := 1, lastCause := .glare, destination := none, callDirection := .none,
            answerRefusal := if noEntry then .entry else .log },
          offHook := false, loopCheck := none, seizeDelay := none, loopLoss := none }
        ∃ (t : State) (r : ChargeRecord), exec (.ringBurstCounted n) s = .next t.settleStep ∧ t.now = at_ ∧
          t.isPending .line = true ∧ t.charge.recordQueue = s.charge.recordQueue ++ [r] ∧ r.cause = .glare ∧
          r.units = c.units ∧ r.index = s.charge.allotIndex ∧ t.charge.allotIndex = s.charge.allotIndex + 1 ∧
          t.dest x = { s.dest x with line := none, lastCause := .glare, state := .pending, retryDue := none } ∧
          t.dispatch.arbiterDue = true ∧ t.mem = s.mem ∧
          (noEntry ∨ ¬room →
            t.lines = s.lines.set n glared ∧ t.context n = none ∧
              t.charge.reservations = s.charge.reservations - 1 ∧
              t.isPending (if noEntry then .dispatch else .log) = true) ∧
          (¬noEntry → room →
            t.lines = s.lines.set n { glared with
              record := { glared.record with
                state := .connected, callDirection := .incoming, ringCount := 0, answerSource := .none,
                answerRefusal := .none },
              offHook := true, loopLoss := some (at_ + 400000) } ∧
              t.charge.reservations = s.charge.reservations - 1 + 1 ∧
              ∃ c', t.context n = some c' ∧ c'.account = 0 ∧ c'.incoming = true ∧ c'.method = .none ∧ c'.phase = .charging ∧
                c'.answerTime = some s.charge.clock ∧ c'.answeredAt = some at_ ∧ c'.units = 0)) ∧
  (∀ (n : Fin 4) (s : State),
    let u := s.lineUnit n
    (u.ringCycle = none → exec (.ringCycleEnd n) s = .next s.settleStep) ∧
    ∀ due, u.ringCycle = some due →
      let ended : LineUnit := { u with ringCycle := none, record := { u.record with ringCount := 0 } }
      (u.record.state ≠ .ringing ∨ u.record.pending = none →
        ∃ t : State, exec (.ringCycleEnd n) s = .next t.settleStep ∧
          t = { s with
            now := max s.now due,
            lines := s.lines.set n
              (if u.record.state = .ringing
                then { ended with record := { ended.record with state := .idle, answerRefusal := .none } } else ended),
            dispatch := { s.dispatch with
              arbiterDue := s.dispatch.arbiterDue || decide (u.record.state = .ringing ∨ u.record.state = .idle) },
            ctl := s.ctl.rewritten t s.ctl.notices }) ∧
      ∀ x, u.record.state = .ringing → u.record.pending = some x →
        ∃ t : State, exec (.ringCycleEnd n) s = .next t.settleStep ∧
          t = { s with
            now := max s.now due,
            lines := s.lines.set n
              (if x.direction = .off
                then { ended with
                  lastBurst := none, ring := .inactive, meterStart := none,
                  record := { ended.record with
                    state := .disabled, disabledReason := .off, answerRefusal := .none, active := x, pending := none } }
                else { ended with
                  record := { ended.record with state := .idle, answerRefusal := .none, active := x, pending := none } }),
            dispatch := { s.dispatch with arbiterDue := true },
            ctl := s.ctl.rewritten t s.ctl.notices })

/-- R127, R133, R134, R136: the timers that end a call: a loop loss, a loop check or a seize delay without loop current, a
no-answer time and a grace time clear the line with their cause; a timer that does not run has no effect; a loop check
with loop current only stops. R136, R138: NOLOOP adds 1 to the NOLOOP run, and any other cause makes it 0. R193: the
call's record is allotted and queued, its reservation released; R110: its destination, here with no stream open, counts an
attempt and is WAITING for the document's interval, PENDING after BUDGET, or FAILED at the attempt limit. R137, R138,
R118: the clear guard's end, settings that wait being applied: where they are OFF, DISABLED without LINE; else IDLE with
LINE raised and the arbiter run; after a third call in a row without loop current DISABLED with reason LOOPFAULT. R189,
R191: a unit timer's expiry charges a unit to the context and its account and loads the timer with the grid's value for
the band and the period then in force, 0 leaving it stopped; a timer that does not run has no expiry. (Log entries 2, 25,
40.) -/
def Obligations.LineTimersExpire : Prop :=
  (∀ (n : Fin 4) (due : Nat) (s : State),
    let u := s.lineUnit n
    let clears (c : Instr) (cause : Cause) : Prop :=
      ∃ t : State, exec c s = .next t.settleStep ∧ t.now = max s.now due ∧
        (t.lineUnit n).record.state = .clearing ∧ (t.lineUnit n).record.lastCause = cause ∧
        (t.lineUnit n).offHook = false ∧ (t.lineUnit n).record.destination = none ∧ t.context n = none ∧
        (t.stream n).state = .closed ∧
        (t.lineUnit n).clearGuard = some (max s.now due + u.record.active.clearGuard * 1000000) ∧
        (t.lineUnit n).record.noLoopRun =
          (if cause = .noLoop then (if u.record.noLoopRun < 3 then u.record.noLoopRun + 1 else 3) else 0) ∧
        (∀ m, m ≠ n → t.lineUnit m = s.lineUnit m) ∧ t.mem = s.mem ∧
        ∀ c, s.context n = some c →
          (∃ r, t.charge.recordQueue = s.charge.recordQueue ++ [r] ∧ r.index = s.charge.allotIndex ∧ r.line = n ∧
            r.account = c.account ∧ r.units = c.units ∧ r.cause = cause ∧ r.seizeTime = c.seizeTime ∧
            r.endTime = s.charge.clock ∧ r.number = c.number) ∧
          t.charge.allotIndex = s.charge.allotIndex + 1 ∧ t.charge.reservations = s.charge.reservations - 1 ∧
          t.account c.account = { s.account c.account with calls := saturate 65535 (s.account c.account).calls } ∧
          ∀ x, c.destination = some x → (s.dest x).cancelRequested = false → (s.stream n).state = .closed →
            (s.stream n).callDoc = none →
            let d := s.doc (s.dest x).document
            let tried : DestRecord := { s.dest x with line := none, lastCause := cause, attempts := (s.dest x).attempts + 1 }
            let ends := s.charge.clock.second + d.retryInterval * 60
            t.dest x =
              if tried.attempts < d.attemptLimit then
                if cause = .budget then { tried with state := .pending, retryDue := none }
                else { tried with
                  state := .waiting,
                  retryDue := if s.charge.clockSet = true
                    then some ⟨s.charge.clock.day + BitVec.ofNat 16 (ends / 86400), ends % 86400⟩ else none }
              else { tried with state := .failed, retryDue := none, blockReason := .none }
    (u.loopLoss = none → exec (.loopLoss n) s = .next s.settleStep) ∧
    (u.loopLoss = some due → u.record.state.hasCall = true → clears (.loopLoss n) .loopDrop) ∧
    (u.loopCheck = none → exec (.loopCheckExpiry n) s = .next s.settleStep) ∧
    (u.loopCheck = some due → u.loopSeen = true →
      exec (.loopCheckExpiry n) s = .next ({ s with
        now := max s.now due, lines := s.lines.set n { u with loopCheck := none } } : State).settleStep) ∧
    (u.loopCheck = some due → u.loopSeen = false → u.record.state.hasCall = true → clears (.loopCheckExpiry n) .noLoop) ∧
    (u.seizeDelay = none → exec (.seizeDelayExpiry n) s = .next s.settleStep) ∧
    (u.seizeDelay = some due → u.loopSeen = false → u.record.state.hasCall = true → clears (.seizeDelayExpiry n) .noLoop) ∧
    (u.noAnswer = none → exec (.noAnswerExpiry n) s = .next s.settleStep) ∧
    (u.noAnswer = some due → u.record.state.hasCall = true → clears (.noAnswerExpiry n) .noAnswer) ∧
    (∀ c, s.context n = some c → c.graceTimer = none → exec (.graceExpiry n) s = .next s.settleStep) ∧
    ∀ c, s.context n = some c → c.graceTimer = some due → u.record.state = .connected → clears (.graceExpiry n) .budget) ∧
  (∀ (n : Fin 4) (s : State),
    let u := s.lineUnit n
    (u.clearGuard = none → exec (.clearGuardExpiry n) s = .next s.settleStep) ∧
    ∀ due, u.clearGuard = some due →
      let active := u.record.pending.getD u.record.active
      let record : LineRecord := { u.record with
        callDirection := .none, answerSource := .none, active := active, pending := none }
      let quiet : LineUnit := { u with
        clearGuard := none, lastBurst := none, ring := .inactive, ringCycle := none, meterStart := none }
      (u.record.noLoopRun ≠ 3 → u.record.pending = none ∨ active.direction ≠ .off →
        ∃ t : State, exec (.clearGuardExpiry n) s = .next t.settleStep ∧
          t = { s with
            now := max s.now due,
            lines := s.lines.set n { u with clearGuard := none, record := { record with state := .idle } },
            dispatch := { s.dispatch with arbiterDue := true },
            ctl := s.ctl.rewritten t (s.ctl.notices ||| Notice.line.bit) }) ∧
      (u.record.noLoopRun ≠ 3 → u.record.pending ≠ none → active.direction = .off →
        ∃ t : State, exec (.clearGuardExpiry n) s = .next t.settleStep ∧
          t = { s with
            now := max s.now due,
            lines := s.lines.set n { quiet with
              record := { record with state := .disabled, disabledReason := .off, ringCount := 0 } },
            ctl := s.ctl.rewritten t s.ctl.notices }) ∧
      (u.record.noLoopRun = 3 →
        ∃ t : State, exec (.clearGuardExpiry n) s = .next t.settleStep ∧
          t = { s with
            now := max s.now due,
            lines := s.lines.set n { quiet with record := { record with state := .disabled, disabledReason := .loopFault } },
            ctl := s.ctl.rewritten t (s.ctl.notices ||| Notice.line.bit) })) ∧
  (∀ (n : Fin 4) (c : CallContext) (s : State), s.context n = some c →
    (c.unitTimer = none → exec (.unitTimerExpiry n) s = .next s.settleStep) ∧
    ∀ due, c.unitTimer = some due → c.units ≠ BitVec.allOnes 32 →
      (s.account c.account).charged ≠ BitVec.allOnes 32 →
      let value := (s.charge.grid.get c.band).get s.charge.period
      ∃ t : State, exec (.unitTimerExpiry n) s = .next t.settleStep ∧ t.now = max s.now due ∧
        (t.context n).map (fun x => (x.units, x.unitTimer)) =
          some (c.units + 1, if value = 0 then none else some (due + value * 1000000)) ∧
        (t.account c.account).charged = (s.account c.account).charged + 1 ∧
        (∀ a, a ≠ c.account → t.account a = s.account a) ∧ t.lines = s.lines ∧ t.mem = s.mem ∧ t.store = s.store ∧
        t.streams = s.streams)

/-- R127, R129: the seize delay's end with loop current starts the dialling of the first character. R130: how a character's
element begins: a pause off hook and without tone, a tone character or any character on a TONE line with its tone, a
digit on a PULSE line with its first break. R130: the phases inside an element: a tone's gap; a break's make; the next
break, or after the last the interdigit time. R129, R133: an element's end: characters sent gains 1 and the next
character begins, or with none left the line is AWAITING, its no-answer timer running. (Log entries 2, 40.) -/
def Obligations.Dialling : Prop :=
  (∀ (n : Fin 4) (due : Nat) (c : DialChar) (s : State),
    let u := s.lineUnit n
    u.seizeDelay = some due → u.loopSeen = true → u.number[u.record.charsSent]? = some c →
    ∃ t : State, exec (.seizeDelayExpiry n) s = .next t.settleStep ∧
      t = { s with
        now := max s.now due,
        lines := s.lines.set n (({ u with
          seizeDelay := none, record := { u.record with state := .dialling } } : LineUnit).startElement c due),
        ctl := s.ctl.rewritten t s.ctl.notices }) ∧
  (∀ (u : LineUnit) (start : Nat) (d : Fin 10),
    u.startElement .pause start = { u with
      offHook := true, toneCode := 0,
      element := some { phase := .pause, due := start + u.record.active.pauseLength * 1000000 } } ∧
    (u.record.active.dialMethod = .tone →
      u.startElement (.digit d) start = { u with
        offHook := true, toneCode := if d = 0 then 10 else d.val,
        element := some { phase := .toneOn, due := start + u.record.active.toneOn * 1000 } }) ∧
    (u.record.active.dialMethod = .tone →
      u.startElement .star start = { u with
        offHook := true, toneCode := 11,
        element := some { phase := .toneOn, due := start + u.record.active.toneOn * 1000 } } ∧
      u.startElement .hash start = { u with
        offHook := true, toneCode := 12,
        element := some { phase := .toneOn, due := start + u.record.active.toneOn * 1000 } }) ∧
    (u.record.active.dialMethod = .pulse →
      u.startElement (.digit d) start = { u with
        offHook := false, toneCode := 0,
        element := some { phase := .pulseBreak ((if d = 0 then 10 else d.val) - 1), due := start + 60000 } })) ∧
  (∀ (n : Fin 4) (s : State),
    let u := s.lineUnit n
    let goesTo (due : Nat) (v : LineUnit) : Prop :=
      exec (.dialElementPhaseEnd n) s = .next ({ s with now := max s.now due, lines := s.lines.set n v } : State).settleStep
    (u.element = none → exec (.dialElementPhaseEnd n) s = .next s.settleStep) ∧
    ∀ due, (u.element = some ⟨.toneOn, due⟩ →
        goesTo due { u with
          toneCode := 0, element := some { phase := .toneGap, due := due + u.record.active.toneGap * 1000 } }) ∧
      (∀ left, u.element = some ⟨.pulseBreak left, due⟩ →
        goesTo due { u with offHook := true, element := some { phase := .pulseMake left, due := due + 40000 } }) ∧
      (∀ left, u.element = some ⟨.pulseMake (left + 1), due⟩ →
        goesTo due { u with offHook := false, element := some { phase := .pulseBreak left, due := due + 60000 } }) ∧
      (u.element = some ⟨.pulseMake 0, due⟩ →
        goesTo due { u with element := some { phase := .interdigit, due := due + 700000 } }) ∧
      (u.element = some ⟨.toneGap, due⟩ ∨ u.element = some ⟨.interdigit, due⟩ ∨ u.element = some ⟨.pause, due⟩ →
        exec (.dialElementPhaseEnd n) s = .next s.settleStep)) ∧
  (∀ (n : Fin 4) (due : Nat) (phase : DialPhase) (s : State),
    let u := s.lineUnit n
    u.element = some ⟨phase, due⟩ → phase = .toneGap ∨ phase = .interdigit ∨ phase = .pause →
    let counted : LineUnit := { u with record := { u.record with charsSent := u.record.charsSent + 1 } }
    ∃ t : State, exec (.dialElementEnd n) s = .next t.settleStep ∧
      t = { s with
        now := max s.now due, lines := s.lines.set n (t.lineUnit n), ctl := s.ctl.rewritten t s.ctl.notices } ∧
      (∀ c, u.number[u.record.charsSent + 1]? = some c → t.lineUnit n = counted.startElement c due) ∧
      (u.number[u.record.charsSent + 1]? = none →
        t.lineUnit n = { counted with
          record := { counted.record with state := .awaiting }, offHook := true, toneCode := 0, element := none,
          noAnswer := some (due + u.record.active.noAnswer * 1000000) }) ∧
      QueueEntry.record (.line n) ∈ t.ctl.queue)
end

