-- ==== Sys2Proof/Laws/State.lean ====
section
/-! SUPPORT. Laws of the state: what each update of one record leaves of every field of the state, and what it makes of the
record it writes. -/

namespace Sys2Proof.Machine

variable (s : State)

@[simp] theorem State.enqueue_pending (e : QueueEntry) : (s.enqueue e).pending = s.pending := by
  unfold State.enqueue; split <;> rfl
@[simp] theorem State.enqueue_now (e : QueueEntry) : (s.enqueue e).now = s.now := by
  unfold State.enqueue; split <;> rfl
@[simp] theorem State.enqueue_freeCount (e : QueueEntry) : (s.enqueue e).freeCount = s.freeCount := by
  unfold State.enqueue; split <;> rfl
@[simp] theorem State.enqueue_mem (e : QueueEntry) : (s.enqueue e).mem = s.mem := by
  unfold State.enqueue; split <;> rfl
@[simp] theorem State.enqueue_resetInput (e : QueueEntry) : (s.enqueue e).resetInput = s.resetInput := by
  unfold State.enqueue; split <;> rfl
@[simp] theorem State.enqueue_path (e : QueueEntry) : (s.enqueue e).path = s.path := by
  unfold State.enqueue; split <;> rfl
@[simp] theorem State.enqueue_store (e : QueueEntry) : (s.enqueue e).store = s.store := by
  unfold State.enqueue; split <;> rfl
@[simp] theorem State.enqueue_coder (e : QueueEntry) : (s.enqueue e).coder = s.coder := by
  unfold State.enqueue; split <;> rfl
@[simp] theorem State.enqueue_scan (e : QueueEntry) : (s.enqueue e).scan = s.scan := by
  unfold State.enqueue; split <;> rfl
@[simp] theorem State.enqueue_print (e : QueueEntry) : (s.enqueue e).print = s.print := by
  unfold State.enqueue; split <;> rfl
@[simp] theorem State.enqueue_streams (e : QueueEntry) : (s.enqueue e).streams = s.streams := by
  unfold State.enqueue; split <;> rfl
@[simp] theorem State.enqueue_dispatch (e : QueueEntry) : (s.enqueue e).dispatch = s.dispatch := by
  unfold State.enqueue; split <;> rfl
@[simp] theorem State.enqueue_lines (e : QueueEntry) : (s.enqueue e).lines = s.lines := by
  unfold State.enqueue; split <;> rfl
@[simp] theorem State.enqueue_charge (e : QueueEntry) : (s.enqueue e).charge = s.charge := by
  unfold State.enqueue; split <;> rfl
@[simp] theorem State.enqueue_ctl_engine (e : QueueEntry) : (s.enqueue e).ctl.engine = s.ctl.engine := by
  unfold State.enqueue; split <;> rfl
@[simp] theorem State.enqueue_ctl_teardown (e : QueueEntry) : (s.enqueue e).ctl.teardown = s.ctl.teardown := by
  unfold State.enqueue; split <;> rfl
@[simp] theorem State.enqueue_ctl_head (e : QueueEntry) : (s.enqueue e).ctl.head = s.ctl.head := by
  unfold State.enqueue; split <;> rfl
@[simp] theorem State.enqueue_ctl_takenTail (e : QueueEntry) : (s.enqueue e).ctl.takenTail = s.ctl.takenTail := by
  unfold State.enqueue; split <;> rfl
@[simp] theorem State.enqueue_ctl_ring (e : QueueEntry) : (s.enqueue e).ctl.ring = s.ctl.ring := by
  unfold State.enqueue; split <;> rfl
@[simp] theorem State.enqueue_ctl_inProgress (e : QueueEntry) : (s.enqueue e).ctl.inProgress = s.ctl.inProgress := by
  unfold State.enqueue; split <;> rfl
@[simp] theorem State.enqueue_ctl_ringErrors (e : QueueEntry) : (s.enqueue e).ctl.ringErrors = s.ctl.ringErrors := by
  unfold State.enqueue; split <;> rfl
@[simp] theorem State.enqueue_ctl_notices (e : QueueEntry) : (s.enqueue e).ctl.notices = s.ctl.notices := by
  unfold State.enqueue; split <;> rfl
@[simp] theorem State.enqueue_ctl_mask (e : QueueEntry) : (s.enqueue e).ctl.mask = s.ctl.mask := by
  unfold State.enqueue; split <;> rfl
@[simp] theorem State.enqueue_ctl_lastResult (e : QueueEntry) : (s.enqueue e).ctl.lastResult = s.ctl.lastResult := by
  unfold State.enqueue; split <;> rfl

@[simp] theorem State.rewrite_pending (r : RecordId) : (s.rewrite r).pending = s.pending := by simp [State.rewrite]
@[simp] theorem State.rewrite_now (r : RecordId) : (s.rewrite r).now = s.now := by simp [State.rewrite]
@[simp] theorem State.rewrite_freeCount (r : RecordId) : (s.rewrite r).freeCount = s.freeCount := by
  simp [State.rewrite]
@[simp] theorem State.rewrite_mem (r : RecordId) : (s.rewrite r).mem = s.mem := by simp [State.rewrite]
@[simp] theorem State.rewrite_resetInput (r : RecordId) : (s.rewrite r).resetInput = s.resetInput := by
  simp [State.rewrite]
@[simp] theorem State.rewrite_path (r : RecordId) : (s.rewrite r).path = s.path := by simp [State.rewrite]
@[simp] theorem State.rewrite_store (r : RecordId) : (s.rewrite r).store = s.store := by simp [State.rewrite]
@[simp] theorem State.rewrite_coder (r : RecordId) : (s.rewrite r).coder = s.coder := by simp [State.rewrite]
@[simp] theorem State.rewrite_scan (r : RecordId) : (s.rewrite r).scan = s.scan := by simp [State.rewrite]
@[simp] theorem State.rewrite_print (r : RecordId) : (s.rewrite r).print = s.print := by simp [State.rewrite]
@[simp] theorem State.rewrite_streams (r : RecordId) : (s.rewrite r).streams = s.streams := by simp [State.rewrite]
@[simp] theorem State.rewrite_dispatch (r : RecordId) : (s.rewrite r).dispatch = s.dispatch := by simp [State.rewrite]
@[simp] theorem State.rewrite_lines (r : RecordId) : (s.rewrite r).lines = s.lines := by simp [State.rewrite]
@[simp] theorem State.rewrite_charge (r : RecordId) : (s.rewrite r).charge = s.charge := by simp [State.rewrite]
@[simp] theorem State.rewrite_ctl_engine (r : RecordId) : (s.rewrite r).ctl.engine = s.ctl.engine := by
  simp [State.rewrite]
@[simp] theorem State.rewrite_ctl_teardown (r : RecordId) : (s.rewrite r).ctl.teardown = s.ctl.teardown := by
  simp [State.rewrite]
@[simp] theorem State.rewrite_ctl_head (r : RecordId) : (s.rewrite r).ctl.head = s.ctl.head := by simp [State.rewrite]
@[simp] theorem State.rewrite_ctl_takenTail (r : RecordId) : (s.rewrite r).ctl.takenTail = s.ctl.takenTail := by
  simp [State.rewrite]
@[simp] theorem State.rewrite_ctl_ring (r : RecordId) : (s.rewrite r).ctl.ring = s.ctl.ring := by simp [State.rewrite]
@[simp] theorem State.rewrite_ctl_inProgress (r : RecordId) : (s.rewrite r).ctl.inProgress = s.ctl.inProgress := by
  simp [State.rewrite]
@[simp] theorem State.rewrite_ctl_ringErrors (r : RecordId) : (s.rewrite r).ctl.ringErrors = s.ctl.ringErrors := by
  simp [State.rewrite]
@[simp] theorem State.rewrite_ctl_notices (r : RecordId) : (s.rewrite r).ctl.notices = s.ctl.notices := by
  simp [State.rewrite]
@[simp] theorem State.rewrite_ctl_mask (r : RecordId) : (s.rewrite r).ctl.mask = s.ctl.mask := by simp [State.rewrite]
@[simp] theorem State.rewrite_ctl_lastResult (r : RecordId) : (s.rewrite r).ctl.lastResult = s.ctl.lastResult := by
  simp [State.rewrite]

@[simp] theorem State.fullRewrite_pending : (s.fullRewrite).pending = s.pending := by rfl
@[simp] theorem State.fullRewrite_now : (s.fullRewrite).now = s.now := by rfl
@[simp] theorem State.fullRewrite_freeCount : (s.fullRewrite).freeCount = s.freeCount := by rfl
@[simp] theorem State.fullRewrite_mem : (s.fullRewrite).mem = s.mem := by rfl
@[simp] theorem State.fullRewrite_resetInput : (s.fullRewrite).resetInput = s.resetInput := by rfl
@[simp] theorem State.fullRewrite_path : (s.fullRewrite).path = s.path := by rfl
@[simp] theorem State.fullRewrite_store : (s.fullRewrite).store = s.store := by rfl
@[simp] theorem State.fullRewrite_coder : (s.fullRewrite).coder = s.coder := by rfl
@[simp] theorem State.fullRewrite_scan : (s.fullRewrite).scan = s.scan := by rfl
@[simp] theorem State.fullRewrite_print : (s.fullRewrite).print = s.print := by rfl
@[simp] theorem State.fullRewrite_streams : (s.fullRewrite).streams = s.streams := by rfl
@[simp] theorem State.fullRewrite_dispatch : (s.fullRewrite).dispatch = s.dispatch := by rfl
@[simp] theorem State.fullRewrite_lines : (s.fullRewrite).lines = s.lines := by rfl
@[simp] theorem State.fullRewrite_charge : (s.fullRewrite).charge = s.charge := by rfl
@[simp] theorem State.fullRewrite_ctl_engine : (s.fullRewrite).ctl.engine = s.ctl.engine := by rfl
@[simp] theorem State.fullRewrite_ctl_teardown : (s.fullRewrite).ctl.teardown = s.ctl.teardown := by rfl
@[simp] theorem State.fullRewrite_ctl_head : (s.fullRewrite).ctl.head = s.ctl.head := by rfl
@[simp] theorem State.fullRewrite_ctl_takenTail : (s.fullRewrite).ctl.takenTail = s.ctl.takenTail := by rfl
@[simp] theorem State.fullRewrite_ctl_ring : (s.fullRewrite).ctl.ring = s.ctl.ring := by rfl
@[simp] theorem State.fullRewrite_ctl_inProgress : (s.fullRewrite).ctl.inProgress = s.ctl.inProgress := by rfl
@[simp] theorem State.fullRewrite_ctl_ringErrors : (s.fullRewrite).ctl.ringErrors = s.ctl.ringErrors := by rfl
@[simp] theorem State.fullRewrite_ctl_notices : (s.fullRewrite).ctl.notices = s.ctl.notices := by rfl
@[simp] theorem State.fullRewrite_ctl_mask : (s.fullRewrite).ctl.mask = s.ctl.mask := by rfl
@[simp] theorem State.fullRewrite_ctl_lastResult : (s.fullRewrite).ctl.lastResult = s.ctl.lastResult := by rfl

@[simp] theorem State.rewriteIf_pending (c : Prop) [Decidable c] (r : RecordId) : (s.rewriteIf c r).pending = s.pending := by
  unfold State.rewriteIf; split <;> simp
@[simp] theorem State.rewriteIf_now (c : Prop) [Decidable c] (r : RecordId) : (s.rewriteIf c r).now = s.now := by
  unfold State.rewriteIf; split <;> simp
@[simp] theorem State.rewriteIf_freeCount (c : Prop) [Decidable c] (r : RecordId) : (s.rewriteIf c r).freeCount = s.freeCount := by
  unfold State.rewriteIf; split <;> simp
@[simp] theorem State.rewriteIf_mem (c : Prop) [Decidable c] (r : RecordId) : (s.rewriteIf c r).mem = s.mem := by
  unfold State.rewriteIf; split <;> simp
@[simp] theorem State.rewriteIf_resetInput (c : Prop) [Decidable c] (r : RecordId) : (s.rewriteIf c r).resetInput = s.resetInput := by
  unfold State.rewriteIf; split <;> simp
@[simp] theorem State.rewriteIf_path (c : Prop) [Decidable c] (r : RecordId) : (s.rewriteIf c r).path = s.path := by
  unfold State.rewriteIf; split <;> simp
@[simp] theorem State.rewriteIf_store (c : Prop) [Decidable c] (r : RecordId) : (s.rewriteIf c r).store = s.store := by
  unfold State.rewriteIf; split <;> simp
@[simp] theorem State.rewriteIf_coder (c : Prop) [Decidable c] (r : RecordId) : (s.rewriteIf c r).coder = s.coder := by
  unfold State.rewriteIf; split <;> simp
@[simp] theorem State.rewriteIf_scan (c : Prop) [Decidable c] (r : RecordId) : (s.rewriteIf c r).scan = s.scan := by
  unfold State.rewriteIf; split <;> simp
@[simp] theorem State.rewriteIf_print (c : Prop) [Decidable c] (r : RecordId) : (s.rewriteIf c r).print = s.print := by
  unfold State.rewriteIf; split <;> simp
@[simp] theorem State.rewriteIf_streams (c : Prop) [Decidable c] (r : RecordId) : (s.rewriteIf c r).streams = s.streams := by
  unfold State.rewriteIf; split <;> simp
@[simp] theorem State.rewriteIf_dispatch (c : Prop) [Decidable c] (r : RecordId) : (s.rewriteIf c r).dispatch = s.dispatch := by
  unfold State.rewriteIf; split <;> simp
@[simp] theorem State.rewriteIf_lines (c : Prop) [Decidable c] (r : RecordId) : (s.rewriteIf c r).lines = s.lines := by
  unfold State.rewriteIf; split <;> simp
@[simp] theorem State.rewriteIf_charge (c : Prop) [Decidable c] (r : RecordId) : (s.rewriteIf c r).charge = s.charge := by
  unfold State.rewriteIf; split <;> simp
@[simp] theorem State.rewriteIf_ctl_engine (c : Prop) [Decidable c] (r : RecordId) : (s.rewriteIf c r).ctl.engine = s.ctl.engine := by
  unfold State.rewriteIf; split <;> simp
@[simp] theorem State.rewriteIf_ctl_teardown (c : Prop) [Decidable c] (r : RecordId) : (s.rewriteIf c r).ctl.teardown = s.ctl.teardown := by
  unfold State.rewriteIf; split <;> simp
@[simp] theorem State.rewriteIf_ctl_head (c : Prop) [Decidable c] (r : RecordId) : (s.rewriteIf c r).ctl.head = s.ctl.head := by
  unfold State.rewriteIf; split <;> simp
@[simp] theorem State.rewriteIf_ctl_takenTail (c : Prop) [Decidable c] (r : RecordId) : (s.rewriteIf c r).ctl.takenTail = s.ctl.takenTail := by
  unfold State.rewriteIf; split <;> simp
@[simp] theorem State.rewriteIf_ctl_ring (c : Prop) [Decidable c] (r : RecordId) : (s.rewriteIf c r).ctl.ring = s.ctl.ring := by
  unfold State.rewriteIf; split <;> simp
@[simp] theorem State.rewriteIf_ctl_inProgress (c : Prop) [Decidable c] (r : RecordId) : (s.rewriteIf c r).ctl.inProgress = s.ctl.inProgress := by
  unfold State.rewriteIf; split <;> simp
@[simp] theorem State.rewriteIf_ctl_ringErrors (c : Prop) [Decidable c] (r : RecordId) : (s.rewriteIf c r).ctl.ringErrors = s.ctl.ringErrors := by
  unfold State.rewriteIf; split <;> simp
@[simp] theorem State.rewriteIf_ctl_notices (c : Prop) [Decidable c] (r : RecordId) : (s.rewriteIf c r).ctl.notices = s.ctl.notices := by
  unfold State.rewriteIf; split <;> simp
@[simp] theorem State.rewriteIf_ctl_mask (c : Prop) [Decidable c] (r : RecordId) : (s.rewriteIf c r).ctl.mask = s.ctl.mask := by
  unfold State.rewriteIf; split <;> simp
@[simp] theorem State.rewriteIf_ctl_lastResult (c : Prop) [Decidable c] (r : RecordId) : (s.rewriteIf c r).ctl.lastResult = s.ctl.lastResult := by
  unfold State.rewriteIf; split <;> simp

@[simp] theorem State.reach_pending (due : Nat) : (s.reach due).pending = s.pending := by rfl
@[simp] theorem State.reach_freeCount (due : Nat) : (s.reach due).freeCount = s.freeCount := by rfl
@[simp] theorem State.reach_mem (due : Nat) : (s.reach due).mem = s.mem := by rfl
@[simp] theorem State.reach_resetInput (due : Nat) : (s.reach due).resetInput = s.resetInput := by rfl
@[simp] theorem State.reach_path (due : Nat) : (s.reach due).path = s.path := by rfl
@[simp] theorem State.reach_ctl (due : Nat) : (s.reach due).ctl = s.ctl := by rfl
@[simp] theorem State.reach_store (due : Nat) : (s.reach due).store = s.store := by rfl
@[simp] theorem State.reach_coder (due : Nat) : (s.reach due).coder = s.coder := by rfl
@[simp] theorem State.reach_scan (due : Nat) : (s.reach due).scan = s.scan := by rfl
@[simp] theorem State.reach_print (due : Nat) : (s.reach due).print = s.print := by rfl
@[simp] theorem State.reach_streams (due : Nat) : (s.reach due).streams = s.streams := by rfl
@[simp] theorem State.reach_dispatch (due : Nat) : (s.reach due).dispatch = s.dispatch := by rfl
@[simp] theorem State.reach_lines (due : Nat) : (s.reach due).lines = s.lines := by rfl
@[simp] theorem State.reach_charge (due : Nat) : (s.reach due).charge = s.charge := by rfl
@[simp] theorem State.reach_now (due : Nat) :
    (s.reach due).now = max s.now due := by rfl

@[simp] theorem State.setPage_pending (p : Fin 512) (r : PageRecord) : (s.setPage p r).pending = s.pending := by
  simp [State.setPage]
@[simp] theorem State.setPage_now (p : Fin 512) (r : PageRecord) : (s.setPage p r).now = s.now := by
  simp [State.setPage]
@[simp] theorem State.setPage_freeCount (p : Fin 512) (r : PageRecord) : (s.setPage p r).freeCount = s.freeCount := by
  simp [State.setPage]
@[simp] theorem State.setPage_mem (p : Fin 512) (r : PageRecord) : (s.setPage p r).mem = s.mem := by
  simp [State.setPage]
@[simp] theorem State.setPage_resetInput (p : Fin 512) (r : PageRecord) : (s.setPage p r).resetInput = s.resetInput := by
  simp [State.setPage]
@[simp] theorem State.setPage_path (p : Fin 512) (r : PageRecord) : (s.setPage p r).path = s.path := by
  simp [State.setPage]
@[simp] theorem State.setPage_coder (p : Fin 512) (r : PageRecord) : (s.setPage p r).coder = s.coder := by
  simp [State.setPage]
@[simp] theorem State.setPage_scan (p : Fin 512) (r : PageRecord) : (s.setPage p r).scan = s.scan := by
  simp [State.setPage]
@[simp] theorem State.setPage_print (p : Fin 512) (r : PageRecord) : (s.setPage p r).print = s.print := by
  simp [State.setPage]
@[simp] theorem State.setPage_streams (p : Fin 512) (r : PageRecord) : (s.setPage p r).streams = s.streams := by
  simp [State.setPage]
@[simp] theorem State.setPage_dispatch (p : Fin 512) (r : PageRecord) : (s.setPage p r).dispatch = s.dispatch := by
  simp [State.setPage]
@[simp] theorem State.setPage_lines (p : Fin 512) (r : PageRecord) : (s.setPage p r).lines = s.lines := by
  simp [State.setPage]
@[simp] theorem State.setPage_charge (p : Fin 512) (r : PageRecord) : (s.setPage p r).charge = s.charge := by
  simp [State.setPage]
@[simp] theorem State.setPage_store (p : Fin 512) (r : PageRecord) :
    (s.setPage p r).store = { s.store with pages := s.store.pages.set p r } := by simp [State.setPage]
@[simp] theorem State.setPage_ctl_engine (p : Fin 512) (r : PageRecord) : (s.setPage p r).ctl.engine = s.ctl.engine := by
  simp [State.setPage]
@[simp] theorem State.setPage_ctl_teardown (p : Fin 512) (r : PageRecord) : (s.setPage p r).ctl.teardown = s.ctl.teardown := by
  simp [State.setPage]
@[simp] theorem State.setPage_ctl_head (p : Fin 512) (r : PageRecord) : (s.setPage p r).ctl.head = s.ctl.head := by
  simp [State.setPage]
@[simp] theorem State.setPage_ctl_takenTail (p : Fin 512) (r : PageRecord) : (s.setPage p r).ctl.takenTail = s.ctl.takenTail := by
  simp [State.setPage]
@[simp] theorem State.setPage_ctl_ring (p : Fin 512) (r : PageRecord) : (s.setPage p r).ctl.ring = s.ctl.ring := by
  simp [State.setPage]
@[simp] theorem State.setPage_ctl_inProgress (p : Fin 512) (r : PageRecord) : (s.setPage p r).ctl.inProgress = s.ctl.inProgress := by
  simp [State.setPage]
@[simp] theorem State.setPage_ctl_ringErrors (p : Fin 512) (r : PageRecord) : (s.setPage p r).ctl.ringErrors = s.ctl.ringErrors := by
  simp [State.setPage]
@[simp] theorem State.setPage_ctl_notices (p : Fin 512) (r : PageRecord) : (s.setPage p r).ctl.notices = s.ctl.notices := by
  simp [State.setPage]
@[simp] theorem State.setPage_ctl_mask (p : Fin 512) (r : PageRecord) : (s.setPage p r).ctl.mask = s.ctl.mask := by
  simp [State.setPage]
@[simp] theorem State.setPage_ctl_lastResult (p : Fin 512) (r : PageRecord) : (s.setPage p r).ctl.lastResult = s.ctl.lastResult := by
  simp [State.setPage]

@[simp] theorem State.setSlot_pending (w : Writer) (x : WriterSlot) : (s.setSlot w x).pending = s.pending := by rfl
@[simp] theorem State.setSlot_now (w : Writer) (x : WriterSlot) : (s.setSlot w x).now = s.now := by rfl
@[simp] theorem State.setSlot_freeCount (w : Writer) (x : WriterSlot) : (s.setSlot w x).freeCount = s.freeCount := by
  rfl
@[simp] theorem State.setSlot_mem (w : Writer) (x : WriterSlot) : (s.setSlot w x).mem = s.mem := by rfl
@[simp] theorem State.setSlot_resetInput (w : Writer) (x : WriterSlot) : (s.setSlot w x).resetInput = s.resetInput := by
  rfl
@[simp] theorem State.setSlot_path (w : Writer) (x : WriterSlot) : (s.setSlot w x).path = s.path := by rfl
@[simp] theorem State.setSlot_ctl (w : Writer) (x : WriterSlot) : (s.setSlot w x).ctl = s.ctl := by rfl
@[simp] theorem State.setSlot_coder (w : Writer) (x : WriterSlot) : (s.setSlot w x).coder = s.coder := by rfl
@[simp] theorem State.setSlot_scan (w : Writer) (x : WriterSlot) : (s.setSlot w x).scan = s.scan := by rfl
@[simp] theorem State.setSlot_print (w : Writer) (x : WriterSlot) : (s.setSlot w x).print = s.print := by rfl
@[simp] theorem State.setSlot_streams (w : Writer) (x : WriterSlot) : (s.setSlot w x).streams = s.streams := by rfl
@[simp] theorem State.setSlot_dispatch (w : Writer) (x : WriterSlot) : (s.setSlot w x).dispatch = s.dispatch := by rfl
@[simp] theorem State.setSlot_lines (w : Writer) (x : WriterSlot) : (s.setSlot w x).lines = s.lines := by rfl
@[simp] theorem State.setSlot_charge (w : Writer) (x : WriterSlot) : (s.setSlot w x).charge = s.charge := by rfl
@[simp] theorem State.setSlot_store (w : Writer) (x : WriterSlot) :
    (s.setSlot w x).store = { s.store with slots := s.store.slots.set w.index x } := by rfl

@[simp] theorem State.setFreeList_pending (l : List Nat) : (s.setFreeList l).pending = s.pending := by
  simp [State.setFreeList]
@[simp] theorem State.setFreeList_now (l : List Nat) : (s.setFreeList l).now = s.now := by simp [State.setFreeList]
@[simp] theorem State.setFreeList_freeCount (l : List Nat) : (s.setFreeList l).freeCount = s.freeCount := by
  simp [State.setFreeList]
@[simp] theorem State.setFreeList_mem (l : List Nat) : (s.setFreeList l).mem = s.mem := by simp [State.setFreeList]
@[simp] theorem State.setFreeList_resetInput (l : List Nat) : (s.setFreeList l).resetInput = s.resetInput := by
  simp [State.setFreeList]
@[simp] theorem State.setFreeList_path (l : List Nat) : (s.setFreeList l).path = s.path := by simp [State.setFreeList]
@[simp] theorem State.setFreeList_coder (l : List Nat) : (s.setFreeList l).coder = s.coder := by
  simp [State.setFreeList]
@[simp] theorem State.setFreeList_scan (l : List Nat) : (s.setFreeList l).scan = s.scan := by simp [State.setFreeList]
@[simp] theorem State.setFreeList_print (l : List Nat) : (s.setFreeList l).print = s.print := by
  simp [State.setFreeList]
@[simp] theorem State.setFreeList_streams (l : List Nat) : (s.setFreeList l).streams = s.streams := by
  simp [State.setFreeList]
@[simp] theorem State.setFreeList_dispatch (l : List Nat) : (s.setFreeList l).dispatch = s.dispatch := by
  simp [State.setFreeList]
@[simp] theorem State.setFreeList_lines (l : List Nat) : (s.setFreeList l).lines = s.lines := by
  simp [State.setFreeList]
@[simp] theorem State.setFreeList_charge (l : List Nat) : (s.setFreeList l).charge = s.charge := by
  simp [State.setFreeList]
@[simp] theorem State.setFreeList_store (l : List Nat) :
    (s.setFreeList l).store = { s.store with freeList := l } := by simp [State.setFreeList]
@[simp] theorem State.setFreeList_ctl_engine (l : List Nat) : (s.setFreeList l).ctl.engine = s.ctl.engine := by
  simp [State.setFreeList]
@[simp] theorem State.setFreeList_ctl_teardown (l : List Nat) : (s.setFreeList l).ctl.teardown = s.ctl.teardown := by
  simp [State.setFreeList]
@[simp] theorem State.setFreeList_ctl_head (l : List Nat) : (s.setFreeList l).ctl.head = s.ctl.head := by
  simp [State.setFreeList]
@[simp] theorem State.setFreeList_ctl_takenTail (l : List Nat) : (s.setFreeList l).ctl.takenTail = s.ctl.takenTail := by
  simp [State.setFreeList]
@[simp] theorem State.setFreeList_ctl_ring (l : List Nat) : (s.setFreeList l).ctl.ring = s.ctl.ring := by
  simp [State.setFreeList]
@[simp] theorem State.setFreeList_ctl_inProgress (l : List Nat) : (s.setFreeList l).ctl.inProgress = s.ctl.inProgress := by
  simp [State.setFreeList]
@[simp] theorem State.setFreeList_ctl_ringErrors (l : List Nat) : (s.setFreeList l).ctl.ringErrors = s.ctl.ringErrors := by
  simp [State.setFreeList]
@[simp] theorem State.setFreeList_ctl_notices (l : List Nat) : (s.setFreeList l).ctl.notices = s.ctl.notices := by
  simp [State.setFreeList]
@[simp] theorem State.setFreeList_ctl_mask (l : List Nat) : (s.setFreeList l).ctl.mask = s.ctl.mask := by
  simp [State.setFreeList]
@[simp] theorem State.setFreeList_ctl_lastResult (l : List Nat) : (s.setFreeList l).ctl.lastResult = s.ctl.lastResult := by
  simp [State.setFreeList]

@[simp] theorem State.setDoc_pending (d : Fin 64) (r : DocRecord) : (s.setDoc d r).pending = s.pending := by
  simp [State.setDoc]
@[simp] theorem State.setDoc_now (d : Fin 64) (r : DocRecord) : (s.setDoc d r).now = s.now := by simp [State.setDoc]
@[simp] theorem State.setDoc_freeCount (d : Fin 64) (r : DocRecord) : (s.setDoc d r).freeCount = s.freeCount := by
  simp [State.setDoc]
@[simp] theorem State.setDoc_mem (d : Fin 64) (r : DocRecord) : (s.setDoc d r).mem = s.mem := by simp [State.setDoc]
@[simp] theorem State.setDoc_resetInput (d : Fin 64) (r : DocRecord) : (s.setDoc d r).resetInput = s.resetInput := by
  simp [State.setDoc]
@[simp] theorem State.setDoc_path (d : Fin 64) (r : DocRecord) : (s.setDoc d r).path = s.path := by
  simp [State.setDoc]
@[simp] theorem State.setDoc_store (d : Fin 64) (r : DocRecord) : (s.setDoc d r).store = s.store := by
  simp [State.setDoc]
@[simp] theorem State.setDoc_coder (d : Fin 64) (r : DocRecord) : (s.setDoc d r).coder = s.coder := by
  simp [State.setDoc]
@[simp] theorem State.setDoc_scan (d : Fin 64) (r : DocRecord) : (s.setDoc d r).scan = s.scan := by
  simp [State.setDoc]
@[simp] theorem State.setDoc_print (d : Fin 64) (r : DocRecord) : (s.setDoc d r).print = s.print := by
  simp [State.setDoc]
@[simp] theorem State.setDoc_streams (d : Fin 64) (r : DocRecord) : (s.setDoc d r).streams = s.streams := by
  simp [State.setDoc]
@[simp] theorem State.setDoc_lines (d : Fin 64) (r : DocRecord) : (s.setDoc d r).lines = s.lines := by
  simp [State.setDoc]
@[simp] theorem State.setDoc_charge (d : Fin 64) (r : DocRecord) : (s.setDoc d r).charge = s.charge := by
  simp [State.setDoc]
@[simp] theorem State.setDoc_dispatch (d : Fin 64) (r : DocRecord) :
    (s.setDoc d r).dispatch = { s.dispatch with docs := s.dispatch.docs.set d r } := by simp [State.setDoc]
@[simp] theorem State.setDoc_ctl_engine (d : Fin 64) (r : DocRecord) : (s.setDoc d r).ctl.engine = s.ctl.engine := by
  simp [State.setDoc]
@[simp] theorem State.setDoc_ctl_teardown (d : Fin 64) (r : DocRecord) : (s.setDoc d r).ctl.teardown = s.ctl.teardown := by
  simp [State.setDoc]
@[simp] theorem State.setDoc_ctl_head (d : Fin 64) (r : DocRecord) : (s.setDoc d r).ctl.head = s.ctl.head := by
  simp [State.setDoc]
@[simp] theorem State.setDoc_ctl_takenTail (d : Fin 64) (r : DocRecord) : (s.setDoc d r).ctl.takenTail = s.ctl.takenTail := by
  simp [State.setDoc]
@[simp] theorem State.setDoc_ctl_ring (d : Fin 64) (r : DocRecord) : (s.setDoc d r).ctl.ring = s.ctl.ring := by
  simp [State.setDoc]
@[simp] theorem State.setDoc_ctl_inProgress (d : Fin 64) (r : DocRecord) : (s.setDoc d r).ctl.inProgress = s.ctl.inProgress := by
  simp [State.setDoc]
@[simp] theorem State.setDoc_ctl_ringErrors (d : Fin 64) (r : DocRecord) : (s.setDoc d r).ctl.ringErrors = s.ctl.ringErrors := by
  simp [State.setDoc]
@[simp] theorem State.setDoc_ctl_notices (d : Fin 64) (r : DocRecord) : (s.setDoc d r).ctl.notices = s.ctl.notices := by
  simp [State.setDoc]
@[simp] theorem State.setDoc_ctl_mask (d : Fin 64) (r : DocRecord) : (s.setDoc d r).ctl.mask = s.ctl.mask := by
  simp [State.setDoc]
@[simp] theorem State.setDoc_ctl_lastResult (d : Fin 64) (r : DocRecord) : (s.setDoc d r).ctl.lastResult = s.ctl.lastResult := by
  simp [State.setDoc]

@[simp] theorem State.setPageList_pending (d : Fin 64) (l : List (Fin 512)) : (s.setPageList d l).pending = s.pending := by
  simp [State.setPageList]
@[simp] theorem State.setPageList_now (d : Fin 64) (l : List (Fin 512)) : (s.setPageList d l).now = s.now := by
  simp [State.setPageList]
@[simp] theorem State.setPageList_freeCount (d : Fin 64) (l : List (Fin 512)) : (s.setPageList d l).freeCount = s.freeCount := by
  simp [State.setPageList]
@[simp] theorem State.setPageList_mem (d : Fin 64) (l : List (Fin 512)) : (s.setPageList d l).mem = s.mem := by
  simp [State.setPageList]
@[simp] theorem State.setPageList_resetInput (d : Fin 64) (l : List (Fin 512)) : (s.setPageList d l).resetInput = s.resetInput := by
  simp [State.setPageList]
@[simp] theorem State.setPageList_path (d : Fin 64) (l : List (Fin 512)) : (s.setPageList d l).path = s.path := by
  simp [State.setPageList]
@[simp] theorem State.setPageList_store (d : Fin 64) (l : List (Fin 512)) : (s.setPageList d l).store = s.store := by
  simp [State.setPageList]
@[simp] theorem State.setPageList_coder (d : Fin 64) (l : List (Fin 512)) : (s.setPageList d l).coder = s.coder := by
  simp [State.setPageList]
@[simp] theorem State.setPageList_scan (d : Fin 64) (l : List (Fin 512)) : (s.setPageList d l).scan = s.scan := by
  simp [State.setPageList]
@[simp] theorem State.setPageList_print (d : Fin 64) (l : List (Fin 512)) : (s.setPageList d l).print = s.print := by
  simp [State.setPageList]
@[simp] theorem State.setPageList_streams (d : Fin 64) (l : List (Fin 512)) : (s.setPageList d l).streams = s.streams := by
  simp [State.setPageList]
@[simp] theorem State.setPageList_lines (d : Fin 64) (l : List (Fin 512)) : (s.setPageList d l).lines = s.lines := by
  simp [State.setPageList]
@[simp] theorem State.setPageList_charge (d : Fin 64) (l : List (Fin 512)) : (s.setPageList d l).charge = s.charge := by
  simp [State.setPageList]
@[simp] theorem State.setPageList_dispatch (d : Fin 64) (l : List (Fin 512)) :
    (s.setPageList d l).dispatch = { s.dispatch with pageLists := s.dispatch.pageLists.set d l } := by
  simp [State.setPageList]
@[simp] theorem State.setPageList_ctl_engine (d : Fin 64) (l : List (Fin 512)) : (s.setPageList d l).ctl.engine = s.ctl.engine := by
  simp [State.setPageList]
@[simp] theorem State.setPageList_ctl_teardown (d : Fin 64) (l : List (Fin 512)) : (s.setPageList d l).ctl.teardown = s.ctl.teardown := by
  simp [State.setPageList]
@[simp] theorem State.setPageList_ctl_head (d : Fin 64) (l : List (Fin 512)) : (s.setPageList d l).ctl.head = s.ctl.head := by
  simp [State.setPageList]
@[simp] theorem State.setPageList_ctl_takenTail (d : Fin 64) (l : List (Fin 512)) : (s.setPageList d l).ctl.takenTail = s.ctl.takenTail := by
  simp [State.setPageList]
@[simp] theorem State.setPageList_ctl_ring (d : Fin 64) (l : List (Fin 512)) : (s.setPageList d l).ctl.ring = s.ctl.ring := by
  simp [State.setPageList]
@[simp] theorem State.setPageList_ctl_inProgress (d : Fin 64) (l : List (Fin 512)) : (s.setPageList d l).ctl.inProgress = s.ctl.inProgress := by
  simp [State.setPageList]
@[simp] theorem State.setPageList_ctl_ringErrors (d : Fin 64) (l : List (Fin 512)) : (s.setPageList d l).ctl.ringErrors = s.ctl.ringErrors := by
  simp [State.setPageList]
@[simp] theorem State.setPageList_ctl_notices (d : Fin 64) (l : List (Fin 512)) : (s.setPageList d l).ctl.notices = s.ctl.notices := by
  simp [State.setPageList]
@[simp] theorem State.setPageList_ctl_mask (d : Fin 64) (l : List (Fin 512)) : (s.setPageList d l).ctl.mask = s.ctl.mask := by
  simp [State.setPageList]
@[simp] theorem State.setPageList_ctl_lastResult (d : Fin 64) (l : List (Fin 512)) : (s.setPageList d l).ctl.lastResult = s.ctl.lastResult := by
  simp [State.setPageList]

@[simp] theorem State.setDest_pending (d : Fin 512) (r : DestRecord) : (s.setDest d r).pending = s.pending := by
  simp [State.setDest]
@[simp] theorem State.setDest_now (d : Fin 512) (r : DestRecord) : (s.setDest d r).now = s.now := by
  simp [State.setDest]
@[simp] theorem State.setDest_freeCount (d : Fin 512) (r : DestRecord) : (s.setDest d r).freeCount = s.freeCount := by
  simp [State.setDest]
@[simp] theorem State.setDest_mem (d : Fin 512) (r : DestRecord) : (s.setDest d r).mem = s.mem := by
  simp [State.setDest]
@[simp] theorem State.setDest_resetInput (d : Fin 512) (r : DestRecord) : (s.setDest d r).resetInput = s.resetInput := by
  simp [State.setDest]
@[simp] theorem State.setDest_path (d : Fin 512) (r : DestRecord) : (s.setDest d r).path = s.path := by
  simp [State.setDest]
@[simp] theorem State.setDest_store (d : Fin 512) (r : DestRecord) : (s.setDest d r).store = s.store := by
  simp [State.setDest]
@[simp] theorem State.setDest_coder (d : Fin 512) (r : DestRecord) : (s.setDest d r).coder = s.coder := by
  simp [State.setDest]
@[simp] theorem State.setDest_scan (d : Fin 512) (r : DestRecord) : (s.setDest d r).scan = s.scan := by
  simp [State.setDest]
@[simp] theorem State.setDest_print (d : Fin 512) (r : DestRecord) : (s.setDest d r).print = s.print := by
  simp [State.setDest]
@[simp] theorem State.setDest_streams (d : Fin 512) (r : DestRecord) : (s.setDest d r).streams = s.streams := by
  simp [State.setDest]
@[simp] theorem State.setDest_lines (d : Fin 512) (r : DestRecord) : (s.setDest d r).lines = s.lines := by
  simp [State.setDest]
@[simp] theorem State.setDest_charge (d : Fin 512) (r : DestRecord) : (s.setDest d r).charge = s.charge := by
  simp [State.setDest]
@[simp] theorem State.setDest_dispatch (d : Fin 512) (r : DestRecord) :
    (s.setDest d r).dispatch = { s.dispatch with dests := s.dispatch.dests.set d r } := by simp [State.setDest]
@[simp] theorem State.setDest_ctl_engine (d : Fin 512) (r : DestRecord) : (s.setDest d r).ctl.engine = s.ctl.engine := by
  simp [State.setDest]
@[simp] theorem State.setDest_ctl_teardown (d : Fin 512) (r : DestRecord) : (s.setDest d r).ctl.teardown = s.ctl.teardown := by
  simp [State.setDest]
@[simp] theorem State.setDest_ctl_head (d : Fin 512) (r : DestRecord) : (s.setDest d r).ctl.head = s.ctl.head := by
  simp [State.setDest]
@[simp] theorem State.setDest_ctl_takenTail (d : Fin 512) (r : DestRecord) : (s.setDest d r).ctl.takenTail = s.ctl.takenTail := by
  simp [State.setDest]
@[simp] theorem State.setDest_ctl_ring (d : Fin 512) (r : DestRecord) : (s.setDest d r).ctl.ring = s.ctl.ring := by
  simp [State.setDest]
@[simp] theorem State.setDest_ctl_inProgress (d : Fin 512) (r : DestRecord) : (s.setDest d r).ctl.inProgress = s.ctl.inProgress := by
  simp [State.setDest]
@[simp] theorem State.setDest_ctl_ringErrors (d : Fin 512) (r : DestRecord) : (s.setDest d r).ctl.ringErrors = s.ctl.ringErrors := by
  simp [State.setDest]
@[simp] theorem State.setDest_ctl_notices (d : Fin 512) (r : DestRecord) : (s.setDest d r).ctl.notices = s.ctl.notices := by
  simp [State.setDest]
@[simp] theorem State.setDest_ctl_mask (d : Fin 512) (r : DestRecord) : (s.setDest d r).ctl.mask = s.ctl.mask := by
  simp [State.setDest]
@[simp] theorem State.setDest_ctl_lastResult (d : Fin 512) (r : DestRecord) : (s.setDest d r).ctl.lastResult = s.ctl.lastResult := by
  simp [State.setDest]

@[simp] theorem State.setRetryTimer_pending (d : Fin 512) (t : Option Nat) : (s.setRetryTimer d t).pending = s.pending := by
  rfl
@[simp] theorem State.setRetryTimer_now (d : Fin 512) (t : Option Nat) : (s.setRetryTimer d t).now = s.now := by rfl
@[simp] theorem State.setRetryTimer_freeCount (d : Fin 512) (t : Option Nat) : (s.setRetryTimer d t).freeCount = s.freeCount := by
  rfl
@[simp] theorem State.setRetryTimer_mem (d : Fin 512) (t : Option Nat) : (s.setRetryTimer d t).mem = s.mem := by rfl
@[simp] theorem State.setRetryTimer_resetInput (d : Fin 512) (t : Option Nat) : (s.setRetryTimer d t).resetInput = s.resetInput := by
  rfl
@[simp] theorem State.setRetryTimer_path (d : Fin 512) (t : Option Nat) : (s.setRetryTimer d t).path = s.path := by
  rfl
@[simp] theorem State.setRetryTimer_ctl (d : Fin 512) (t : Option Nat) : (s.setRetryTimer d t).ctl = s.ctl := by rfl
@[simp] theorem State.setRetryTimer_store (d : Fin 512) (t : Option Nat) : (s.setRetryTimer d t).store = s.store := by
  rfl
@[simp] theorem State.setRetryTimer_coder (d : Fin 512) (t : Option Nat) : (s.setRetryTimer d t).coder = s.coder := by
  rfl
@[simp] theorem State.setRetryTimer_scan (d : Fin 512) (t : Option Nat) : (s.setRetryTimer d t).scan = s.scan := by
  rfl
@[simp] theorem State.setRetryTimer_print (d : Fin 512) (t : Option Nat) : (s.setRetryTimer d t).print = s.print := by
  rfl
@[simp] theorem State.setRetryTimer_streams (d : Fin 512) (t : Option Nat) : (s.setRetryTimer d t).streams = s.streams := by
  rfl
@[simp] theorem State.setRetryTimer_lines (d : Fin 512) (t : Option Nat) : (s.setRetryTimer d t).lines = s.lines := by
  rfl
@[simp] theorem State.setRetryTimer_charge (d : Fin 512) (t : Option Nat) : (s.setRetryTimer d t).charge = s.charge := by
  rfl
@[simp] theorem State.setRetryTimer_dispatch (d : Fin 512) (t : Option Nat) :
    (s.setRetryTimer d t).dispatch = { s.dispatch with retryTimers := s.dispatch.retryTimers.set d t } := by rfl

@[simp] theorem State.setPrintQueue_pending (q : List (Fin 64)) : (s.setPrintQueue q).pending = s.pending := by rfl
@[simp] theorem State.setPrintQueue_now (q : List (Fin 64)) : (s.setPrintQueue q).now = s.now := by rfl
@[simp] theorem State.setPrintQueue_freeCount (q : List (Fin 64)) : (s.setPrintQueue q).freeCount = s.freeCount := by
  rfl
@[simp] theorem State.setPrintQueue_mem (q : List (Fin 64)) : (s.setPrintQueue q).mem = s.mem := by rfl
@[simp] theorem State.setPrintQueue_resetInput (q : List (Fin 64)) : (s.setPrintQueue q).resetInput = s.resetInput := by
  rfl
@[simp] theorem State.setPrintQueue_path (q : List (Fin 64)) : (s.setPrintQueue q).path = s.path := by rfl
@[simp] theorem State.setPrintQueue_ctl (q : List (Fin 64)) : (s.setPrintQueue q).ctl = s.ctl := by rfl
@[simp] theorem State.setPrintQueue_store (q : List (Fin 64)) : (s.setPrintQueue q).store = s.store := by rfl
@[simp] theorem State.setPrintQueue_coder (q : List (Fin 64)) : (s.setPrintQueue q).coder = s.coder := by rfl
@[simp] theorem State.setPrintQueue_scan (q : List (Fin 64)) : (s.setPrintQueue q).scan = s.scan := by rfl
@[simp] theorem State.setPrintQueue_print (q : List (Fin 64)) : (s.setPrintQueue q).print = s.print := by rfl
@[simp] theorem State.setPrintQueue_streams (q : List (Fin 64)) : (s.setPrintQueue q).streams = s.streams := by rfl
@[simp] theorem State.setPrintQueue_lines (q : List (Fin 64)) : (s.setPrintQueue q).lines = s.lines := by rfl
@[simp] theorem State.setPrintQueue_charge (q : List (Fin 64)) : (s.setPrintQueue q).charge = s.charge := by rfl
@[simp] theorem State.setPrintQueue_dispatch (q : List (Fin 64)) :
    (s.setPrintQueue q).dispatch = { s.dispatch with printQueue := q } := by rfl

@[simp] theorem State.askArbiter_pending : (s.askArbiter).pending = s.pending := by rfl
@[simp] theorem State.askArbiter_now : (s.askArbiter).now = s.now := by rfl
@[simp] theorem State.askArbiter_freeCount : (s.askArbiter).freeCount = s.freeCount := by rfl
@[simp] theorem State.askArbiter_mem : (s.askArbiter).mem = s.mem := by rfl
@[simp] theorem State.askArbiter_resetInput : (s.askArbiter).resetInput = s.resetInput := by rfl
@[simp] theorem State.askArbiter_path : (s.askArbiter).path = s.path := by rfl
@[simp] theorem State.askArbiter_ctl : (s.askArbiter).ctl = s.ctl := by rfl
@[simp] theorem State.askArbiter_store : (s.askArbiter).store = s.store := by rfl
@[simp] theorem State.askArbiter_coder : (s.askArbiter).coder = s.coder := by rfl
@[simp] theorem State.askArbiter_scan : (s.askArbiter).scan = s.scan := by rfl
@[simp] theorem State.askArbiter_print : (s.askArbiter).print = s.print := by rfl
@[simp] theorem State.askArbiter_streams : (s.askArbiter).streams = s.streams := by rfl
@[simp] theorem State.askArbiter_lines : (s.askArbiter).lines = s.lines := by rfl
@[simp] theorem State.askArbiter_charge : (s.askArbiter).charge = s.charge := by rfl
@[simp] theorem State.askArbiter_dispatch :
    (s.askArbiter).dispatch = { s.dispatch with arbiterDue := true } := by rfl

@[simp] theorem State.setLine_pending (n : Fin 4) (u : LineUnit) : (s.setLine n u).pending = s.pending := by
  simp [State.setLine]
@[simp] theorem State.setLine_now (n : Fin 4) (u : LineUnit) : (s.setLine n u).now = s.now := by simp [State.setLine]
@[simp] theorem State.setLine_freeCount (n : Fin 4) (u : LineUnit) : (s.setLine n u).freeCount = s.freeCount := by
  simp [State.setLine]
@[simp] theorem State.setLine_mem (n : Fin 4) (u : LineUnit) : (s.setLine n u).mem = s.mem := by simp [State.setLine]
@[simp] theorem State.setLine_resetInput (n : Fin 4) (u : LineUnit) : (s.setLine n u).resetInput = s.resetInput := by
  simp [State.setLine]
@[simp] theorem State.setLine_path (n : Fin 4) (u : LineUnit) : (s.setLine n u).path = s.path := by
  simp [State.setLine]
@[simp] theorem State.setLine_store (n : Fin 4) (u : LineUnit) : (s.setLine n u).store = s.store := by
  simp [State.setLine]
@[simp] theorem State.setLine_coder (n : Fin 4) (u : LineUnit) : (s.setLine n u).coder = s.coder := by
  simp [State.setLine]
@[simp] theorem State.setLine_scan (n : Fin 4) (u : LineUnit) : (s.setLine n u).scan = s.scan := by
  simp [State.setLine]
@[simp] theorem State.setLine_print (n : Fin 4) (u : LineUnit) : (s.setLine n u).print = s.print := by
  simp [State.setLine]
@[simp] theorem State.setLine_streams (n : Fin 4) (u : LineUnit) : (s.setLine n u).streams = s.streams := by
  simp [State.setLine]
@[simp] theorem State.setLine_dispatch (n : Fin 4) (u : LineUnit) : (s.setLine n u).dispatch = s.dispatch := by
  simp [State.setLine]
@[simp] theorem State.setLine_charge (n : Fin 4) (u : LineUnit) : (s.setLine n u).charge = s.charge := by
  simp [State.setLine]
@[simp] theorem State.setLine_lines (n : Fin 4) (u : LineUnit) :
    (s.setLine n u).lines = s.lines.set n u := by simp [State.setLine]
@[simp] theorem State.setLine_ctl_engine (n : Fin 4) (u : LineUnit) : (s.setLine n u).ctl.engine = s.ctl.engine := by
  simp [State.setLine]
@[simp] theorem State.setLine_ctl_teardown (n : Fin 4) (u : LineUnit) : (s.setLine n u).ctl.teardown = s.ctl.teardown := by
  simp [State.setLine]
@[simp] theorem State.setLine_ctl_head (n : Fin 4) (u : LineUnit) : (s.setLine n u).ctl.head = s.ctl.head := by
  simp [State.setLine]
@[simp] theorem State.setLine_ctl_takenTail (n : Fin 4) (u : LineUnit) : (s.setLine n u).ctl.takenTail = s.ctl.takenTail := by
  simp [State.setLine]
@[simp] theorem State.setLine_ctl_ring (n : Fin 4) (u : LineUnit) : (s.setLine n u).ctl.ring = s.ctl.ring := by
  simp [State.setLine]
@[simp] theorem State.setLine_ctl_inProgress (n : Fin 4) (u : LineUnit) : (s.setLine n u).ctl.inProgress = s.ctl.inProgress := by
  simp [State.setLine]
@[simp] theorem State.setLine_ctl_ringErrors (n : Fin 4) (u : LineUnit) : (s.setLine n u).ctl.ringErrors = s.ctl.ringErrors := by
  simp [State.setLine]
@[simp] theorem State.setLine_ctl_notices (n : Fin 4) (u : LineUnit) : (s.setLine n u).ctl.notices = s.ctl.notices := by
  simp [State.setLine]
@[simp] theorem State.setLine_ctl_mask (n : Fin 4) (u : LineUnit) : (s.setLine n u).ctl.mask = s.ctl.mask := by
  simp [State.setLine]
@[simp] theorem State.setLine_ctl_lastResult (n : Fin 4) (u : LineUnit) : (s.setLine n u).ctl.lastResult = s.ctl.lastResult := by
  simp [State.setLine]

@[simp] theorem State.modLine_pending (n : Fin 4) (f : LineUnit → LineUnit) : (s.modLine n f).pending = s.pending := by
  simp [State.modLine]
@[simp] theorem State.modLine_now (n : Fin 4) (f : LineUnit → LineUnit) : (s.modLine n f).now = s.now := by
  simp [State.modLine]
@[simp] theorem State.modLine_freeCount (n : Fin 4) (f : LineUnit → LineUnit) : (s.modLine n f).freeCount = s.freeCount := by
  simp [State.modLine]
@[simp] theorem State.modLine_mem (n : Fin 4) (f : LineUnit → LineUnit) : (s.modLine n f).mem = s.mem := by
  simp [State.modLine]
@[simp] theorem State.modLine_resetInput (n : Fin 4) (f : LineUnit → LineUnit) : (s.modLine n f).resetInput = s.resetInput := by
  simp [State.modLine]
@[simp] theorem State.modLine_path (n : Fin 4) (f : LineUnit → LineUnit) : (s.modLine n f).path = s.path := by
  simp [State.modLine]
@[simp] theorem State.modLine_store (n : Fin 4) (f : LineUnit → LineUnit) : (s.modLine n f).store = s.store := by
  simp [State.modLine]
@[simp] theorem State.modLine_coder (n : Fin 4) (f : LineUnit → LineUnit) : (s.modLine n f).coder = s.coder := by
  simp [State.modLine]
@[simp] theorem State.modLine_scan (n : Fin 4) (f : LineUnit → LineUnit) : (s.modLine n f).scan = s.scan := by
  simp [State.modLine]
@[simp] theorem State.modLine_print (n : Fin 4) (f : LineUnit → LineUnit) : (s.modLine n f).print = s.print := by
  simp [State.modLine]
@[simp] theorem State.modLine_streams (n : Fin 4) (f : LineUnit → LineUnit) : (s.modLine n f).streams = s.streams := by
  simp [State.modLine]
@[simp] theorem State.modLine_dispatch (n : Fin 4) (f : LineUnit → LineUnit) : (s.modLine n f).dispatch = s.dispatch := by
  simp [State.modLine]
@[simp] theorem State.modLine_charge (n : Fin 4) (f : LineUnit → LineUnit) : (s.modLine n f).charge = s.charge := by
  simp [State.modLine]
@[simp] theorem State.modLine_lines (n : Fin 4) (f : LineUnit → LineUnit) :
    (s.modLine n f).lines = s.lines.set n (f (s.lineUnit n)) := by simp [State.modLine]
@[simp] theorem State.modLine_ctl_engine (n : Fin 4) (f : LineUnit → LineUnit) : (s.modLine n f).ctl.engine = s.ctl.engine := by
  simp [State.modLine]
@[simp] theorem State.modLine_ctl_teardown (n : Fin 4) (f : LineUnit → LineUnit) : (s.modLine n f).ctl.teardown = s.ctl.teardown := by
  simp [State.modLine]
@[simp] theorem State.modLine_ctl_head (n : Fin 4) (f : LineUnit → LineUnit) : (s.modLine n f).ctl.head = s.ctl.head := by
  simp [State.modLine]
@[simp] theorem State.modLine_ctl_takenTail (n : Fin 4) (f : LineUnit → LineUnit) : (s.modLine n f).ctl.takenTail = s.ctl.takenTail := by
  simp [State.modLine]
@[simp] theorem State.modLine_ctl_ring (n : Fin 4) (f : LineUnit → LineUnit) : (s.modLine n f).ctl.ring = s.ctl.ring := by
  simp [State.modLine]
@[simp] theorem State.modLine_ctl_inProgress (n : Fin 4) (f : LineUnit → LineUnit) : (s.modLine n f).ctl.inProgress = s.ctl.inProgress := by
  simp [State.modLine]
@[simp] theorem State.modLine_ctl_ringErrors (n : Fin 4) (f : LineUnit → LineUnit) : (s.modLine n f).ctl.ringErrors = s.ctl.ringErrors := by
  simp [State.modLine]
@[simp] theorem State.modLine_ctl_notices (n : Fin 4) (f : LineUnit → LineUnit) : (s.modLine n f).ctl.notices = s.ctl.notices := by
  simp [State.modLine]
@[simp] theorem State.modLine_ctl_mask (n : Fin 4) (f : LineUnit → LineUnit) : (s.modLine n f).ctl.mask = s.ctl.mask := by
  simp [State.modLine]
@[simp] theorem State.modLine_ctl_lastResult (n : Fin 4) (f : LineUnit → LineUnit) : (s.modLine n f).ctl.lastResult = s.ctl.lastResult := by
  simp [State.modLine]

@[simp] theorem State.modRecord_pending (n : Fin 4) (f : LineRecord → LineRecord) : (s.modRecord n f).pending = s.pending := by
  simp [State.modRecord]
@[simp] theorem State.modRecord_now (n : Fin 4) (f : LineRecord → LineRecord) : (s.modRecord n f).now = s.now := by
  simp [State.modRecord]
@[simp] theorem State.modRecord_freeCount (n : Fin 4) (f : LineRecord → LineRecord) : (s.modRecord n f).freeCount = s.freeCount := by
  simp [State.modRecord]
@[simp] theorem State.modRecord_mem (n : Fin 4) (f : LineRecord → LineRecord) : (s.modRecord n f).mem = s.mem := by
  simp [State.modRecord]
@[simp] theorem State.modRecord_resetInput (n : Fin 4) (f : LineRecord → LineRecord) : (s.modRecord n f).resetInput = s.resetInput := by
  simp [State.modRecord]
@[simp] theorem State.modRecord_path (n : Fin 4) (f : LineRecord → LineRecord) : (s.modRecord n f).path = s.path := by
  simp [State.modRecord]
@[simp] theorem State.modRecord_store (n : Fin 4) (f : LineRecord → LineRecord) : (s.modRecord n f).store = s.store := by
  simp [State.modRecord]
@[simp] theorem State.modRecord_coder (n : Fin 4) (f : LineRecord → LineRecord) : (s.modRecord n f).coder = s.coder := by
  simp [State.modRecord]
@[simp] theorem State.modRecord_scan (n : Fin 4) (f : LineRecord → LineRecord) : (s.modRecord n f).scan = s.scan := by
  simp [State.modRecord]
@[simp] theorem State.modRecord_print (n : Fin 4) (f : LineRecord → LineRecord) : (s.modRecord n f).print = s.print := by
  simp [State.modRecord]
@[simp] theorem State.modRecord_streams (n : Fin 4) (f : LineRecord → LineRecord) : (s.modRecord n f).streams = s.streams := by
  simp [State.modRecord]
@[simp] theorem State.modRecord_dispatch (n : Fin 4) (f : LineRecord → LineRecord) : (s.modRecord n f).dispatch = s.dispatch := by
  simp [State.modRecord]
@[simp] theorem State.modRecord_charge (n : Fin 4) (f : LineRecord → LineRecord) : (s.modRecord n f).charge = s.charge := by
  simp [State.modRecord]
@[simp] theorem State.modRecord_lines (n : Fin 4) (f : LineRecord → LineRecord) :
    (s.modRecord n f).lines = s.lines.set n { s.lineUnit n with record := f (s.lineUnit n).record } := by
  simp [State.modRecord]
@[simp] theorem State.modRecord_ctl_engine (n : Fin 4) (f : LineRecord → LineRecord) : (s.modRecord n f).ctl.engine = s.ctl.engine := by
  simp [State.modRecord]
@[simp] theorem State.modRecord_ctl_teardown (n : Fin 4) (f : LineRecord → LineRecord) : (s.modRecord n f).ctl.teardown = s.ctl.teardown := by
  simp [State.modRecord]
@[simp] theorem State.modRecord_ctl_head (n : Fin 4) (f : LineRecord → LineRecord) : (s.modRecord n f).ctl.head = s.ctl.head := by
  simp [State.modRecord]
@[simp] theorem State.modRecord_ctl_takenTail (n : Fin 4) (f : LineRecord → LineRecord) : (s.modRecord n f).ctl.takenTail = s.ctl.takenTail := by
  simp [State.modRecord]
@[simp] theorem State.modRecord_ctl_ring (n : Fin 4) (f : LineRecord → LineRecord) : (s.modRecord n f).ctl.ring = s.ctl.ring := by
  simp [State.modRecord]
@[simp] theorem State.modRecord_ctl_inProgress (n : Fin 4) (f : LineRecord → LineRecord) : (s.modRecord n f).ctl.inProgress = s.ctl.inProgress := by
  simp [State.modRecord]
@[simp] theorem State.modRecord_ctl_ringErrors (n : Fin 4) (f : LineRecord → LineRecord) : (s.modRecord n f).ctl.ringErrors = s.ctl.ringErrors := by
  simp [State.modRecord]
@[simp] theorem State.modRecord_ctl_notices (n : Fin 4) (f : LineRecord → LineRecord) : (s.modRecord n f).ctl.notices = s.ctl.notices := by
  simp [State.modRecord]
@[simp] theorem State.modRecord_ctl_mask (n : Fin 4) (f : LineRecord → LineRecord) : (s.modRecord n f).ctl.mask = s.ctl.mask := by
  simp [State.modRecord]
@[simp] theorem State.modRecord_ctl_lastResult (n : Fin 4) (f : LineRecord → LineRecord) : (s.modRecord n f).ctl.lastResult = s.ctl.lastResult := by
  simp [State.modRecord]

@[simp] theorem State.setAccount_pending (a : Fin 32) (x : Account) : (s.setAccount a x).pending = s.pending := by
  simp [State.setAccount]
@[simp] theorem State.setAccount_now (a : Fin 32) (x : Account) : (s.setAccount a x).now = s.now := by
  simp [State.setAccount]
@[simp] theorem State.setAccount_freeCount (a : Fin 32) (x : Account) : (s.setAccount a x).freeCount = s.freeCount := by
  simp [State.setAccount]
@[simp] theorem State.setAccount_mem (a : Fin 32) (x : Account) : (s.setAccount a x).mem = s.mem := by
  simp [State.setAccount]
@[simp] theorem State.setAccount_resetInput (a : Fin 32) (x : Account) : (s.setAccount a x).resetInput = s.resetInput := by
  simp [State.setAccount]
@[simp] theorem State.setAccount_path (a : Fin 32) (x : Account) : (s.setAccount a x).path = s.path := by
  simp [State.setAccount]
@[simp] theorem State.setAccount_store (a : Fin 32) (x : Account) : (s.setAccount a x).store = s.store := by
  simp [State.setAccount]
@[simp] theorem State.setAccount_coder (a : Fin 32) (x : Account) : (s.setAccount a x).coder = s.coder := by
  simp [State.setAccount]
@[simp] theorem State.setAccount_scan (a : Fin 32) (x : Account) : (s.setAccount a x).scan = s.scan := by
  simp [State.setAccount]
@[simp] theorem State.setAccount_print (a : Fin 32) (x : Account) : (s.setAccount a x).print = s.print := by
  simp [State.setAccount]
@[simp] theorem State.setAccount_streams (a : Fin 32) (x : Account) : (s.setAccount a x).streams = s.streams := by
  simp [State.setAccount]
@[simp] theorem State.setAccount_dispatch (a : Fin 32) (x : Account) : (s.setAccount a x).dispatch = s.dispatch := by
  simp [State.setAccount]
@[simp] theorem State.setAccount_lines (a : Fin 32) (x : Account) : (s.setAccount a x).lines = s.lines := by
  simp [State.setAccount]
@[simp] theorem State.setAccount_charge (a : Fin 32) (x : Account) :
    (s.setAccount a x).charge = { s.charge with accounts := s.charge.accounts.set a x } := by simp [State.setAccount]
@[simp] theorem State.setAccount_ctl_engine (a : Fin 32) (x : Account) : (s.setAccount a x).ctl.engine = s.ctl.engine := by
  simp [State.setAccount]
@[simp] theorem State.setAccount_ctl_teardown (a : Fin 32) (x : Account) : (s.setAccount a x).ctl.teardown = s.ctl.teardown := by
  simp [State.setAccount]
@[simp] theorem State.setAccount_ctl_head (a : Fin 32) (x : Account) : (s.setAccount a x).ctl.head = s.ctl.head := by
  simp [State.setAccount]
@[simp] theorem State.setAccount_ctl_takenTail (a : Fin 32) (x : Account) : (s.setAccount a x).ctl.takenTail = s.ctl.takenTail := by
  simp [State.setAccount]
@[simp] theorem State.setAccount_ctl_ring (a : Fin 32) (x : Account) : (s.setAccount a x).ctl.ring = s.ctl.ring := by
  simp [State.setAccount]
@[simp] theorem State.setAccount_ctl_inProgress (a : Fin 32) (x : Account) : (s.setAccount a x).ctl.inProgress = s.ctl.inProgress := by
  simp [State.setAccount]
@[simp] theorem State.setAccount_ctl_ringErrors (a : Fin 32) (x : Account) : (s.setAccount a x).ctl.ringErrors = s.ctl.ringErrors := by
  simp [State.setAccount]
@[simp] theorem State.setAccount_ctl_notices (a : Fin 32) (x : Account) : (s.setAccount a x).ctl.notices = s.ctl.notices := by
  simp [State.setAccount]
@[simp] theorem State.setAccount_ctl_mask (a : Fin 32) (x : Account) : (s.setAccount a x).ctl.mask = s.ctl.mask := by
  simp [State.setAccount]
@[simp] theorem State.setAccount_ctl_lastResult (a : Fin 32) (x : Account) : (s.setAccount a x).ctl.lastResult = s.ctl.lastResult := by
  simp [State.setAccount]

@[simp] theorem State.rewriteContextAccount_pending (c : Option CallContext) : (s.rewriteContextAccount c).pending = s.pending := by
  unfold State.rewriteContextAccount; split <;> simp
@[simp] theorem State.rewriteContextAccount_now (c : Option CallContext) : (s.rewriteContextAccount c).now = s.now := by
  unfold State.rewriteContextAccount; split <;> simp
@[simp] theorem State.rewriteContextAccount_freeCount (c : Option CallContext) : (s.rewriteContextAccount c).freeCount = s.freeCount := by
  unfold State.rewriteContextAccount; split <;> simp
@[simp] theorem State.rewriteContextAccount_mem (c : Option CallContext) : (s.rewriteContextAccount c).mem = s.mem := by
  unfold State.rewriteContextAccount; split <;> simp
@[simp] theorem State.rewriteContextAccount_resetInput (c : Option CallContext) : (s.rewriteContextAccount c).resetInput = s.resetInput := by
  unfold State.rewriteContextAccount; split <;> simp
@[simp] theorem State.rewriteContextAccount_path (c : Option CallContext) : (s.rewriteContextAccount c).path = s.path := by
  unfold State.rewriteContextAccount; split <;> simp
@[simp] theorem State.rewriteContextAccount_store (c : Option CallContext) : (s.rewriteContextAccount c).store = s.store := by
  unfold State.rewriteContextAccount; split <;> simp
@[simp] theorem State.rewriteContextAccount_coder (c : Option CallContext) : (s.rewriteContextAccount c).coder = s.coder := by
  unfold State.rewriteContextAccount; split <;> simp
@[simp] theorem State.rewriteContextAccount_scan (c : Option CallContext) : (s.rewriteContextAccount c).scan = s.scan := by
  unfold State.rewriteContextAccount; split <;> simp
@[simp] theorem State.rewriteContextAccount_print (c : Option CallContext) : (s.rewriteContextAccount c).print = s.print := by
  unfold State.rewriteContextAccount; split <;> simp
@[simp] theorem State.rewriteContextAccount_streams (c : Option CallContext) : (s.rewriteContextAccount c).streams = s.streams := by
  unfold State.rewriteContextAccount; split <;> simp
@[simp] theorem State.rewriteContextAccount_dispatch (c : Option CallContext) : (s.rewriteContextAccount c).dispatch = s.dispatch := by
  unfold State.rewriteContextAccount; split <;> simp
@[simp] theorem State.rewriteContextAccount_lines (c : Option CallContext) : (s.rewriteContextAccount c).lines = s.lines := by
  unfold State.rewriteContextAccount; split <;> simp
@[simp] theorem State.rewriteContextAccount_charge (c : Option CallContext) : (s.rewriteContextAccount c).charge = s.charge := by
  unfold State.rewriteContextAccount; split <;> simp
@[simp] theorem State.rewriteContextAccount_ctl_engine (c : Option CallContext) : (s.rewriteContextAccount c).ctl.engine = s.ctl.engine := by
  unfold State.rewriteContextAccount; split <;> simp
@[simp] theorem State.rewriteContextAccount_ctl_teardown (c : Option CallContext) : (s.rewriteContextAccount c).ctl.teardown = s.ctl.teardown := by
  unfold State.rewriteContextAccount; split <;> simp
@[simp] theorem State.rewriteContextAccount_ctl_head (c : Option CallContext) : (s.rewriteContextAccount c).ctl.head = s.ctl.head := by
  unfold State.rewriteContextAccount; split <;> simp
@[simp] theorem State.rewriteContextAccount_ctl_takenTail (c : Option CallContext) : (s.rewriteContextAccount c).ctl.takenTail = s.ctl.takenTail := by
  unfold State.rewriteContextAccount; split <;> simp
@[simp] theorem State.rewriteContextAccount_ctl_ring (c : Option CallContext) : (s.rewriteContextAccount c).ctl.ring = s.ctl.ring := by
  unfold State.rewriteContextAccount; split <;> simp
@[simp] theorem State.rewriteContextAccount_ctl_inProgress (c : Option CallContext) : (s.rewriteContextAccount c).ctl.inProgress = s.ctl.inProgress := by
  unfold State.rewriteContextAccount; split <;> simp
@[simp] theorem State.rewriteContextAccount_ctl_ringErrors (c : Option CallContext) : (s.rewriteContextAccount c).ctl.ringErrors = s.ctl.ringErrors := by
  unfold State.rewriteContextAccount; split <;> simp
@[simp] theorem State.rewriteContextAccount_ctl_notices (c : Option CallContext) : (s.rewriteContextAccount c).ctl.notices = s.ctl.notices := by
  unfold State.rewriteContextAccount; split <;> simp
@[simp] theorem State.rewriteContextAccount_ctl_mask (c : Option CallContext) : (s.rewriteContextAccount c).ctl.mask = s.ctl.mask := by
  unfold State.rewriteContextAccount; split <;> simp
@[simp] theorem State.rewriteContextAccount_ctl_lastResult (c : Option CallContext) : (s.rewriteContextAccount c).ctl.lastResult = s.ctl.lastResult := by
  unfold State.rewriteContextAccount; split <;> simp

@[simp] theorem State.setContext_pending (n : Fin 4) (c : Option CallContext) : (s.setContext n c).pending = s.pending := by
  simp only [State.setContext]; split <;> simp
@[simp] theorem State.setContext_now (n : Fin 4) (c : Option CallContext) : (s.setContext n c).now = s.now := by
  simp only [State.setContext]; split <;> simp
@[simp] theorem State.setContext_freeCount (n : Fin 4) (c : Option CallContext) : (s.setContext n c).freeCount = s.freeCount := by
  simp only [State.setContext]; split <;> simp
@[simp] theorem State.setContext_mem (n : Fin 4) (c : Option CallContext) : (s.setContext n c).mem = s.mem := by
  simp only [State.setContext]; split <;> simp
@[simp] theorem State.setContext_resetInput (n : Fin 4) (c : Option CallContext) : (s.setContext n c).resetInput = s.resetInput := by
  simp only [State.setContext]; split <;> simp
@[simp] theorem State.setContext_path (n : Fin 4) (c : Option CallContext) : (s.setContext n c).path = s.path := by
  simp only [State.setContext]; split <;> simp
@[simp] theorem State.setContext_store (n : Fin 4) (c : Option CallContext) : (s.setContext n c).store = s.store := by
  simp only [State.setContext]; split <;> simp
@[simp] theorem State.setContext_coder (n : Fin 4) (c : Option CallContext) : (s.setContext n c).coder = s.coder := by
  simp only [State.setContext]; split <;> simp
@[simp] theorem State.setContext_scan (n : Fin 4) (c : Option CallContext) : (s.setContext n c).scan = s.scan := by
  simp only [State.setContext]; split <;> simp
@[simp] theorem State.setContext_print (n : Fin 4) (c : Option CallContext) : (s.setContext n c).print = s.print := by
  simp only [State.setContext]; split <;> simp
@[simp] theorem State.setContext_streams (n : Fin 4) (c : Option CallContext) : (s.setContext n c).streams = s.streams := by
  simp only [State.setContext]; split <;> simp
@[simp] theorem State.setContext_dispatch (n : Fin 4) (c : Option CallContext) : (s.setContext n c).dispatch = s.dispatch := by
  simp only [State.setContext]; split <;> simp
@[simp] theorem State.setContext_lines (n : Fin 4) (c : Option CallContext) : (s.setContext n c).lines = s.lines := by
  simp only [State.setContext]; split <;> simp
@[simp] theorem State.setContext_charge (n : Fin 4) (c : Option CallContext) :
    (s.setContext n c).charge = { s.charge with contexts := s.charge.contexts.set n c } := by
  simp only [State.setContext]; split <;> simp
@[simp] theorem State.setContext_ctl_engine (n : Fin 4) (c : Option CallContext) : (s.setContext n c).ctl.engine = s.ctl.engine := by
  simp only [State.setContext]; split <;> simp
@[simp] theorem State.setContext_ctl_teardown (n : Fin 4) (c : Option CallContext) : (s.setContext n c).ctl.teardown = s.ctl.teardown := by
  simp only [State.setContext]; split <;> simp
@[simp] theorem State.setContext_ctl_head (n : Fin 4) (c : Option CallContext) : (s.setContext n c).ctl.head = s.ctl.head := by
  simp only [State.setContext]; split <;> simp
@[simp] theorem State.setContext_ctl_takenTail (n : Fin 4) (c : Option CallContext) : (s.setContext n c).ctl.takenTail = s.ctl.takenTail := by
  simp only [State.setContext]; split <;> simp
@[simp] theorem State.setContext_ctl_ring (n : Fin 4) (c : Option CallContext) : (s.setContext n c).ctl.ring = s.ctl.ring := by
  simp only [State.setContext]; split <;> simp
@[simp] theorem State.setContext_ctl_inProgress (n : Fin 4) (c : Option CallContext) : (s.setContext n c).ctl.inProgress = s.ctl.inProgress := by
  simp only [State.setContext]; split <;> simp
@[simp] theorem State.setContext_ctl_ringErrors (n : Fin 4) (c : Option CallContext) : (s.setContext n c).ctl.ringErrors = s.ctl.ringErrors := by
  simp only [State.setContext]; split <;> simp
@[simp] theorem State.setContext_ctl_notices (n : Fin 4) (c : Option CallContext) : (s.setContext n c).ctl.notices = s.ctl.notices := by
  simp only [State.setContext]; split <;> simp
@[simp] theorem State.setContext_ctl_mask (n : Fin 4) (c : Option CallContext) : (s.setContext n c).ctl.mask = s.ctl.mask := by
  simp only [State.setContext]; split <;> simp
@[simp] theorem State.setContext_ctl_lastResult (n : Fin 4) (c : Option CallContext) : (s.setContext n c).ctl.lastResult = s.ctl.lastResult := by
  simp only [State.setContext]; split <;> simp

@[simp] theorem State.setScan_pending (x : ScanStream) : (s.setScan x).pending = s.pending := by simp [State.setScan]
@[simp] theorem State.setScan_now (x : ScanStream) : (s.setScan x).now = s.now := by simp [State.setScan]
@[simp] theorem State.setScan_freeCount (x : ScanStream) : (s.setScan x).freeCount = s.freeCount := by
  simp [State.setScan]
@[simp] theorem State.setScan_mem (x : ScanStream) : (s.setScan x).mem = s.mem := by simp [State.setScan]
@[simp] theorem State.setScan_resetInput (x : ScanStream) : (s.setScan x).resetInput = s.resetInput := by
  simp [State.setScan]
@[simp] theorem State.setScan_path (x : ScanStream) : (s.setScan x).path = s.path := by simp [State.setScan]
@[simp] theorem State.setScan_store (x : ScanStream) : (s.setScan x).store = s.store := by simp [State.setScan]
@[simp] theorem State.setScan_coder (x : ScanStream) : (s.setScan x).coder = s.coder := by simp [State.setScan]
@[simp] theorem State.setScan_print (x : ScanStream) : (s.setScan x).print = s.print := by simp [State.setScan]
@[simp] theorem State.setScan_streams (x : ScanStream) : (s.setScan x).streams = s.streams := by simp [State.setScan]
@[simp] theorem State.setScan_dispatch (x : ScanStream) : (s.setScan x).dispatch = s.dispatch := by
  simp [State.setScan]
@[simp] theorem State.setScan_lines (x : ScanStream) : (s.setScan x).lines = s.lines := by simp [State.setScan]
@[simp] theorem State.setScan_charge (x : ScanStream) : (s.setScan x).charge = s.charge := by simp [State.setScan]
@[simp] theorem State.setScan_scan (x : ScanStream) :
    (s.setScan x).scan = x := by simp [State.setScan]
@[simp] theorem State.setScan_ctl_engine (x : ScanStream) : (s.setScan x).ctl.engine = s.ctl.engine := by
  simp [State.setScan]
@[simp] theorem State.setScan_ctl_teardown (x : ScanStream) : (s.setScan x).ctl.teardown = s.ctl.teardown := by
  simp [State.setScan]
@[simp] theorem State.setScan_ctl_head (x : ScanStream) : (s.setScan x).ctl.head = s.ctl.head := by
  simp [State.setScan]
@[simp] theorem State.setScan_ctl_takenTail (x : ScanStream) : (s.setScan x).ctl.takenTail = s.ctl.takenTail := by
  simp [State.setScan]
@[simp] theorem State.setScan_ctl_ring (x : ScanStream) : (s.setScan x).ctl.ring = s.ctl.ring := by
  simp [State.setScan]
@[simp] theorem State.setScan_ctl_inProgress (x : ScanStream) : (s.setScan x).ctl.inProgress = s.ctl.inProgress := by
  simp [State.setScan]
@[simp] theorem State.setScan_ctl_ringErrors (x : ScanStream) : (s.setScan x).ctl.ringErrors = s.ctl.ringErrors := by
  simp [State.setScan]
@[simp] theorem State.setScan_ctl_notices (x : ScanStream) : (s.setScan x).ctl.notices = s.ctl.notices := by
  simp [State.setScan]
@[simp] theorem State.setScan_ctl_mask (x : ScanStream) : (s.setScan x).ctl.mask = s.ctl.mask := by
  simp [State.setScan]
@[simp] theorem State.setScan_ctl_lastResult (x : ScanStream) : (s.setScan x).ctl.lastResult = s.ctl.lastResult := by
  simp [State.setScan]

@[simp] theorem State.setPrint_pending (x : PrintStream) : (s.setPrint x).pending = s.pending := by
  simp [State.setPrint]
@[simp] theorem State.setPrint_now (x : PrintStream) : (s.setPrint x).now = s.now := by simp [State.setPrint]
@[simp] theorem State.setPrint_freeCount (x : PrintStream) : (s.setPrint x).freeCount = s.freeCount := by
  simp [State.setPrint]
@[simp] theorem State.setPrint_mem (x : PrintStream) : (s.setPrint x).mem = s.mem := by simp [State.setPrint]
@[simp] theorem State.setPrint_resetInput (x : PrintStream) : (s.setPrint x).resetInput = s.resetInput := by
  simp [State.setPrint]
@[simp] theorem State.setPrint_path (x : PrintStream) : (s.setPrint x).path = s.path := by simp [State.setPrint]
@[simp] theorem State.setPrint_store (x : PrintStream) : (s.setPrint x).store = s.store := by simp [State.setPrint]
@[simp] theorem State.setPrint_coder (x : PrintStream) : (s.setPrint x).coder = s.coder := by simp [State.setPrint]
@[simp] theorem State.setPrint_scan (x : PrintStream) : (s.setPrint x).scan = s.scan := by simp [State.setPrint]
@[simp] theorem State.setPrint_streams (x : PrintStream) : (s.setPrint x).streams = s.streams := by
  simp [State.setPrint]
@[simp] theorem State.setPrint_dispatch (x : PrintStream) : (s.setPrint x).dispatch = s.dispatch := by
  simp [State.setPrint]
@[simp] theorem State.setPrint_lines (x : PrintStream) : (s.setPrint x).lines = s.lines := by simp [State.setPrint]
@[simp] theorem State.setPrint_charge (x : PrintStream) : (s.setPrint x).charge = s.charge := by simp [State.setPrint]
@[simp] theorem State.setPrint_print (x : PrintStream) :
    (s.setPrint x).print = x := by simp [State.setPrint]
@[simp] theorem State.setPrint_ctl_engine (x : PrintStream) : (s.setPrint x).ctl.engine = s.ctl.engine := by
  simp [State.setPrint]
@[simp] theorem State.setPrint_ctl_teardown (x : PrintStream) : (s.setPrint x).ctl.teardown = s.ctl.teardown := by
  simp [State.setPrint]
@[simp] theorem State.setPrint_ctl_head (x : PrintStream) : (s.setPrint x).ctl.head = s.ctl.head := by
  simp [State.setPrint]
@[simp] theorem State.setPrint_ctl_takenTail (x : PrintStream) : (s.setPrint x).ctl.takenTail = s.ctl.takenTail := by
  simp [State.setPrint]
@[simp] theorem State.setPrint_ctl_ring (x : PrintStream) : (s.setPrint x).ctl.ring = s.ctl.ring := by
  simp [State.setPrint]
@[simp] theorem State.setPrint_ctl_inProgress (x : PrintStream) : (s.setPrint x).ctl.inProgress = s.ctl.inProgress := by
  simp [State.setPrint]
@[simp] theorem State.setPrint_ctl_ringErrors (x : PrintStream) : (s.setPrint x).ctl.ringErrors = s.ctl.ringErrors := by
  simp [State.setPrint]
@[simp] theorem State.setPrint_ctl_notices (x : PrintStream) : (s.setPrint x).ctl.notices = s.ctl.notices := by
  simp [State.setPrint]
@[simp] theorem State.setPrint_ctl_mask (x : PrintStream) : (s.setPrint x).ctl.mask = s.ctl.mask := by
  simp [State.setPrint]
@[simp] theorem State.setPrint_ctl_lastResult (x : PrintStream) : (s.setPrint x).ctl.lastResult = s.ctl.lastResult := by
  simp [State.setPrint]

@[simp] theorem State.setStream_pending (n : Fin 4) (x : LineStream) : (s.setStream n x).pending = s.pending := by
  simp [State.setStream]
@[simp] theorem State.setStream_now (n : Fin 4) (x : LineStream) : (s.setStream n x).now = s.now := by
  simp [State.setStream]
@[simp] theorem State.setStream_freeCount (n : Fin 4) (x : LineStream) : (s.setStream n x).freeCount = s.freeCount := by
  simp [State.setStream]
@[simp] theorem State.setStream_mem (n : Fin 4) (x : LineStream) : (s.setStream n x).mem = s.mem := by
  simp [State.setStream]
@[simp] theorem State.setStream_resetInput (n : Fin 4) (x : LineStream) : (s.setStream n x).resetInput = s.resetInput := by
  simp [State.setStream]
@[simp] theorem State.setStream_path (n : Fin 4) (x : LineStream) : (s.setStream n x).path = s.path := by
  simp [State.setStream]
@[simp] theorem State.setStream_store (n : Fin 4) (x : LineStream) : (s.setStream n x).store = s.store := by
  simp [State.setStream]
@[simp] theorem State.setStream_coder (n : Fin 4) (x : LineStream) : (s.setStream n x).coder = s.coder := by
  simp [State.setStream]
@[simp] theorem State.setStream_scan (n : Fin 4) (x : LineStream) : (s.setStream n x).scan = s.scan := by
  simp [State.setStream]
@[simp] theorem State.setStream_print (n : Fin 4) (x : LineStream) : (s.setStream n x).print = s.print := by
  simp [State.setStream]
@[simp] theorem State.setStream_dispatch (n : Fin 4) (x : LineStream) : (s.setStream n x).dispatch = s.dispatch := by
  simp [State.setStream]
@[simp] theorem State.setStream_lines (n : Fin 4) (x : LineStream) : (s.setStream n x).lines = s.lines := by
  simp [State.setStream]
@[simp] theorem State.setStream_charge (n : Fin 4) (x : LineStream) : (s.setStream n x).charge = s.charge := by
  simp [State.setStream]
@[simp] theorem State.setStream_streams (n : Fin 4) (x : LineStream) :
    (s.setStream n x).streams = s.streams.set n x := by simp [State.setStream]
@[simp] theorem State.setStream_ctl_engine (n : Fin 4) (x : LineStream) : (s.setStream n x).ctl.engine = s.ctl.engine := by
  simp [State.setStream]
@[simp] theorem State.setStream_ctl_teardown (n : Fin 4) (x : LineStream) : (s.setStream n x).ctl.teardown = s.ctl.teardown := by
  simp [State.setStream]
@[simp] theorem State.setStream_ctl_head (n : Fin 4) (x : LineStream) : (s.setStream n x).ctl.head = s.ctl.head := by
  simp [State.setStream]
@[simp] theorem State.setStream_ctl_takenTail (n : Fin 4) (x : LineStream) : (s.setStream n x).ctl.takenTail = s.ctl.takenTail := by
  simp [State.setStream]
@[simp] theorem State.setStream_ctl_ring (n : Fin 4) (x : LineStream) : (s.setStream n x).ctl.ring = s.ctl.ring := by
  simp [State.setStream]
@[simp] theorem State.setStream_ctl_inProgress (n : Fin 4) (x : LineStream) : (s.setStream n x).ctl.inProgress = s.ctl.inProgress := by
  simp [State.setStream]
@[simp] theorem State.setStream_ctl_ringErrors (n : Fin 4) (x : LineStream) : (s.setStream n x).ctl.ringErrors = s.ctl.ringErrors := by
  simp [State.setStream]
@[simp] theorem State.setStream_ctl_notices (n : Fin 4) (x : LineStream) : (s.setStream n x).ctl.notices = s.ctl.notices := by
  simp [State.setStream]
@[simp] theorem State.setStream_ctl_mask (n : Fin 4) (x : LineStream) : (s.setStream n x).ctl.mask = s.ctl.mask := by
  simp [State.setStream]
@[simp] theorem State.setStream_ctl_lastResult (n : Fin 4) (x : LineStream) : (s.setStream n x).ctl.lastResult = s.ctl.lastResult := by
  simp [State.setStream]

@[simp] theorem State.modStream_pending (n : Fin 4) (f : LineStream → LineStream) : (s.modStream n f).pending = s.pending := by
  simp [State.modStream]
@[simp] theorem State.modStream_now (n : Fin 4) (f : LineStream → LineStream) : (s.modStream n f).now = s.now := by
  simp [State.modStream]
@[simp] theorem State.modStream_freeCount (n : Fin 4) (f : LineStream → LineStream) : (s.modStream n f).freeCount = s.freeCount := by
  simp [State.modStream]
@[simp] theorem State.modStream_mem (n : Fin 4) (f : LineStream → LineStream) : (s.modStream n f).mem = s.mem := by
  simp [State.modStream]
@[simp] theorem State.modStream_resetInput (n : Fin 4) (f : LineStream → LineStream) : (s.modStream n f).resetInput = s.resetInput := by
  simp [State.modStream]
@[simp] theorem State.modStream_path (n : Fin 4) (f : LineStream → LineStream) : (s.modStream n f).path = s.path := by
  simp [State.modStream]
@[simp] theorem State.modStream_store (n : Fin 4) (f : LineStream → LineStream) : (s.modStream n f).store = s.store := by
  simp [State.modStream]
@[simp] theorem State.modStream_coder (n : Fin 4) (f : LineStream → LineStream) : (s.modStream n f).coder = s.coder := by
  simp [State.modStream]
@[simp] theorem State.modStream_scan (n : Fin 4) (f : LineStream → LineStream) : (s.modStream n f).scan = s.scan := by
  simp [State.modStream]
@[simp] theorem State.modStream_print (n : Fin 4) (f : LineStream → LineStream) : (s.modStream n f).print = s.print := by
  simp [State.modStream]
@[simp] theorem State.modStream_dispatch (n : Fin 4) (f : LineStream → LineStream) : (s.modStream n f).dispatch = s.dispatch := by
  simp [State.modStream]
@[simp] theorem State.modStream_lines (n : Fin 4) (f : LineStream → LineStream) : (s.modStream n f).lines = s.lines := by
  simp [State.modStream]
@[simp] theorem State.modStream_charge (n : Fin 4) (f : LineStream → LineStream) : (s.modStream n f).charge = s.charge := by
  simp [State.modStream]
@[simp] theorem State.modStream_streams (n : Fin 4) (f : LineStream → LineStream) :
    (s.modStream n f).streams = s.streams.set n (f (s.stream n)) := by simp [State.modStream]
@[simp] theorem State.modStream_ctl_engine (n : Fin 4) (f : LineStream → LineStream) : (s.modStream n f).ctl.engine = s.ctl.engine := by
  simp [State.modStream]
@[simp] theorem State.modStream_ctl_teardown (n : Fin 4) (f : LineStream → LineStream) : (s.modStream n f).ctl.teardown = s.ctl.teardown := by
  simp [State.modStream]
@[simp] theorem State.modStream_ctl_head (n : Fin 4) (f : LineStream → LineStream) : (s.modStream n f).ctl.head = s.ctl.head := by
  simp [State.modStream]
@[simp] theorem State.modStream_ctl_takenTail (n : Fin 4) (f : LineStream → LineStream) : (s.modStream n f).ctl.takenTail = s.ctl.takenTail := by
  simp [State.modStream]
@[simp] theorem State.modStream_ctl_ring (n : Fin 4) (f : LineStream → LineStream) : (s.modStream n f).ctl.ring = s.ctl.ring := by
  simp [State.modStream]
@[simp] theorem State.modStream_ctl_inProgress (n : Fin 4) (f : LineStream → LineStream) : (s.modStream n f).ctl.inProgress = s.ctl.inProgress := by
  simp [State.modStream]
@[simp] theorem State.modStream_ctl_ringErrors (n : Fin 4) (f : LineStream → LineStream) : (s.modStream n f).ctl.ringErrors = s.ctl.ringErrors := by
  simp [State.modStream]
@[simp] theorem State.modStream_ctl_notices (n : Fin 4) (f : LineStream → LineStream) : (s.modStream n f).ctl.notices = s.ctl.notices := by
  simp [State.modStream]
@[simp] theorem State.modStream_ctl_mask (n : Fin 4) (f : LineStream → LineStream) : (s.modStream n f).ctl.mask = s.ctl.mask := by
  simp [State.modStream]
@[simp] theorem State.modStream_ctl_lastResult (n : Fin 4) (f : LineStream → LineStream) : (s.modStream n f).ctl.lastResult = s.ctl.lastResult := by
  simp [State.modStream]

@[simp] theorem State.setWindow_pending (w : Fin 6) (x : WindowShadow) : (s.setWindow w x).pending = s.pending := by
  simp [State.setWindow]
@[simp] theorem State.setWindow_now (w : Fin 6) (x : WindowShadow) : (s.setWindow w x).now = s.now := by
  simp [State.setWindow]
@[simp] theorem State.setWindow_freeCount (w : Fin 6) (x : WindowShadow) : (s.setWindow w x).freeCount = s.freeCount := by
  simp [State.setWindow]
@[simp] theorem State.setWindow_mem (w : Fin 6) (x : WindowShadow) : (s.setWindow w x).mem = s.mem := by
  simp [State.setWindow]
@[simp] theorem State.setWindow_resetInput (w : Fin 6) (x : WindowShadow) : (s.setWindow w x).resetInput = s.resetInput := by
  simp [State.setWindow]
@[simp] theorem State.setWindow_store (w : Fin 6) (x : WindowShadow) : (s.setWindow w x).store = s.store := by
  simp [State.setWindow]
@[simp] theorem State.setWindow_coder (w : Fin 6) (x : WindowShadow) : (s.setWindow w x).coder = s.coder := by
  simp [State.setWindow]
@[simp] theorem State.setWindow_scan (w : Fin 6) (x : WindowShadow) : (s.setWindow w x).scan = s.scan := by
  simp [State.setWindow]
@[simp] theorem State.setWindow_print (w : Fin 6) (x : WindowShadow) : (s.setWindow w x).print = s.print := by
  simp [State.setWindow]
@[simp] theorem State.setWindow_streams (w : Fin 6) (x : WindowShadow) : (s.setWindow w x).streams = s.streams := by
  simp [State.setWindow]
@[simp] theorem State.setWindow_dispatch (w : Fin 6) (x : WindowShadow) : (s.setWindow w x).dispatch = s.dispatch := by
  simp [State.setWindow]
@[simp] theorem State.setWindow_lines (w : Fin 6) (x : WindowShadow) : (s.setWindow w x).lines = s.lines := by
  simp [State.setWindow]
@[simp] theorem State.setWindow_charge (w : Fin 6) (x : WindowShadow) : (s.setWindow w x).charge = s.charge := by
  simp [State.setWindow]
@[simp] theorem State.setWindow_path (w : Fin 6) (x : WindowShadow) :
    (s.setWindow w x).path = { s.path with windows := s.path.windows.set w x } := by simp [State.setWindow]
@[simp] theorem State.setWindow_ctl_engine (w : Fin 6) (x : WindowShadow) : (s.setWindow w x).ctl.engine = s.ctl.engine := by
  simp [State.setWindow]
@[simp] theorem State.setWindow_ctl_teardown (w : Fin 6) (x : WindowShadow) : (s.setWindow w x).ctl.teardown = s.ctl.teardown := by
  simp [State.setWindow]
@[simp] theorem State.setWindow_ctl_head (w : Fin 6) (x : WindowShadow) : (s.setWindow w x).ctl.head = s.ctl.head := by
  simp [State.setWindow]
@[simp] theorem State.setWindow_ctl_takenTail (w : Fin 6) (x : WindowShadow) : (s.setWindow w x).ctl.takenTail = s.ctl.takenTail := by
  simp [State.setWindow]
@[simp] theorem State.setWindow_ctl_ring (w : Fin 6) (x : WindowShadow) : (s.setWindow w x).ctl.ring = s.ctl.ring := by
  simp [State.setWindow]
@[simp] theorem State.setWindow_ctl_inProgress (w : Fin 6) (x : WindowShadow) : (s.setWindow w x).ctl.inProgress = s.ctl.inProgress := by
  simp [State.setWindow]
@[simp] theorem State.setWindow_ctl_ringErrors (w : Fin 6) (x : WindowShadow) : (s.setWindow w x).ctl.ringErrors = s.ctl.ringErrors := by
  simp [State.setWindow]
@[simp] theorem State.setWindow_ctl_notices (w : Fin 6) (x : WindowShadow) : (s.setWindow w x).ctl.notices = s.ctl.notices := by
  simp [State.setWindow]
@[simp] theorem State.setWindow_ctl_mask (w : Fin 6) (x : WindowShadow) : (s.setWindow w x).ctl.mask = s.ctl.mask := by
  simp [State.setWindow]
@[simp] theorem State.setWindow_ctl_lastResult (w : Fin 6) (x : WindowShadow) : (s.setWindow w x).ctl.lastResult = s.ctl.lastResult := by
  simp [State.setWindow]

@[simp] theorem State.setCtx_pending (i : StreamId) (c : LineContext) : (s.setCtx i c).pending = s.pending := by rfl
@[simp] theorem State.setCtx_now (i : StreamId) (c : LineContext) : (s.setCtx i c).now = s.now := by rfl
@[simp] theorem State.setCtx_freeCount (i : StreamId) (c : LineContext) : (s.setCtx i c).freeCount = s.freeCount := by
  rfl
@[simp] theorem State.setCtx_mem (i : StreamId) (c : LineContext) : (s.setCtx i c).mem = s.mem := by rfl
@[simp] theorem State.setCtx_resetInput (i : StreamId) (c : LineContext) : (s.setCtx i c).resetInput = s.resetInput := by
  rfl
@[simp] theorem State.setCtx_path (i : StreamId) (c : LineContext) : (s.setCtx i c).path = s.path := by rfl
@[simp] theorem State.setCtx_ctl (i : StreamId) (c : LineContext) : (s.setCtx i c).ctl = s.ctl := by rfl
@[simp] theorem State.setCtx_store (i : StreamId) (c : LineContext) : (s.setCtx i c).store = s.store := by rfl
@[simp] theorem State.setCtx_scan (i : StreamId) (c : LineContext) : (s.setCtx i c).scan = s.scan := by rfl
@[simp] theorem State.setCtx_print (i : StreamId) (c : LineContext) : (s.setCtx i c).print = s.print := by rfl
@[simp] theorem State.setCtx_streams (i : StreamId) (c : LineContext) : (s.setCtx i c).streams = s.streams := by rfl
@[simp] theorem State.setCtx_dispatch (i : StreamId) (c : LineContext) : (s.setCtx i c).dispatch = s.dispatch := by
  rfl
@[simp] theorem State.setCtx_lines (i : StreamId) (c : LineContext) : (s.setCtx i c).lines = s.lines := by rfl
@[simp] theorem State.setCtx_charge (i : StreamId) (c : LineContext) : (s.setCtx i c).charge = s.charge := by rfl
@[simp] theorem State.setCtx_coder (i : StreamId) (c : LineContext) :
    (s.setCtx i c).coder = { s.coder with contexts := s.coder.contexts.set i.index c } := by rfl

@[simp] theorem State.freeEngine_pending : (s.freeEngine).pending = s.pending := by rfl
@[simp] theorem State.freeEngine_now : (s.freeEngine).now = s.now := by rfl
@[simp] theorem State.freeEngine_freeCount : (s.freeEngine).freeCount = s.freeCount := by rfl
@[simp] theorem State.freeEngine_mem : (s.freeEngine).mem = s.mem := by rfl
@[simp] theorem State.freeEngine_resetInput : (s.freeEngine).resetInput = s.resetInput := by rfl
@[simp] theorem State.freeEngine_path : (s.freeEngine).path = s.path := by rfl
@[simp] theorem State.freeEngine_ctl : (s.freeEngine).ctl = s.ctl := by rfl
@[simp] theorem State.freeEngine_store : (s.freeEngine).store = s.store := by rfl
@[simp] theorem State.freeEngine_scan : (s.freeEngine).scan = s.scan := by rfl
@[simp] theorem State.freeEngine_print : (s.freeEngine).print = s.print := by rfl
@[simp] theorem State.freeEngine_streams : (s.freeEngine).streams = s.streams := by rfl
@[simp] theorem State.freeEngine_dispatch : (s.freeEngine).dispatch = s.dispatch := by rfl
@[simp] theorem State.freeEngine_lines : (s.freeEngine).lines = s.lines := by rfl
@[simp] theorem State.freeEngine_charge : (s.freeEngine).charge = s.charge := by rfl
@[simp] theorem State.freeEngine_coder :
    (s.freeEngine).coder = { s.coder with engine := none } := by rfl

@[simp] theorem State.raise_pending (f : Notice) : (s.raise f).pending = s.pending := by
  unfold State.raise; split <;> simp
@[simp] theorem State.raise_now (f : Notice) : (s.raise f).now = s.now := by unfold State.raise; split <;> simp
@[simp] theorem State.raise_freeCount (f : Notice) : (s.raise f).freeCount = s.freeCount := by
  unfold State.raise; split <;> simp
@[simp] theorem State.raise_mem (f : Notice) : (s.raise f).mem = s.mem := by unfold State.raise; split <;> simp
@[simp] theorem State.raise_resetInput (f : Notice) : (s.raise f).resetInput = s.resetInput := by
  unfold State.raise; split <;> simp
@[simp] theorem State.raise_path (f : Notice) : (s.raise f).path = s.path := by unfold State.raise; split <;> simp
@[simp] theorem State.raise_store (f : Notice) : (s.raise f).store = s.store := by unfold State.raise; split <;> simp
@[simp] theorem State.raise_coder (f : Notice) : (s.raise f).coder = s.coder := by unfold State.raise; split <;> simp
@[simp] theorem State.raise_scan (f : Notice) : (s.raise f).scan = s.scan := by unfold State.raise; split <;> simp
@[simp] theorem State.raise_print (f : Notice) : (s.raise f).print = s.print := by unfold State.raise; split <;> simp
@[simp] theorem State.raise_streams (f : Notice) : (s.raise f).streams = s.streams := by
  unfold State.raise; split <;> simp
@[simp] theorem State.raise_dispatch (f : Notice) : (s.raise f).dispatch = s.dispatch := by
  unfold State.raise; split <;> simp
@[simp] theorem State.raise_lines (f : Notice) : (s.raise f).lines = s.lines := by unfold State.raise; split <;> simp
@[simp] theorem State.raise_charge (f : Notice) : (s.raise f).charge = s.charge := by
  unfold State.raise; split <;> simp
@[simp] theorem State.raise_ctl_engine (f : Notice) : (s.raise f).ctl.engine = s.ctl.engine := by
  unfold State.raise; split <;> simp
@[simp] theorem State.raise_ctl_teardown (f : Notice) : (s.raise f).ctl.teardown = s.ctl.teardown := by
  unfold State.raise; split <;> simp
@[simp] theorem State.raise_ctl_head (f : Notice) : (s.raise f).ctl.head = s.ctl.head := by
  unfold State.raise; split <;> simp
@[simp] theorem State.raise_ctl_takenTail (f : Notice) : (s.raise f).ctl.takenTail = s.ctl.takenTail := by
  unfold State.raise; split <;> simp
@[simp] theorem State.raise_ctl_ring (f : Notice) : (s.raise f).ctl.ring = s.ctl.ring := by
  unfold State.raise; split <;> simp
@[simp] theorem State.raise_ctl_inProgress (f : Notice) : (s.raise f).ctl.inProgress = s.ctl.inProgress := by
  unfold State.raise; split <;> simp
@[simp] theorem State.raise_ctl_ringErrors (f : Notice) : (s.raise f).ctl.ringErrors = s.ctl.ringErrors := by
  unfold State.raise; split <;> simp
@[simp] theorem State.raise_ctl_mask (f : Notice) : (s.raise f).ctl.mask = s.ctl.mask := by
  unfold State.raise; split <;> simp
@[simp] theorem State.raise_ctl_lastResult (f : Notice) : (s.raise f).ctl.lastResult = s.ctl.lastResult := by
  unfold State.raise; split <;> simp

@[simp] theorem State.clearNotices_pending (b : BitVec 12) : (s.clearNotices b).pending = s.pending := by
  unfold State.clearNotices; split <;> simp
@[simp] theorem State.clearNotices_now (b : BitVec 12) : (s.clearNotices b).now = s.now := by
  unfold State.clearNotices; split <;> simp
@[simp] theorem State.clearNotices_freeCount (b : BitVec 12) : (s.clearNotices b).freeCount = s.freeCount := by
  unfold State.clearNotices; split <;> simp
@[simp] theorem State.clearNotices_mem (b : BitVec 12) : (s.clearNotices b).mem = s.mem := by
  unfold State.clearNotices; split <;> simp
@[simp] theorem State.clearNotices_resetInput (b : BitVec 12) : (s.clearNotices b).resetInput = s.resetInput := by
  unfold State.clearNotices; split <;> simp
@[simp] theorem State.clearNotices_path (b : BitVec 12) : (s.clearNotices b).path = s.path := by
  unfold State.clearNotices; split <;> simp
@[simp] theorem State.clearNotices_store (b : BitVec 12) : (s.clearNotices b).store = s.store := by
  unfold State.clearNotices; split <;> simp
@[simp] theorem State.clearNotices_coder (b : BitVec 12) : (s.clearNotices b).coder = s.coder := by
  unfold State.clearNotices; split <;> simp
@[simp] theorem State.clearNotices_scan (b : BitVec 12) : (s.clearNotices b).scan = s.scan := by
  unfold State.clearNotices; split <;> simp
@[simp] theorem State.clearNotices_print (b : BitVec 12) : (s.clearNotices b).print = s.print := by
  unfold State.clearNotices; split <;> simp
@[simp] theorem State.clearNotices_streams (b : BitVec 12) : (s.clearNotices b).streams = s.streams := by
  unfold State.clearNotices; split <;> simp
@[simp] theorem State.clearNotices_dispatch (b : BitVec 12) : (s.clearNotices b).dispatch = s.dispatch := by
  unfold State.clearNotices; split <;> simp
@[simp] theorem State.clearNotices_lines (b : BitVec 12) : (s.clearNotices b).lines = s.lines := by
  unfold State.clearNotices; split <;> simp
@[simp] theorem State.clearNotices_charge (b : BitVec 12) : (s.clearNotices b).charge = s.charge := by
  unfold State.clearNotices; split <;> simp
@[simp] theorem State.clearNotices_ctl_engine (b : BitVec 12) : (s.clearNotices b).ctl.engine = s.ctl.engine := by
  unfold State.clearNotices; split <;> simp
@[simp] theorem State.clearNotices_ctl_teardown (b : BitVec 12) : (s.clearNotices b).ctl.teardown = s.ctl.teardown := by
  unfold State.clearNotices; split <;> simp
@[simp] theorem State.clearNotices_ctl_head (b : BitVec 12) : (s.clearNotices b).ctl.head = s.ctl.head := by
  unfold State.clearNotices; split <;> simp
@[simp] theorem State.clearNotices_ctl_takenTail (b : BitVec 12) : (s.clearNotices b).ctl.takenTail = s.ctl.takenTail := by
  unfold State.clearNotices; split <;> simp
@[simp] theorem State.clearNotices_ctl_ring (b : BitVec 12) : (s.clearNotices b).ctl.ring = s.ctl.ring := by
  unfold State.clearNotices; split <;> simp
@[simp] theorem State.clearNotices_ctl_inProgress (b : BitVec 12) : (s.clearNotices b).ctl.inProgress = s.ctl.inProgress := by
  unfold State.clearNotices; split <;> simp
@[simp] theorem State.clearNotices_ctl_ringErrors (b : BitVec 12) : (s.clearNotices b).ctl.ringErrors = s.ctl.ringErrors := by
  unfold State.clearNotices; split <;> simp
@[simp] theorem State.clearNotices_ctl_mask (b : BitVec 12) : (s.clearNotices b).ctl.mask = s.ctl.mask := by
  unfold State.clearNotices; split <;> simp
@[simp] theorem State.clearNotices_ctl_lastResult (b : BitVec 12) : (s.clearNotices b).ctl.lastResult = s.ctl.lastResult := by
  unfold State.clearNotices; split <;> simp

@[simp] theorem State.answerHost_pending (a : HostAnswer) : (s.answerHost a).pending = s.pending := by rfl
@[simp] theorem State.answerHost_now (a : HostAnswer) : (s.answerHost a).now = s.now := by rfl
@[simp] theorem State.answerHost_freeCount (a : HostAnswer) : (s.answerHost a).freeCount = s.freeCount := by rfl
@[simp] theorem State.answerHost_mem (a : HostAnswer) : (s.answerHost a).mem = s.mem := by rfl
@[simp] theorem State.answerHost_resetInput (a : HostAnswer) : (s.answerHost a).resetInput = s.resetInput := by rfl
@[simp] theorem State.answerHost_ctl (a : HostAnswer) : (s.answerHost a).ctl = s.ctl := by rfl
@[simp] theorem State.answerHost_store (a : HostAnswer) : (s.answerHost a).store = s.store := by rfl
@[simp] theorem State.answerHost_coder (a : HostAnswer) : (s.answerHost a).coder = s.coder := by rfl
@[simp] theorem State.answerHost_scan (a : HostAnswer) : (s.answerHost a).scan = s.scan := by rfl
@[simp] theorem State.answerHost_print (a : HostAnswer) : (s.answerHost a).print = s.print := by rfl
@[simp] theorem State.answerHost_streams (a : HostAnswer) : (s.answerHost a).streams = s.streams := by rfl
@[simp] theorem State.answerHost_dispatch (a : HostAnswer) : (s.answerHost a).dispatch = s.dispatch := by rfl
@[simp] theorem State.answerHost_lines (a : HostAnswer) : (s.answerHost a).lines = s.lines := by rfl
@[simp] theorem State.answerHost_charge (a : HostAnswer) : (s.answerHost a).charge = s.charge := by rfl
@[simp] theorem State.answerHost_path (a : HostAnswer) :
    (s.answerHost a).path = { s.path with held := none, answer := some a } := by rfl

@[simp] theorem State.hold_pending (acc : HostAccess) (w : Option (Fin 6)) (why : HoldReason) : (s.hold acc w why).pending = s.pending := by
  rfl
@[simp] theorem State.hold_now (acc : HostAccess) (w : Option (Fin 6)) (why : HoldReason) : (s.hold acc w why).now = s.now := by
  rfl
@[simp] theorem State.hold_freeCount (acc : HostAccess) (w : Option (Fin 6)) (why : HoldReason) : (s.hold acc w why).freeCount = s.freeCount := by
  rfl
@[simp] theorem State.hold_mem (acc : HostAccess) (w : Option (Fin 6)) (why : HoldReason) : (s.hold acc w why).mem = s.mem := by
  rfl
@[simp] theorem State.hold_resetInput (acc : HostAccess) (w : Option (Fin 6)) (why : HoldReason) : (s.hold acc w why).resetInput = s.resetInput := by
  rfl
@[simp] theorem State.hold_ctl (acc : HostAccess) (w : Option (Fin 6)) (why : HoldReason) : (s.hold acc w why).ctl = s.ctl := by
  rfl
@[simp] theorem State.hold_store (acc : HostAccess) (w : Option (Fin 6)) (why : HoldReason) : (s.hold acc w why).store = s.store := by
  rfl
@[simp] theorem State.hold_coder (acc : HostAccess) (w : Option (Fin 6)) (why : HoldReason) : (s.hold acc w why).coder = s.coder := by
  rfl
@[simp] theorem State.hold_scan (acc : HostAccess) (w : Option (Fin 6)) (why : HoldReason) : (s.hold acc w why).scan = s.scan := by
  rfl
@[simp] theorem State.hold_print (acc : HostAccess) (w : Option (Fin 6)) (why : HoldReason) : (s.hold acc w why).print = s.print := by
  rfl
@[simp] theorem State.hold_streams (acc : HostAccess) (w : Option (Fin 6)) (why : HoldReason) : (s.hold acc w why).streams = s.streams := by
  rfl
@[simp] theorem State.hold_dispatch (acc : HostAccess) (w : Option (Fin 6)) (why : HoldReason) : (s.hold acc w why).dispatch = s.dispatch := by
  rfl
@[simp] theorem State.hold_lines (acc : HostAccess) (w : Option (Fin 6)) (why : HoldReason) : (s.hold acc w why).lines = s.lines := by
  rfl
@[simp] theorem State.hold_charge (acc : HostAccess) (w : Option (Fin 6)) (why : HoldReason) : (s.hold acc w why).charge = s.charge := by
  rfl
@[simp] theorem State.hold_path (acc : HostAccess) (w : Option (Fin 6)) (why : HoldReason) :
    (s.hold acc w why).path = { s.path with held := some { access := acc, window := w, reason := why, start := s.now, limit := s.path.holdLimit } } := by
  rfl

@[simp] theorem State.setPassedOver_pending (n : Nat) : (s.setPassedOver n).pending = s.pending := by rfl
@[simp] theorem State.setPassedOver_now (n : Nat) : (s.setPassedOver n).now = s.now := by rfl
@[simp] theorem State.setPassedOver_freeCount (n : Nat) : (s.setPassedOver n).freeCount = s.freeCount := by rfl
@[simp] theorem State.setPassedOver_mem (n : Nat) : (s.setPassedOver n).mem = s.mem := by rfl
@[simp] theorem State.setPassedOver_resetInput (n : Nat) : (s.setPassedOver n).resetInput = s.resetInput := by rfl
@[simp] theorem State.setPassedOver_ctl (n : Nat) : (s.setPassedOver n).ctl = s.ctl := by rfl
@[simp] theorem State.setPassedOver_store (n : Nat) : (s.setPassedOver n).store = s.store := by rfl
@[simp] theorem State.setPassedOver_coder (n : Nat) : (s.setPassedOver n).coder = s.coder := by rfl
@[simp] theorem State.setPassedOver_scan (n : Nat) : (s.setPassedOver n).scan = s.scan := by rfl
@[simp] theorem State.setPassedOver_print (n : Nat) : (s.setPassedOver n).print = s.print := by rfl
@[simp] theorem State.setPassedOver_streams (n : Nat) : (s.setPassedOver n).streams = s.streams := by rfl
@[simp] theorem State.setPassedOver_dispatch (n : Nat) : (s.setPassedOver n).dispatch = s.dispatch := by rfl
@[simp] theorem State.setPassedOver_lines (n : Nat) : (s.setPassedOver n).lines = s.lines := by rfl
@[simp] theorem State.setPassedOver_charge (n : Nat) : (s.setPassedOver n).charge = s.charge := by rfl
@[simp] theorem State.setPassedOver_path (n : Nat) :
    (s.setPassedOver n).path = { s.path with passedOver := n } := by rfl

@[simp] theorem State.freePort_pending : (s.freePort).pending = s.pending := by rfl
@[simp] theorem State.freePort_now : (s.freePort).now = s.now := by rfl
@[simp] theorem State.freePort_freeCount : (s.freePort).freeCount = s.freeCount := by rfl
@[simp] theorem State.freePort_mem : (s.freePort).mem = s.mem := by rfl
@[simp] theorem State.freePort_resetInput : (s.freePort).resetInput = s.resetInput := by rfl
@[simp] theorem State.freePort_ctl : (s.freePort).ctl = s.ctl := by rfl
@[simp] theorem State.freePort_store : (s.freePort).store = s.store := by rfl
@[simp] theorem State.freePort_coder : (s.freePort).coder = s.coder := by rfl
@[simp] theorem State.freePort_scan : (s.freePort).scan = s.scan := by rfl
@[simp] theorem State.freePort_print : (s.freePort).print = s.print := by rfl
@[simp] theorem State.freePort_streams : (s.freePort).streams = s.streams := by rfl
@[simp] theorem State.freePort_dispatch : (s.freePort).dispatch = s.dispatch := by rfl
@[simp] theorem State.freePort_lines : (s.freePort).lines = s.lines := by rfl
@[simp] theorem State.freePort_charge : (s.freePort).charge = s.charge := by rfl
@[simp] theorem State.freePort_path :
    (s.freePort).path = { s.path with port := none } := by rfl

@[simp] theorem State.portWritten_pending (p : PortRequest) : (s.portWritten p).pending = s.pending := by rfl
@[simp] theorem State.portWritten_now (p : PortRequest) : (s.portWritten p).now = s.now := by rfl
@[simp] theorem State.portWritten_freeCount (p : PortRequest) : (s.portWritten p).freeCount = s.freeCount := by rfl
@[simp] theorem State.portWritten_resetInput (p : PortRequest) : (s.portWritten p).resetInput = s.resetInput := by rfl
@[simp] theorem State.portWritten_ctl (p : PortRequest) : (s.portWritten p).ctl = s.ctl := by rfl
@[simp] theorem State.portWritten_store (p : PortRequest) : (s.portWritten p).store = s.store := by rfl
@[simp] theorem State.portWritten_coder (p : PortRequest) : (s.portWritten p).coder = s.coder := by rfl
@[simp] theorem State.portWritten_scan (p : PortRequest) : (s.portWritten p).scan = s.scan := by rfl
@[simp] theorem State.portWritten_print (p : PortRequest) : (s.portWritten p).print = s.print := by rfl
@[simp] theorem State.portWritten_streams (p : PortRequest) : (s.portWritten p).streams = s.streams := by rfl
@[simp] theorem State.portWritten_dispatch (p : PortRequest) : (s.portWritten p).dispatch = s.dispatch := by rfl
@[simp] theorem State.portWritten_lines (p : PortRequest) : (s.portWritten p).lines = s.lines := by rfl
@[simp] theorem State.portWritten_charge (p : PortRequest) : (s.portWritten p).charge = s.charge := by rfl
@[simp] theorem State.portWritten_path (p : PortRequest) :
    (s.portWritten p).path = { s.path with port := none } := by rfl
@[simp] theorem State.portWritten_mem (p : PortRequest) :
    (s.portWritten p).mem = Memory.writeBytes s.mem p.addr p.bytes := by rfl

@[simp] theorem State.controlDone_pending : (s.controlDone).pending = s.pending := by rfl
@[simp] theorem State.controlDone_now : (s.controlDone).now = s.now := by rfl
@[simp] theorem State.controlDone_freeCount : (s.controlDone).freeCount = s.freeCount := by rfl
@[simp] theorem State.controlDone_mem : (s.controlDone).mem = s.mem := by rfl
@[simp] theorem State.controlDone_resetInput : (s.controlDone).resetInput = s.resetInput := by rfl
@[simp] theorem State.controlDone_path : (s.controlDone).path = s.path := by rfl
@[simp] theorem State.controlDone_store : (s.controlDone).store = s.store := by rfl
@[simp] theorem State.controlDone_coder : (s.controlDone).coder = s.coder := by rfl
@[simp] theorem State.controlDone_scan : (s.controlDone).scan = s.scan := by rfl
@[simp] theorem State.controlDone_print : (s.controlDone).print = s.print := by rfl
@[simp] theorem State.controlDone_streams : (s.controlDone).streams = s.streams := by rfl
@[simp] theorem State.controlDone_dispatch : (s.controlDone).dispatch = s.dispatch := by rfl
@[simp] theorem State.controlDone_lines : (s.controlDone).lines = s.lines := by rfl
@[simp] theorem State.controlDone_charge : (s.controlDone).charge = s.charge := by rfl
@[simp] theorem State.controlDone_ctl :
    (s.controlDone).ctl = { s.ctl with teardown := Teardown.counted s.ctl.teardown } := by rfl

@[simp] theorem State.noteResult_pending (r : CommandResult) : (s.noteResult r).pending = s.pending := by rfl
@[simp] theorem State.noteResult_now (r : CommandResult) : (s.noteResult r).now = s.now := by rfl
@[simp] theorem State.noteResult_freeCount (r : CommandResult) : (s.noteResult r).freeCount = s.freeCount := by rfl
@[simp] theorem State.noteResult_mem (r : CommandResult) : (s.noteResult r).mem = s.mem := by rfl
@[simp] theorem State.noteResult_resetInput (r : CommandResult) : (s.noteResult r).resetInput = s.resetInput := by rfl
@[simp] theorem State.noteResult_path (r : CommandResult) : (s.noteResult r).path = s.path := by rfl
@[simp] theorem State.noteResult_store (r : CommandResult) : (s.noteResult r).store = s.store := by rfl
@[simp] theorem State.noteResult_coder (r : CommandResult) : (s.noteResult r).coder = s.coder := by rfl
@[simp] theorem State.noteResult_scan (r : CommandResult) : (s.noteResult r).scan = s.scan := by rfl
@[simp] theorem State.noteResult_print (r : CommandResult) : (s.noteResult r).print = s.print := by rfl
@[simp] theorem State.noteResult_streams (r : CommandResult) : (s.noteResult r).streams = s.streams := by rfl
@[simp] theorem State.noteResult_dispatch (r : CommandResult) : (s.noteResult r).dispatch = s.dispatch := by rfl
@[simp] theorem State.noteResult_lines (r : CommandResult) : (s.noteResult r).lines = s.lines := by rfl
@[simp] theorem State.noteResult_charge (r : CommandResult) : (s.noteResult r).charge = s.charge := by rfl
@[simp] theorem State.noteResult_ctl (r : CommandResult) :
    (s.noteResult r).ctl = { s.ctl with lastResult := some r } := by rfl

/-! ## Writer slots (R73) -/

/-- Nothing written, no page. -/
@[simp] theorem WriterSlot.page_none {x : WriterSlot} (h : x.writing = none) : x.page = none := by
  simp [WriterSlot.page, h]

/-- While no close waits, the page written is the page in hand. -/
@[simp] theorem WriterSlot.page_not_asked {x : WriterSlot} (h : x.asked = none) : x.page = x.writing := by
  simp [WriterSlot.page, h]

/-- A page that a stream writes is in hand, and no close of it waits. -/
theorem WriterSlot.page_some {x : WriterSlot} {h : PageInHand} (e : x.page = some h) : x.writing = some h ∧ x.asked = none := by
  unfold WriterSlot.page at e
  split at e <;> simp_all

/-- What closing a page can do: nothing without a page, the close, or a close that waits. -/
theorem State.closePage_cases (w : Writer) (flags : CloseFlags) :
    ((s.slot w).page = none ∧ s.closePage w flags = s) ∨
      ∃ h, (s.slot w).page = some h ∧
        (((s.slot w).closing = none ∧ s.closePage w flags = s.beginClosing w h flags) ∨
          ((s.slot w).closing ≠ none ∧ s.closePage w flags = s.setSlot w { s.slot w with asked := some flags })) := by
  unfold State.closePage
  split
  · exact .inl ⟨‹_›, rfl⟩
  · refine .inr ⟨_, ‹_›, ?_⟩
    split
    · exact .inl ⟨‹_›, rfl⟩
    · exact .inr ⟨‹_›, rfl⟩

/-- Without a close that waits, none is taken. -/
theorem State.takeAsked_none (w : Writer) (h : (s.slot w).asked = none) : s.takeAsked w = s := by
  unfold State.takeAsked
  rw [h]
  split
  · contradiction
  · rfl

/-! ## The store writes queued (R14, R20) -/

@[simp] theorem State.dropStoreWrites_pending : s.dropStoreWrites.pending = s.pending := rfl
@[simp] theorem State.dropStoreWrites_now : s.dropStoreWrites.now = s.now := rfl
@[simp] theorem State.dropStoreWrites_freeCount : s.dropStoreWrites.freeCount = s.freeCount := rfl
@[simp] theorem State.dropStoreWrites_mem : s.dropStoreWrites.mem = s.mem := rfl
@[simp] theorem State.dropStoreWrites_resetInput : s.dropStoreWrites.resetInput = s.resetInput := rfl
@[simp] theorem State.dropStoreWrites_ctl : s.dropStoreWrites.ctl = s.ctl := rfl
@[simp] theorem State.dropStoreWrites_store : s.dropStoreWrites.store = s.store := rfl
@[simp] theorem State.dropStoreWrites_coder : s.dropStoreWrites.coder = s.coder := rfl
@[simp] theorem State.dropStoreWrites_scan : s.dropStoreWrites.scan = s.scan := rfl
@[simp] theorem State.dropStoreWrites_print : s.dropStoreWrites.print = s.print := rfl
@[simp] theorem State.dropStoreWrites_streams : s.dropStoreWrites.streams = s.streams := rfl
@[simp] theorem State.dropStoreWrites_dispatch : s.dropStoreWrites.dispatch = s.dispatch := rfl
@[simp] theorem State.dropStoreWrites_lines : s.dropStoreWrites.lines = s.lines := rfl
@[simp] theorem State.dropStoreWrites_charge : s.dropStoreWrites.charge = s.charge := rfl
@[simp] theorem State.dropStoreWrites_path :
    s.dropStoreWrites.path = { s.path with storeWrites := Table.replicate 5 none } := rfl

/-- A store write that is queued for the page carries what it was issued with. -/
theorem State.storeWriteSize_queued {w : Writer} {h : PageInHand} {n : Nat}
    (e : s.path.storeWrites.get w.index = some ⟨h.page, n⟩) : s.storeWriteSize w h = n := by
  simp [State.storeWriteSize, e]

/-- One that is not queued for the page carries as many bytes as it can. -/
theorem State.storeWriteSize_new {w : Writer} {h : PageInHand}
    (e : ∀ q, s.path.storeWrites.get w.index = some q → q.page ≠ h.page) :
    s.storeWriteSize w h = requestRoom (s.nextByte h) h.queued.length := by
  unfold State.storeWriteSize
  split
  · rw [if_neg (e _ ‹_›)]
  · rfl

/-- What the requests issued hold of a writer's store write. -/
theorem State.issueRequests_storeWrite (w : Writer) :
    s.issueRequests.path.storeWrites.get w.index = s.storeWriteOf s.issueRequests.path.requests w := by
  cases w with
  | scan => rfl
  | line n => fin_cases n <;> rfl

end Sys2Proof.Machine
end

