-- ==== Sys2Proof/Laws/Plant.lean ====
section
/-! SUPPORT. Frame laws: what each operation of the blocks leaves of the plant (Safety): page memory, the ring, the engine, the clock and the tables. One law for each
operation that changes none of it, in the order of the model; the operations without a law here are those that do. -/

namespace Sys2Proof.Machine

@[simp] theorem foldl_plant {α : Type} (F : State → α → State) (h : ∀ s a, (F s a).plant = s.plant) (l : List α) (s : State) :
    (l.foldl F s).plant = s.plant := by
  induction l generalizing s with
  | nil => rfl
  | cons a l ih => simp [ih, h]


@[simp] theorem State.reach_plant (due : Nat) (s : State) : (State.reach due s).plant = s.plant := by
  rfl

@[simp] theorem State.bump32_plant (x : BitVec 32) (s : State) : (s.bump32 x).2.plant = s.plant := by
  unfold State.bump32; split <;> rfl

@[simp] theorem State.enqueue_plant (e : QueueEntry) (s : State) : (s.enqueue e).plant = s.plant := by
  unfold State.enqueue; split <;> rfl

@[simp] theorem State.rewrite_plant (r : RecordId) (s : State) : (State.rewrite r s).plant = s.plant := by
  simp [State.rewrite]

@[simp] theorem State.fullRewrite_plant (s : State) : (State.fullRewrite s).plant = s.plant := by
  rfl

@[simp] theorem State.rewriteIf_plant (changed : Prop) [Decidable changed] (r : RecordId) (s : State) : (State.rewriteIf changed r s).plant = s.plant := by
  unfold State.rewriteIf; split <;> simp

@[simp] theorem State.setPage_plant (p : Fin 512) (r : PageRecord) (s : State) : (State.setPage p r s).plant = s.plant := by
  unfold State.setPage; simp; rfl

@[simp] theorem State.setSlot_plant (w : Writer) (x : WriterSlot) (s : State) : (State.setSlot w x s).plant = s.plant := by
  rfl

@[simp] theorem State.setFreeList_plant (l : List Nat) (s : State) : (State.setFreeList l s).plant = s.plant := by
  unfold State.setFreeList; simp; rfl

@[simp] theorem State.setDoc_plant (d : Fin 64) (r : DocRecord) (s : State) : (State.setDoc d r s).plant = s.plant := by
  unfold State.setDoc; simp; rfl

@[simp] theorem State.setPageList_plant (d : Fin 64) (l : List (Fin 512)) (s : State) : (State.setPageList d l s).plant = s.plant := by
  unfold State.setPageList; simp; rfl

@[simp] theorem State.setDest_plant (d : Fin 512) (r : DestRecord) (s : State) : (State.setDest d r s).plant = s.plant := by
  unfold State.setDest; simp; rfl

@[simp] theorem State.setRetryTimer_plant (d : Fin 512) (t : Option Nat) (s : State) : (State.setRetryTimer d t s).plant = s.plant := by
  rfl

@[simp] theorem State.setPrintQueue_plant (q : List (Fin 64)) (s : State) : (State.setPrintQueue q s).plant = s.plant := by
  rfl

@[simp] theorem State.askArbiter_plant (s : State) : (State.askArbiter s).plant = s.plant := by
  rfl

@[simp] theorem State.setLine_plant (n : Fin 4) (u : LineUnit) (s : State) : (State.setLine n u s).plant = s.plant := by
  unfold State.setLine; simp; rfl

@[simp] theorem State.modLine_plant (n : Fin 4) (f : LineUnit → LineUnit) (s : State) : (State.modLine n f s).plant = s.plant := by
  simp [State.modLine]

@[simp] theorem State.setAccount_plant (a : Fin 32) (x : Account) (s : State) : (State.setAccount a x s).plant = s.plant := by
  unfold State.setAccount; simp; rfl

@[simp] theorem State.rewriteContextAccount_plant (c : Option CallContext) (s : State) : (State.rewriteContextAccount c s).plant = s.plant := by
  unfold State.rewriteContextAccount; split <;> simp

@[simp] theorem State.setContext_plant (n : Fin 4) (c : Option CallContext) (s : State) : (State.setContext n c s).plant = s.plant := by
  unfold State.setContext; dsimp only; (repeat' split) <;> first | (simp; done) | rfl | (simp; rfl)

@[simp] theorem State.modContext_plant (n : Fin 4) (f : CallContext → CallContext) (s : State) : (State.modContext n f s).plant = s.plant := by
  unfold State.modContext; split <;> simp

@[simp] theorem State.setScan_plant (x : ScanStream) (s : State) : (State.setScan x s).plant = s.plant := by
  unfold State.setScan; simp; rfl

@[simp] theorem State.setPrint_plant (x : PrintStream) (s : State) : (State.setPrint x s).plant = s.plant := by
  unfold State.setPrint; simp; rfl

@[simp] theorem State.setStream_plant (n : Fin 4) (x : LineStream) (s : State) : (State.setStream n x s).plant = s.plant := by
  unfold State.setStream; simp; rfl

@[simp] theorem State.modStream_plant (n : Fin 4) (f : LineStream → LineStream) (s : State) : (State.modStream n f s).plant = s.plant := by
  simp [State.modStream]

@[simp] theorem State.setWindow_plant (w : Fin 6) (x : WindowShadow) (s : State) : (State.setWindow w x s).plant = s.plant := by
  unfold State.setWindow; simp; rfl

@[simp] theorem State.raise_plant (f : Notice) (s : State) : (State.raise f s).plant = s.plant := by
  unfold State.raise; dsimp only; (repeat' split) <;> first | (simp; done) | rfl | (simp; rfl)

@[simp] theorem State.clearNotices_plant (bits : BitVec 12) (s : State) : (State.clearNotices bits s).plant = s.plant := by
  unfold State.clearNotices; dsimp only; (repeat' split) <;> first | (simp; done) | rfl | (simp; rfl)

@[simp] theorem State.setCtx_plant (i : StreamId) (c : LineContext) (s : State) : (State.setCtx i c s).plant = s.plant := by
  rfl

@[simp] theorem State.discardJob_plant (i : StreamId) (s : State) : (State.discardJob i s).plant = s.plant := by
  unfold State.discardJob; dsimp only; (repeat' split) <;> first | (simp; done) | rfl

@[simp] theorem State.openCtx_plant (i : StreamId) (w : Width) (k : Nat) (s : State) : (State.openCtx i w k s).plant = s.plant := by
  simp [State.openCtx]

@[simp] theorem State.idleCtx_plant (i : StreamId) (s : State) : (State.idleCtx i s).plant = s.plant := by
  simp [State.idleCtx]

@[simp] theorem State.queueJob_plant (i : StreamId) (kind : JobKind) (s : State) : (State.queueJob i kind s).plant = s.plant := by
  unfold State.queueJob; split <;> simp

@[simp] theorem State.takeJob_plant (i : StreamId) (kind : JobKind) (s : State) : (State.takeJob i kind s).plant = s.plant := by
  rfl

@[simp] theorem State.arbitrateCoder_plant (s : State) : (State.arbitrateCoder s).plant = s.plant := by
  unfold State.arbitrateCoder; dsimp only; (repeat' split) <;> first | (simp; done) | rfl

@[simp] theorem State.freeEngine_plant (s : State) : s.freeEngine.plant = s.plant := rfl

@[simp] theorem State.jobDone_plant (i : StreamId) (reference : List Bool) (repeatRun : Nat) (s : State) : (State.jobDone i reference repeatRun s).plant = s.plant := by
  simp [State.jobDone]

theorem State.takeBlock_plant {w : Writer} {s t : State} {b : Nat} (h : s.takeBlock w = some (b, t)) : t.plant = s.plant := by
  unfold State.takeBlock at h
  split at h
  · split at h
    · contradiction
    · simp only [Option.some.injEq, Prod.mk.injEq] at h
      obtain ⟨_, rfl⟩ := h
      split <;> simp
  · contradiction

@[simp] theorem State.giveBack_plant (chain : List Nat) (s : State) : (State.giveBack chain s).plant = s.plant := by
  simp [State.giveBack]

theorem State.openPage_plant {w : Writer} {d : Fin 64} {width : Width} {k : Nat} {s t : State}
    (h : s.openPage w d width k = .ok t) : t.plant = s.plant := by
  unfold State.openPage at h
  repeat' split at h
  all_goals first | contradiction | (cases h; simp; exact State.takeBlock_plant ‹_›)

@[simp] theorem State.placementRefused_plant (w : Writer) (p : Fin 512) (s : State) : (State.placementRefused w p s).plant = s.plant := by
  unfold State.placementRefused; split <;> simp

@[simp] theorem State.placeLine_plant (w : Writer) (bytes : List Byte) (concealed : Bool) (s : State) :
    (s.placeLine w bytes concealed).1.plant = s.plant := by
  unfold State.placeLine
  split
  · rfl
  · dsimp only
    split
    · rfl
    · split
      · simp
      · split
        · simp
        · split
          · simp
          · simp; exact State.takeBlock_plant ‹_›

@[simp] theorem State.beginClosing_plant (w : Writer) (h : PageInHand) (flags : CloseFlags) (s : State) :
    (State.beginClosing w h flags s).plant = s.plant := by
  simp [State.beginClosing]

@[simp] theorem State.closePage_plant (w : Writer) (flags : CloseFlags) (s : State) : (State.closePage w flags s).plant = s.plant := by
  unfold State.closePage; (repeat' split) <;> simp

@[simp] theorem State.takeAsked_plant (w : Writer) (s : State) : (State.takeAsked w s).plant = s.plant := by
  unfold State.takeAsked; split <;> simp

@[simp] theorem State.dropFromList_plant (p : Fin 512) (d : Fin 64) (s : State) : (State.dropFromList p d s).plant = s.plant := by
  simp [State.dropFromList]

@[simp] theorem State.freePage_plant (w : Writer) (s : State) : (State.freePage w s).plant = s.plant := by
  unfold State.freePage; split <;> simp

@[simp] theorem State.releasePage_plant (s : State) (p : Fin 512) : (State.releasePage s p).plant = s.plant := by
  simp [State.releasePage]

@[simp] theorem State.releasePages_plant (d : Fin 64) (s : State) : (State.releasePages d s).plant = s.plant := by
  simp [State.releasePages]

@[simp] theorem State.markClosed_plant (w : Writer) (p : Fin 512) (check : BitVec 16) (s : State) : (State.markClosed w p check s).plant = s.plant := by
  simp [State.markClosed]

@[simp] theorem State.markDamaged_plant (p : Fin 512) (s : State) : (State.markDamaged p s).plant = s.plant := by
  unfold State.markDamaged; split <;> simp

@[simp] theorem State.activate_plant (w : Fin 6) (e : PendingWindow) (s : State) : (State.activate w e s).plant = s.plant := by
  simp [State.activate]

@[simp] theorem State.activatePending_plant (w : Fin 6) (s : State) : (State.activatePending w s).plant = s.plant := by
  unfold State.activatePending; split <;> simp

@[simp] theorem State.takeWindow_plant (w : Fin 6) (s : State) : (State.takeWindow w s).plant = s.plant := by
  unfold State.takeWindow; split <;> simp

@[simp] theorem State.recheckWindow_plant (s : State) (w : Fin 6) : (State.recheckWindow s w).plant = s.plant := by
  unfold State.recheckWindow; split <;> simp

@[simp] theorem State.clearWindow_plant (s : State) (w : Fin 6) : (State.clearWindow s w).plant = s.plant := by
  simp [State.clearWindow]

@[simp] theorem State.countDropped_plant (w : Fin 6) (s : State) : (State.countDropped w s).plant = s.plant := by
  unfold State.countDropped; split <;> simp

@[simp] theorem State.countExpiry_plant (w : Fin 6) (s : State) : (State.countExpiry w s).plant = s.plant := by
  unfold State.countExpiry; split <;> simp

@[simp] theorem State.answerHost_plant (a : HostAnswer) (s : State) : (State.answerHost a s).plant = s.plant := by
  rfl

@[simp] theorem State.voidAccess_plant (w : Fin 6) (a : HostAccess) (s : State) : (State.voidAccess w a s).plant = s.plant := by
  unfold State.voidAccess; split <;> simp

@[simp] theorem State.closeHeld_plant (w : Fin 6) (s : State) : (State.closeHeld w s).plant = s.plant := by
  unfold State.closeHeld; (repeat' split) <;> simp

@[simp] theorem State.dropRead_plant (q : Requester) (s : State) : (s.dropRead q).plant = s.plant := by
  unfold State.dropRead
  split
  · split
    · simp [State.plant, *]
    · rfl
  · rfl

@[simp] theorem State.startServing_plant (n : Fin 4) (p : Fin 512) (s : State) : (State.startServing n p s).plant = s.plant := by
  unfold State.startServing; dsimp only; split <;> simp

@[simp] theorem State.waitPage_plant (n : Fin 4) (s : State) : (State.waitPage n s).plant = s.plant := by
  unfold State.waitPage; split <;> simp

@[simp] theorem State.sendDocEnd_plant (n : Fin 4) (s : State) : (State.sendDocEnd n s).plant = s.plant := by
  simp [State.sendDocEnd]

@[simp] theorem State.seekPage_plant (n : Fin 4) (s : State) : (State.seekPage n s).plant = s.plant := by
  unfold State.seekPage; dsimp only; (repeat' split) <;> simp

@[simp] theorem State.tellSender_plant (d : Fin 64) (s : State) (n : Fin 4) : (State.tellSender d s n).plant = s.plant := by
  unfold State.tellSender; dsimp only; split <;> simp

@[simp] theorem State.tellSenders_plant (d : Fin 64) (s : State) : (State.tellSenders d s).plant = s.plant := by
  simp [State.tellSenders]

@[simp] theorem State.pageServed_plant (n : Fin 4) (s : State) : (State.pageServed n s).plant = s.plant := by
  unfold State.pageServed; dsimp only; split <;> simp

@[simp] theorem State.serveSendByte_plant (n : Fin 4) (s : State) : (s.serveSendByte n).2.plant = s.plant := by
  unfold State.serveSendByte; dsimp only; (repeat' split) <;> simp

@[simp] theorem State.serveSend_plant (n : Fin 4) (k : Nat) (s : State) : (State.serveSend n k s).2.plant = s.plant := by
  induction k generalizing s with
  | zero => rfl
  | succ k ih => simp [State.serveSend, ih]

@[simp] theorem State.sendService_plant (s : State) (n : Fin 4) : (State.sendService s n).plant = s.plant := by
  unfold State.sendService; dsimp only; split <;> simp

@[simp] theorem State.expandDone_plant (n : Fin 4) (s : State) : (State.expandDone n s).plant = s.plant := by
  unfold State.expandDone; dsimp only; split <;> simp

@[simp] theorem State.checkMismatch_plant (n : Fin 4) (s : State) : (State.checkMismatch n s).plant = s.plant := by
  simp [State.checkMismatch]

@[simp] theorem State.sendReadDone_plant (n : Fin 4) (bytes : List Byte) (s : State) : (State.sendReadDone n bytes s).plant = s.plant := by
  unfold State.sendReadDone; dsimp only; (repeat' split) <;> simp

@[simp] theorem State.drain_plant (n : Fin 4) (s : State) : (State.drain n s).plant = s.plant := by
  unfold State.drain; dsimp only; split <;> simp

@[simp] theorem State.printPageEnd_plant (s : State) : (State.printPageEnd s).plant = s.plant := by
  simp [State.printPageEnd]

@[simp] theorem State.printBegin_plant (p : Fin 512) (s : State) : (State.printBegin p s).plant = s.plant := by
  unfold State.printBegin; dsimp only; split <;> simp

@[simp] theorem State.printStartPage_plant (s : State) : (State.printStartPage s).plant = s.plant := by
  unfold State.printStartPage; dsimp only; (repeat' split) <;> simp

@[simp] theorem State.tellPrinter_plant (p : Fin 512) (s : State) : (State.tellPrinter p s).plant = s.plant := by
  unfold State.tellPrinter; split <;> simp

@[simp] theorem State.printDiscard_plant (s : State) : (State.printDiscard s).plant = s.plant := by
  simp [State.printDiscard]

@[simp] theorem State.printEnd_plant (s : State) : (State.printEnd s).plant = s.plant := by
  simp [State.printEnd]

@[simp] theorem State.printDocEnd_plant (s : State) : (State.printDocEnd s).plant = s.plant := by
  simp [State.printDocEnd]

@[simp] theorem State.printService_plant (s : State) : (State.printService s).plant = s.plant := by
  unfold State.printService; dsimp only; (repeat' split) <;> simp

@[simp] theorem State.decodeDone_plant (s : State) : (State.decodeDone s).plant = s.plant := by
  simp [State.decodeDone]

theorem State.servePrintByte_plant {s t : State} {b : Byte} (h : s.servePrintByte = some (b, t)) : t.plant = s.plant := by
  unfold State.servePrintByte at h
  dsimp only at h
  repeat' split at h
  all_goals simp only [Option.some.injEq, Prod.mk.injEq, reduceCtorEq] at h
  all_goals obtain ⟨_, rfl⟩ := h
  all_goals first | rfl | simp

theorem State.servePrint_plant {k : Nat} {s t : State} {l : List Byte} (h : State.servePrint k s = some (l, t)) :
    t.plant = s.plant := by
  induction k generalizing s l with
  | zero =>
    simp only [State.servePrint, Option.some.injEq, Prod.mk.injEq] at h
    obtain ⟨_, rfl⟩ := h
    rfl
  | succ k ih =>
    unfold State.servePrint at h
    split at h
    · contradiction
    · rename_i b u hb
      cases hr : State.servePrint k u with
      | none => simp [hr] at h
      | some r =>
        obtain ⟨l', t'⟩ := r
        simp only [hr, Option.map_some, Option.some.injEq, Prod.mk.injEq] at h
        obtain ⟨_, rfl⟩ := h
        rw [ih hr, State.servePrintByte_plant hb]

@[simp] theorem State.checkComplete_plant (d : Fin 64) (s : State) : (State.checkComplete d s).plant = s.plant := by
  unfold State.checkComplete; split <;> simp

@[simp] theorem State.joinPrintQueue_plant (d : Fin 64) (s : State) : (State.joinPrintQueue d s).plant = s.plant := by
  unfold State.joinPrintQueue; split <;> simp

@[simp] theorem State.leavePrintQueue_plant (d : Fin 64) (s : State) : (State.leavePrintQueue d s).plant = s.plant := by
  simp [State.leavePrintQueue]

@[simp] theorem State.printDue_plant (d : Fin 64) (s : State) : (State.printDue d s).plant = s.plant := by
  unfold State.printDue; (repeat' split) <;> simp

@[simp] theorem State.endBuilding_plant (d : Fin 64) (s : State) : (State.endBuilding d s).plant = s.plant := by
  unfold State.endBuilding; split <;> simp

@[simp] theorem State.pageClosedNews_plant (p : Fin 512) (s : State) : (State.pageClosedNews p s).plant = s.plant := by
  simp [State.pageClosedNews]

@[simp] theorem State.startRetry_plant (t : Fin 512) (r : DestRecord) (seconds : Nat) (s : State) : (State.startRetry t r seconds s).plant = s.plant := by
  simp [State.startRetry]

@[simp] theorem State.becomePending_plant (t : Fin 512) (r : DestRecord) (s : State) : (State.becomePending t r s).plant = s.plant := by
  simp [State.becomePending]

@[simp] theorem State.becomeFinal_plant (t : Fin 512) (r : DestRecord) (final : DestState) (s : State) : (State.becomeFinal t r final s).plant = s.plant := by
  simp [State.becomeFinal]

@[simp] theorem State.createDoc_plant (d : Fin 64) (r : DocRecord) (s : State) : (State.createDoc d r s).plant = s.plant := by
  simp [State.createDoc]

@[simp] theorem State.settle_plant (t : Fin 512) (given : Cause) (s : State) : (State.settle t given s).plant = s.plant := by
  unfold State.settle; dsimp only; (repeat' split) <;> simp

@[simp] theorem State.scanClosed_plant (s : State) : (State.scanClosed s).plant = s.plant := by
  simp [State.scanClosed]

@[simp] theorem State.scanFinish_plant (s : State) : (State.scanFinish s).plant = s.plant := by
  unfold State.scanFinish; dsimp only; (repeat' split) <;> simp

@[simp] theorem State.scanDiscard_plant (extra : Nat) (s : State) : (State.scanDiscard extra s).plant = s.plant := by
  simp [State.scanDiscard]

@[simp] theorem State.scanStarved_plant (cause : RoomCause) (s : State) : (State.scanStarved cause s).plant = s.plant := by
  unfold State.scanStarved; split <;> simp

@[simp] theorem State.scanEndShort_plant (s : State) : (State.scanEndShort s).plant = s.plant := by
  unfold State.scanEndShort; (repeat' split) <;> simp

@[simp] theorem State.scanStarve_plant (s : State) : (State.scanStarve s).plant = s.plant := by
  simp [State.scanStarve]

@[simp] theorem State.scanOpenRefused_plant (cause : RoomCause) (s : State) : (State.scanOpenRefused cause s).plant = s.plant := by
  simp [State.scanOpenRefused]

theorem State.scanWrite_plant {x : HostWrite} {s t : State} (h : s.scanWrite x = .done t) : t.plant = s.plant := by
  unfold State.scanWrite at h
  dsimp only at h
  repeat' split at h
  all_goals simp only [Attempt.done.injEq, reduceCtorEq] at h
  all_goals subst h
  all_goals first | (simp; done) | (simp; exact State.openPage_plant ‹_›)

@[simp] theorem State.scanService_plant (s : State) : (State.scanService s).plant = s.plant := by
  unfold State.scanService; split <;> simp

@[simp] theorem State.scanCutDone_plant (s : State) : (State.scanCutDone s).plant = s.plant := by
  simp [State.scanCutDone]

@[simp] theorem State.scanNextPage_plant (s : State) : (State.scanNextPage s).plant = s.plant := by
  unfold State.scanNextPage; (repeat' split) <;> first | simp | exact State.openPage_plant ‹_›

@[simp] theorem State.scanPlaced_plant (marked : Bool) (s : State) : (State.scanPlaced marked s).plant = s.plant := by
  unfold State.scanPlaced; (repeat' split) <;> simp

@[simp] theorem State.encodeDone_plant (s : State) : s.encodeDone.plant = s.plant := by
  unfold State.encodeDone
  dsimp only
  split <;> rename_i h <;> have h' := congrArg (fun x => x.1.plant) h <;> simp at h' <;> simp [← h']

@[simp] theorem State.beginCut_plant (s : State) : (State.beginCut s).plant = s.plant := by
  unfold State.beginCut; dsimp only; split <;> simp

@[simp] theorem State.beginClose_plant (s : State) : (State.beginClose s).plant = s.plant := by
  simp [State.beginClose]

@[simp] theorem State.receivePageEnd_plant (n : Fin 4) (s : State) : (State.receivePageEnd n s).plant = s.plant := by
  unfold State.receivePageEnd; split <;> simp

@[simp] theorem State.frameByte_plant (n : Fin 4) (b : Byte) (s : State) : (State.frameByte n b s).plant = s.plant := by
  unfold State.frameByte; dsimp only; (repeat' split) <;> simp

@[simp] theorem State.collectByte_plant (n : Fin 4) (s : State) (b : Byte) : (State.collectByte n s b).plant = s.plant := by
  unfold State.collectByte; split <;> simp

@[simp] theorem State.frameCarried_plant (n : Fin 4) (s : State) : (State.frameCarried n s).plant = s.plant := by
  simp [State.frameCarried]

@[simp] theorem State.closeReceivePage_plant (n : Fin 4) (s : State) : (State.closeReceivePage n s).plant = s.plant := by
  unfold State.closeReceivePage; dsimp only; split <;> simp

@[simp] theorem State.receiveStall_plant (n : Fin 4) (cause : RoomCause) (s : State) : (State.receiveStall n cause s).plant = s.plant := by
  simp [State.receiveStall]

@[simp] theorem State.handLine_plant (n : Fin 4) (l : CollectedLine) (s : State) : (State.handLine n l s).plant = s.plant := by
  simp [State.handLine]

@[simp] theorem State.moveLine_plant (n : Fin 4) (s : State) : (State.moveLine n s).plant = s.plant := by
  unfold State.moveLine; dsimp only; (repeat' split) <;> first | (simp; done) | exact State.openPage_plant ‹_› | (simp; exact State.openPage_plant ‹_›)

@[simp] theorem State.receiveService_plant (s : State) (n : Fin 4) : (State.receiveService s n).plant = s.plant := by
  unfold State.receiveService; split <;> simp

@[simp] theorem State.receiveByte_plant (n : Fin 4) (s : State) (b : Byte) : (State.receiveByte n s b).plant = s.plant := by
  unfold State.receiveByte; split <;> simp

theorem State.receiveWrite_plant {n : Fin 4} {x : HostWrite} {s t : State} (h : s.receiveWrite n x = .done t) : t.plant = s.plant := by
  unfold State.receiveWrite at h
  (repeat' split at h) <;> first | contradiction | (cases h; simp)

@[simp] theorem State.loseLine_plant (n : Fin 4) (s : State) : (State.loseLine n s).plant = s.plant := by
  simp [State.loseLine]

@[simp] theorem State.placeChecked_plant (n : Fin 4) (s : State) : (s.placeChecked n).plant = s.plant := by
  unfold State.placeChecked
  split
  · simp
  · dsimp only
    split <;> rename_i h <;> have h' := congrArg (fun x => x.1.plant) h <;> simp at h' <;> simp [← h']

@[simp] theorem State.endReceivePage_plant (n : Fin 4) (s : State) : (State.endReceivePage n s).plant = s.plant := by
  unfold State.endReceivePage; (repeat' split) <;> simp

@[simp] theorem State.endTraffic_plant (n : Fin 4) (s : State) : (State.endTraffic n s).plant = s.plant := by
  simp [State.endTraffic]

@[simp] theorem State.enterClosed_plant (n : Fin 4) (s : State) : (State.enterClosed n s).plant = s.plant := by
  simp [State.enterClosed]

@[simp] theorem State.closeStream_plant (n : Fin 4) (s : State) : (State.closeStream n s).plant = s.plant := by
  unfold State.closeStream; (repeat' split) <;> simp

@[simp] theorem State.judgeNotBefore_plant (old : Option ClockValue) (s : State) : (State.judgeNotBefore old s).plant = s.plant := by
  unfold State.judgeNotBefore; split <;> simp

@[simp] theorem State.takeReservation_plant (s : State) : (State.takeReservation s).plant = s.plant := by
  unfold State.takeReservation; dsimp only; (repeat' split) <;> first | (simp; done) | rfl | (simp; rfl)

@[simp] theorem State.police_plant (a : Fin 32) (s : State) (n : Fin 4) : (State.police a s n).plant = s.plant := by
  unfold State.police; (repeat' split) <;> simp

@[simp] theorem State.judgeBudget_plant (a : Fin 32) (s : State) : (State.judgeBudget a s).plant = s.plant := by
  unfold State.judgeBudget; dsimp only; (repeat' split) <;> simp

@[simp] theorem State.chargeUnit_plant (n : Fin 4) (s : State) : (State.chargeUnit n s).plant = s.plant := by
  unfold State.chargeUnit; split <;> simp

@[simp] theorem State.openOutgoing_plant (n : Fin 4) (t : Fin 512) (band : Fin 8) (cls : Nat) (s : State) : (State.openOutgoing n t band cls s).plant = s.plant := by
  simp [State.openOutgoing]

@[simp] theorem State.openIncoming_plant (n : Fin 4) (s : State) : (State.openIncoming n s).plant = s.plant := by
  simp [State.openIncoming]

@[simp] theorem State.startCharging_plant (n : Fin 4) (s : State) : (State.startCharging n s).plant = s.plant := by
  simp [State.startCharging]

@[simp] theorem State.answerContext_plant (n : Fin 4) (byPulse : Bool) (s : State) : (State.answerContext n byPulse s).plant = s.plant := by
  unfold State.answerContext; (repeat' split) <;> simp

@[simp] theorem State.countPulse_plant (n : Fin 4) (qualified : Bool) (s : State) : (State.countPulse n qualified s).plant = s.plant := by
  unfold State.countPulse; (repeat' split) <;> simp

@[simp] theorem State.unitExpired_plant (n : Fin 4) (s : State) : (State.unitExpired n s).plant = s.plant := by
  unfold State.unitExpired; (repeat' split) <;> simp

@[simp] theorem State.secondsConnected_plant (c : CallContext) (s : State) : (s.secondsConnected c).2.plant = s.plant := by
  unfold State.secondsConnected
  split
  · rfl
  · dsimp only
    split <;> rfl

@[simp] theorem State.allot_plant (r : ChargeRecord) (s : State) : (State.allot r s).plant = s.plant := by
  unfold State.allot; dsimp only; (repeat' split) <;> first | (simp; done) | rfl | (simp; rfl)

@[simp] theorem State.endContext_plant (n : Fin 4) (cause : Cause) (s : State) : (State.endContext n cause s).plant = s.plant := by
  unfold State.endContext; (repeat' split) <;> simp

@[simp] theorem State.modRecord_plant (n : Fin 4) (f : LineRecord → LineRecord) (s : State) : (State.modRecord n f s).plant = s.plant := by
  simp [State.modRecord]

@[simp] theorem State.applyIdle_plant (n : Fin 4) (s : State) : (State.applyIdle n s).plant = s.plant := by
  unfold State.applyIdle; dsimp only; split <;> simp

@[simp] theorem State.applyDisabled_plant (n : Fin 4) (s : State) : (State.applyDisabled n s).plant = s.plant := by
  unfold State.applyDisabled; dsimp only; split <;> simp

@[simp] theorem State.endReceiving_plant (n : Fin 4) (s : State) : (State.endReceiving n s).plant = s.plant := by
  unfold State.endReceiving; split <;> simp

@[simp] theorem State.clearOrder_plant (n : Fin 4) (cause : Cause) (s : State) : (State.clearOrder n cause s).plant = s.plant := by
  simp [State.clearOrder]

@[simp] theorem State.orderClear_plant (n : Fin 4) (cause : Cause) (s : State) : (State.orderClear n cause s).plant = s.plant := by
  unfold State.orderClear; split <;> simp

@[simp] theorem State.answer_plant (n : Fin 4) (s : State) : (State.answer n s).plant = s.plant := by
  simp [State.answer]

@[simp] theorem State.answerTry_plant (n : Fin 4) (s : State) : (State.answerTry n s).plant = s.plant := by
  unfold State.answerTry; (repeat' split) <;> simp

@[simp] theorem State.burstInRinging_plant (n : Fin 4) (s : State) : (State.burstInRinging n s).plant = s.plant := by
  unfold State.burstInRinging; dsimp only; split <;> simp

@[simp] theorem State.enterRinging_plant (n : Fin 4) (s : State) : (State.enterRinging n s).plant = s.plant := by
  simp [State.enterRinging]

@[simp] theorem State.glare_plant (n : Fin 4) (s : State) : (State.glare n s).plant = s.plant := by
  unfold State.glare; dsimp only; split <;> simp

@[simp] theorem State.burst_plant (n : Fin 4) (s : State) : (State.burst n s).plant = s.plant := by
  unfold State.burst; dsimp only; (repeat' split) <;> simp

@[simp] theorem State.burstCounted_plant (n : Fin 4) (s : State) : (State.burstCounted n s).plant = s.plant := by
  unfold State.burstCounted; (repeat' split) <;> simp

@[simp] theorem State.ringCycleEnded_plant (n : Fin 4) (s : State) : (State.ringCycleEnded n s).plant = s.plant := by
  unfold State.ringCycleEnded; dsimp only; (repeat' split) <;> simp

@[simp] theorem State.ringActive_plant (n : Fin 4) (s : State) : (State.ringActive n s).plant = s.plant := by
  unfold State.ringActive; dsimp only; split <;> simp

@[simp] theorem State.ringInactive_plant (n : Fin 4) (s : State) : (State.ringInactive n s).plant = s.plant := by
  simp [State.ringInactive]

@[simp] theorem State.callAnswered_plant (n : Fin 4) (source : AnswerSource) (s : State) : (State.callAnswered n source s).plant = s.plant := by
  simp [State.callAnswered]

@[simp] theorem State.reversed_plant (n : Fin 4) (s : State) : (State.reversed n s).plant = s.plant := by
  unfold State.reversed; split <;> simp

@[simp] theorem State.meterActive_plant (n : Fin 4) (s : State) : (State.meterActive n s).plant = s.plant := by
  unfold State.meterActive; dsimp only; split <;> simp

@[simp] theorem State.pulseEnded_plant (n : Fin 4) (width : Nat) (s : State) : (State.pulseEnded n width s).plant = s.plant := by
  unfold State.pulseEnded; dsimp only; (repeat' split) <;> simp

@[simp] theorem State.loopPresent_plant (n : Fin 4) (s : State) : (State.loopPresent n s).plant = s.plant := by
  unfold State.loopPresent; dsimp only; split <;> simp

@[simp] theorem State.loopAbsent_plant (n : Fin 4) (s : State) : (State.loopAbsent n s).plant = s.plant := by
  unfold State.loopAbsent; dsimp only; split <;> simp

@[simp] theorem State.loopLost_plant (n : Fin 4) (s : State) : (State.loopLost n s).plant = s.plant := by
  unfold State.loopLost; split <;> simp

@[simp] theorem State.loopChecked_plant (n : Fin 4) (s : State) : (State.loopChecked n s).plant = s.plant := by
  unfold State.loopChecked; (repeat' split) <;> simp

@[simp] theorem State.seizeDelayEnded_plant (n : Fin 4) (s : State) : (State.seizeDelayEnded n s).plant = s.plant := by
  unfold State.seizeDelayEnded; (repeat' split) <;> simp

@[simp] theorem State.phaseEnded_plant (n : Fin 4) (s : State) : (State.phaseEnded n s).plant = s.plant := by
  unfold State.phaseEnded; dsimp only; (repeat' split) <;> simp

@[simp] theorem State.elementEnded_plant (n : Fin 4) (s : State) : (State.elementEnded n s).plant = s.plant := by
  unfold State.elementEnded; dsimp only; (repeat' split) <;> simp

@[simp] theorem State.notAnswered_plant (n : Fin 4) (s : State) : (State.notAnswered n s).plant = s.plant := by
  unfold State.notAnswered; split <;> simp

@[simp] theorem State.loopFault_plant (n : Fin 4) (s : State) : (State.loopFault n s).plant = s.plant := by
  simp [State.loopFault]

@[simp] theorem State.guardToIdle_plant (n : Fin 4) (s : State) : (State.guardToIdle n s).plant = s.plant := by
  unfold State.guardToIdle; dsimp only; split <;> simp

@[simp] theorem State.guardEnded_plant (n : Fin 4) (s : State) : (State.guardEnded n s).plant = s.plant := by
  unfold State.guardEnded; (repeat' split) <;> simp

@[simp] theorem State.graceEnded_plant (n : Fin 4) (s : State) : (State.graceEnded n s).plant = s.plant := by
  unfold State.graceEnded; (repeat' split) <;> simp

@[simp] theorem State.seize_plant (n : Fin 4) (t : Fin 512) (s : State) : (State.seize n t s).plant = s.plant := by
  simp [State.seize]

@[simp] theorem State.resetLine_plant (s : State) (n : Fin 4) : (State.resetLine s n).plant = s.plant := by
  unfold State.resetLine; split <;> simp

@[simp] theorem State.dialDest_plant (n : Fin 4) (t : Fin 512) (cls : Nat) (band : Fin 8) (s : State) : (State.dialDest n t cls band s).plant = s.plant := by
  simp [State.dialDest]

@[simp] theorem State.chooseFor_plant (n : Fin 4) (fuel : Nat) (s : State) : (State.chooseFor n fuel s).plant = s.plant := by
  induction fuel generalizing s with
  | zero => rfl
  | succ k ih => unfold State.chooseFor; dsimp only; (repeat' split) <;> simp [ih]

@[simp] theorem State.serveLine_plant (s : State) (n : Fin 4) : (State.serveLine s n).plant = s.plant := by
  unfold State.serveLine; split <;> simp

@[simp] theorem State.setBlockReason_plant (s : State) (t : Fin 512) : (State.setBlockReason s t).plant = s.plant := by
  unfold State.setBlockReason; dsimp only; (repeat' split) <;> simp

@[simp] theorem State.runArbiter_plant (s : State) : (State.runArbiter s).plant = s.plant := by
  simp [State.runArbiter]

@[simp] theorem State.runDueArbiter_plant (s : State) : (State.runDueArbiter s).plant = s.plant := by
  unfold State.runDueArbiter; dsimp only; (repeat' split) <;> first | (simp; done) | rfl | (simp; rfl)

@[simp] theorem State.guarded_plant (s : State) : (State.guarded s).plant = s.plant := by
  simp [State.guarded]

@[simp] theorem State.dropControl_plant (s : State) : (State.dropControl s).plant = s.plant := by
  unfold State.dropControl; dsimp only; (repeat' split) <;> first | (simp; done) | rfl | (simp; rfl)

@[simp] theorem State.dropStore_plant (s : State) : (State.dropStore s).plant = s.plant := by
  unfold State.dropStore; dsimp only; (repeat' split) <;> first | (simp; done) | rfl | (simp; rfl)

@[simp] theorem State.dropLog_plant (s : State) : (State.dropLog s).plant = s.plant := by
  unfold State.dropLog; dsimp only; (repeat' split) <;> first | (simp; done) | rfl | (simp; rfl)

@[simp] theorem State.snoopMask_plant (l : List (Nat × Byte)) (s : State) : (State.snoopMask l s).plant = s.plant := by
  unfold State.snoopMask; split <;> simp

@[simp] theorem State.snoopEntry_plant (l : List (Nat × Byte)) (s : State) (w : Fin 6) : (State.snoopEntry l s w).plant = s.plant := by
  unfold State.snoopEntry; dsimp only; split <;> simp

@[simp] theorem State.snoopTail_plant (s : State) : (State.snoopTail s).plant = s.plant := by
  unfold State.snoopTail; split <;> simp

@[simp] theorem State.hold_plant (acc : HostAccess) (w : Option (Fin 6)) (why : HoldReason) (s : State) : (State.hold acc w why s).plant = s.plant := by
  rfl

theorem State.orHold_plant {acc : HostAccess} {w : Fin 6} {why : HoldReason} {s : State} {a : Attempt}
    (h : ∀ t, a = .done t → t.plant = s.plant) : (s.orHold acc w why a).plant = s.plant := by
  cases a with
  | done t => exact h t rfl
  | hold => rfl

@[simp] theorem State.voidRead_plant (r : HostRead) (s : State) : (State.voidRead r s).plant = s.plant := by
  simp [State.voidRead]

theorem State.printRead_plant {r : HostRead} {s t : State} (h : s.printRead r = .done t) : t.plant = s.plant := by
  unfold State.printRead at h
  split at h
  · cases h; simp; exact State.servePrint_plant ‹_›
  · contradiction

@[simp] theorem State.openWindowAccess_plant (w : Fin 6) (acc : HostAccess) (s : State) :
    (s.openWindowAccess w acc).plant = s.plant := by
  unfold State.openWindowAccess
  split
  · simp
  · exact State.orHold_plant fun t h => State.scanWrite_plant h
  · exact State.orHold_plant fun t h => State.printRead_plant h
  · simp
  · split <;> simp
  · split
    · exact State.orHold_plant fun t h => State.receiveWrite_plant h
    · simp

@[simp] theorem State.windowAccess_plant (w : Fin 6) (acc : HostAccess) (s : State) : (State.windowAccess w acc s).plant = s.plant := by
  unfold State.windowAccess; split <;> simp

theorem State.orKeep_plant {s : State} {a : Attempt} (h : ∀ t, a = .done t → t.plant = s.plant) : (s.orKeep a).plant = s.plant := by
  cases a with
  | done t => exact h t rfl
  | hold => rfl

@[simp] theorem State.retryHeld_plant (s : State) : s.retryHeld.plant = s.plant := by
  unfold State.retryHeld
  (repeat' split) <;> first
    | rfl
    | exact State.orKeep_plant fun t h => State.scanWrite_plant h
    | exact State.orKeep_plant fun t h => State.receiveWrite_plant h
    | exact State.orKeep_plant fun t h => State.printRead_plant h

@[simp] theorem State.expireReceive_plant (w : Fin 6) (s : State) : (State.expireReceive w s).plant = s.plant := by
  unfold State.expireReceive; split <;> simp

@[simp] theorem State.holdExpired_plant (s : State) : s.holdExpired.plant = s.plant := by
  unfold State.holdExpired
  split
  · rfl
  · split
    · rfl
    · dsimp only
      split
      · simp
      · split <;> simp

@[simp] theorem State.printReadDone_plant (bytes : List Byte) (s : State) : (State.printReadDone bytes s).plant = s.plant := by
  simp [State.printReadDone]

@[simp] theorem State.deliverRead_plant (q : Requester) (bytes : List Byte) (s : State) : (State.deliverRead q bytes s).plant = s.plant := by
  unfold State.deliverRead; split <;> simp

@[simp] theorem State.addDest_plant (t : Fin 512) (d : Fin 64) (number : List DialChar) (s : State) : (State.addDest t d number s).plant = s.plant := by
  simp [State.addDest]

@[simp] theorem State.release_plant (d : Fin 64) (s : State) : (s.release d).plant = s.plant := by
  unfold State.release
  dsimp only
  rw [State.askArbiter_plant]
  exact (State.setDoc_plant _ _ _).trans (State.bump32_plant _ _)

@[simp] theorem State.cancelOnCall_plant (t : Fin 512) (s : State) : (State.cancelOnCall t s).plant = s.plant := by
  unfold State.cancelOnCall; dsimp only; (repeat' split) <;> simp

@[simp] theorem State.cancelDest_plant (s : State) (t : Fin 512) : (State.cancelDest s t).plant = s.plant := by
  unfold State.cancelDest; dsimp only; split <;> simp

@[simp] theorem State.cancelPrint_plant (d : Fin 64) (s : State) : (State.cancelPrint d s).plant = s.plant := by
  unfold State.cancelPrint; split <;> simp

@[simp] theorem State.freeDest_plant (s : State) (t : Fin 512) : (State.freeDest s t).plant = s.plant := by
  simp [State.freeDest]

@[simp] theorem State.printFirst_plant (d : Fin 64) (s : State) : (State.printFirst d s).plant = s.plant := by
  unfold State.printFirst; dsimp only; (repeat' split) <;> simp

@[simp] theorem State.openScan_plant (d : Fin 64) (w : Width) (k : Nat) (s : State) : (State.openScan d w k s).plant = s.plant := by
  simp [State.openScan]

@[simp] theorem State.openPrint_plant (d : Fin 64) (s : State) : (State.openPrint d s).plant = s.plant := by
  simp [State.openPrint]

@[simp] theorem State.printed_plant (s : State) : (State.printed s).plant = s.plant := by
  simp [State.printed]

@[simp] theorem State.printAbandoned_plant (s : State) : (State.printAbandoned s).plant = s.plant := by
  unfold State.printAbandoned; split <;> simp

@[simp] theorem State.closePrint_plant (s : State) : (State.closePrint s).plant = s.plant := by
  simp [State.closePrint]

@[simp] theorem State.openSend_plant (n : Fin 4) (t : Fin 512) (takesRepeat : Bool) (least : Nat) (s : State) : (State.openSend n t takesRepeat least s).plant = s.plant := by
  simp [State.openSend]

@[simp] theorem State.confirmPage_plant (n : Fin 4) (t : Fin 512) (s : State) : (State.confirmPage n t s).plant = s.plant := by
  simp [State.confirmPage]

@[simp] theorem State.bumpRetries_plant (x : BitVec 8) (s : State) : (s.bumpRetries x).2.plant = s.plant := by
  unfold State.bumpRetries; split <;> rfl

@[simp] theorem State.stallSend_plant (n : Fin 4) (cause : StallCause) (s : State) : (State.stallSend n cause s).plant = s.plant := by
  simp [State.stallSend]

@[simp] theorem State.retryPage_plant (n : Fin 4) (t : Fin 512) (s : State) : (State.retryPage n t s).plant = s.plant := by
  unfold State.retryPage; dsimp only; split <;> simp

@[simp] theorem State.drainDone_plant (n : Fin 4) (s : State) : (State.drainDone n s).plant = s.plant := by
  simp [State.drainDone]

theorem State.takeVerdict_plant {n : Fin 4} {t : Fin 512} {v : Verdict} {s u : State} (h : s.takeVerdict n t v = some u) :
    u.plant = s.plant := by
  unfold State.takeVerdict at h
  (repeat' split at h) <;> first | contradiction | (cases h; simp)

@[simp] theorem State.openReceive_plant (n : Fin 4) (d : Fin 64) (w : Width) (k : Nat) (s : State) : (State.openReceive n d w k s).plant = s.plant := by
  simp [State.openReceive]

@[simp] theorem State.grantDocument_plant (n : Fin 4) (d : Fin 64) (s : State) : (State.grantDocument n d s).plant = s.plant := by
  simp [State.grantDocument]

@[simp] theorem State.dropSlotRead_plant (s : State) : s.dropSlotRead.plant = s.plant := by
  unfold State.dropSlotRead
  split
  · split
    · simp [State.plant, *]
    · rfl
  · rfl

@[simp] theorem State.resetScan_plant (s : State) : (State.resetScan s).plant = s.plant := by
  simp [State.resetScan]

@[simp] theorem State.resetPrint_plant (s : State) : (State.resetPrint s).plant = s.plant := by
  unfold State.resetPrint; split <;> simp

@[simp] theorem State.resetStream_plant (s : State) (n : Fin 4) : (State.resetStream s n).plant = s.plant := by
  unfold State.resetStream; split <;> simp

@[simp] theorem State.resetPage_plant (s : State) (x : Fin 512 × Writer) : (State.resetPage s x).plant = s.plant := by
  unfold State.resetPage; (repeat' split) <;> simp

@[simp] theorem State.resetDoc_plant (s : State) (d : Fin 64) : (State.resetDoc s d).plant = s.plant := by
  unfold State.resetDoc; split <;> simp

@[simp] theorem State.serviceStreams_plant (s : State) : s.serviceStreams.plant = s.plant := by
  simp only [State.serviceStreams, State.arbitrateCoder_plant, foldl_plant _ (fun s n => State.sendService_plant s n),
    State.printService_plant, State.scanService_plant, State.retryHeld_plant, foldl_plant _ (fun s n => State.receiveService_plant s n)]

@[simp] theorem State.retryEnded_plant (t : Fin 512) (s : State) : (State.retryEnded t s).plant = s.plant := by
  unfold State.retryEnded; (repeat' split) <;> simp


end Sys2Proof.Machine
end

