-- ==== Sys2Proof/Laws/Books.lean ====
section
/-! SUPPORT. Frame laws: what each operation of the blocks leaves of the books (Safety): the accounts, the charge log and the time. One law for each
operation that changes none of it, in the order of the model; the operations without a law here are those that do. -/

namespace Sys2Proof.Machine

@[simp] theorem foldl_books {α : Type} (F : State → α → State) (h : ∀ s a, (F s a).books = s.books) (l : List α) (s : State) :
    (l.foldl F s).books = s.books := by
  induction l generalizing s with
  | nil => rfl
  | cons a l ih => simp [ih, h]


@[simp] theorem State.enqueue_books (e : QueueEntry) (s : State) : (s.enqueue e).books = s.books := by
  unfold State.enqueue; split <;> rfl

@[simp] theorem State.rewrite_books (r : RecordId) (s : State) : (State.rewrite r s).books = s.books := by
  simp [State.rewrite]

@[simp] theorem State.fullRewrite_books (s : State) : (State.fullRewrite s).books = s.books := by
  rfl

@[simp] theorem State.rewriteIf_books (changed : Prop) [Decidable changed] (r : RecordId) (s : State) : (State.rewriteIf changed r s).books = s.books := by
  unfold State.rewriteIf; split <;> simp

@[simp] theorem State.setPage_books (p : Fin 512) (r : PageRecord) (s : State) : (State.setPage p r s).books = s.books := by
  unfold State.setPage; simp; rfl

@[simp] theorem State.setSlot_books (w : Writer) (x : WriterSlot) (s : State) : (State.setSlot w x s).books = s.books := by
  rfl

@[simp] theorem State.setFreeList_books (l : List Nat) (s : State) : (State.setFreeList l s).books = s.books := by
  unfold State.setFreeList; simp; rfl

@[simp] theorem State.setDoc_books (d : Fin 64) (r : DocRecord) (s : State) : (State.setDoc d r s).books = s.books := by
  unfold State.setDoc; simp; rfl

@[simp] theorem State.setPageList_books (d : Fin 64) (l : List (Fin 512)) (s : State) : (State.setPageList d l s).books = s.books := by
  unfold State.setPageList; simp; rfl

@[simp] theorem State.setDest_books (d : Fin 512) (r : DestRecord) (s : State) : (State.setDest d r s).books = s.books := by
  unfold State.setDest; simp; rfl

@[simp] theorem State.setRetryTimer_books (d : Fin 512) (t : Option Nat) (s : State) : (State.setRetryTimer d t s).books = s.books := by
  rfl

@[simp] theorem State.setPrintQueue_books (q : List (Fin 64)) (s : State) : (State.setPrintQueue q s).books = s.books := by
  rfl

@[simp] theorem State.askArbiter_books (s : State) : (State.askArbiter s).books = s.books := by
  rfl

@[simp] theorem State.setLine_books (n : Fin 4) (u : LineUnit) (s : State) : (State.setLine n u s).books = s.books := by
  unfold State.setLine; simp; rfl

@[simp] theorem State.modLine_books (n : Fin 4) (f : LineUnit → LineUnit) (s : State) : (State.modLine n f s).books = s.books := by
  simp [State.modLine]

@[simp] theorem State.rewriteContextAccount_books (c : Option CallContext) (s : State) : (State.rewriteContextAccount c s).books = s.books := by
  unfold State.rewriteContextAccount; split <;> simp

@[simp] theorem State.setContext_books (n : Fin 4) (c : Option CallContext) (s : State) : (State.setContext n c s).books = s.books := by
  unfold State.setContext; dsimp only; (repeat' split) <;> first | (simp; done) | rfl | (simp; rfl)

@[simp] theorem State.modContext_books (n : Fin 4) (f : CallContext → CallContext) (s : State) : (State.modContext n f s).books = s.books := by
  unfold State.modContext; split <;> simp

@[simp] theorem State.setScan_books (x : ScanStream) (s : State) : (State.setScan x s).books = s.books := by
  unfold State.setScan; simp; rfl

@[simp] theorem State.setPrint_books (x : PrintStream) (s : State) : (State.setPrint x s).books = s.books := by
  unfold State.setPrint; simp; rfl

@[simp] theorem State.setStream_books (n : Fin 4) (x : LineStream) (s : State) : (State.setStream n x s).books = s.books := by
  unfold State.setStream; simp; rfl

@[simp] theorem State.modStream_books (n : Fin 4) (f : LineStream → LineStream) (s : State) : (State.modStream n f s).books = s.books := by
  simp [State.modStream]

@[simp] theorem State.setWindow_books (w : Fin 6) (x : WindowShadow) (s : State) : (State.setWindow w x s).books = s.books := by
  unfold State.setWindow; simp; rfl

@[simp] theorem State.raise_books (f : Notice) (s : State) : (State.raise f s).books = s.books := by
  unfold State.raise; dsimp only; (repeat' split) <;> first | (simp; done) | rfl | (simp; rfl)

@[simp] theorem State.clearNotices_books (bits : BitVec 12) (s : State) : (State.clearNotices bits s).books = s.books := by
  unfold State.clearNotices; dsimp only; (repeat' split) <;> first | (simp; done) | rfl | (simp; rfl)

@[simp] theorem State.setCtx_books (i : StreamId) (c : LineContext) (s : State) : (State.setCtx i c s).books = s.books := by
  rfl

@[simp] theorem State.discardJob_books (i : StreamId) (s : State) : (State.discardJob i s).books = s.books := by
  unfold State.discardJob; dsimp only; (repeat' split) <;> first | (simp; done) | rfl

@[simp] theorem State.openCtx_books (i : StreamId) (w : Width) (k : Nat) (s : State) : (State.openCtx i w k s).books = s.books := by
  simp [State.openCtx]

@[simp] theorem State.idleCtx_books (i : StreamId) (s : State) : (State.idleCtx i s).books = s.books := by
  simp [State.idleCtx]

@[simp] theorem State.queueJob_books (i : StreamId) (kind : JobKind) (s : State) : (State.queueJob i kind s).books = s.books := by
  unfold State.queueJob; split <;> simp

@[simp] theorem State.takeJob_books (i : StreamId) (kind : JobKind) (s : State) : (State.takeJob i kind s).books = s.books := by
  rfl

@[simp] theorem State.arbitrateCoder_books (s : State) : (State.arbitrateCoder s).books = s.books := by
  unfold State.arbitrateCoder; dsimp only; (repeat' split) <;> first | (simp; done) | rfl

@[simp] theorem State.freeEngine_books (s : State) : s.freeEngine.books = s.books := rfl

@[simp] theorem State.jobDone_books (i : StreamId) (reference : List Bool) (repeatRun : Nat) (s : State) : (State.jobDone i reference repeatRun s).books = s.books := by
  simp [State.jobDone]

theorem State.takeBlock_books {w : Writer} {s t : State} {b : Nat} (h : s.takeBlock w = some (b, t)) : t.books = s.books := by
  unfold State.takeBlock at h
  split at h
  · split at h
    · contradiction
    · simp only [Option.some.injEq, Prod.mk.injEq] at h
      obtain ⟨_, rfl⟩ := h
      split <;> simp
  · contradiction

@[simp] theorem State.giveBack_books (chain : List Nat) (s : State) : (State.giveBack chain s).books = s.books := by
  simp [State.giveBack]

theorem State.openPage_books {w : Writer} {d : Fin 64} {width : Width} {k : Nat} {s t : State}
    (h : s.openPage w d width k = .ok t) : t.books = s.books := by
  unfold State.openPage at h
  repeat' split at h
  all_goals first | contradiction | (cases h; simp; exact State.takeBlock_books ‹_›)

@[simp] theorem State.placementRefused_books (w : Writer) (p : Fin 512) (s : State) : (State.placementRefused w p s).books = s.books := by
  unfold State.placementRefused; split <;> simp

@[simp] theorem State.placeLine_books (w : Writer) (bytes : List Byte) (concealed : Bool) (s : State) :
    (s.placeLine w bytes concealed).1.books = s.books := by
  unfold State.placeLine
  split
  · rfl
  · dsimp only
    split
    · rfl
    · split
      · simp
      · split
        · simp
        · split
          · simp
          · simp; exact State.takeBlock_books ‹_›

@[simp] theorem State.beginClosing_books (w : Writer) (h : PageInHand) (flags : CloseFlags) (s : State) :
    (State.beginClosing w h flags s).books = s.books := by
  simp [State.beginClosing]

@[simp] theorem State.closePage_books (w : Writer) (flags : CloseFlags) (s : State) : (State.closePage w flags s).books = s.books := by
  unfold State.closePage; (repeat' split) <;> simp

@[simp] theorem State.takeAsked_books (w : Writer) (s : State) : (State.takeAsked w s).books = s.books := by
  unfold State.takeAsked; split <;> simp

@[simp] theorem State.dropFromList_books (p : Fin 512) (d : Fin 64) (s : State) : (State.dropFromList p d s).books = s.books := by
  simp [State.dropFromList]

@[simp] theorem State.freePage_books (w : Writer) (s : State) : (State.freePage w s).books = s.books := by
  unfold State.freePage; split <;> simp

@[simp] theorem State.releasePage_books (s : State) (p : Fin 512) : (State.releasePage s p).books = s.books := by
  simp [State.releasePage]

@[simp] theorem State.releasePages_books (d : Fin 64) (s : State) : (State.releasePages d s).books = s.books := by
  simp [State.releasePages]

@[simp] theorem State.markClosed_books (w : Writer) (p : Fin 512) (check : BitVec 16) (s : State) : (State.markClosed w p check s).books = s.books := by
  simp [State.markClosed]

@[simp] theorem State.markDamaged_books (p : Fin 512) (s : State) : (State.markDamaged p s).books = s.books := by
  unfold State.markDamaged; split <;> simp

@[simp] theorem State.activate_books (w : Fin 6) (e : PendingWindow) (s : State) : (State.activate w e s).books = s.books := by
  simp [State.activate]

@[simp] theorem State.activatePending_books (w : Fin 6) (s : State) : (State.activatePending w s).books = s.books := by
  unfold State.activatePending; split <;> simp

@[simp] theorem State.takeWindow_books (w : Fin 6) (s : State) : (State.takeWindow w s).books = s.books := by
  unfold State.takeWindow; split <;> simp

@[simp] theorem State.recheckWindow_books (s : State) (w : Fin 6) : (State.recheckWindow s w).books = s.books := by
  unfold State.recheckWindow; split <;> simp

@[simp] theorem State.clearWindow_books (s : State) (w : Fin 6) : (State.clearWindow s w).books = s.books := by
  simp [State.clearWindow]

@[simp] theorem State.countDropped_books (w : Fin 6) (s : State) : (State.countDropped w s).books = s.books := by
  unfold State.countDropped; split <;> simp

@[simp] theorem State.countExpiry_books (w : Fin 6) (s : State) : (State.countExpiry w s).books = s.books := by
  unfold State.countExpiry; split <;> simp

@[simp] theorem State.answerHost_books (a : HostAnswer) (s : State) : (State.answerHost a s).books = s.books := by
  rfl

@[simp] theorem State.voidAccess_books (w : Fin 6) (a : HostAccess) (s : State) : (State.voidAccess w a s).books = s.books := by
  unfold State.voidAccess; split <;> simp

@[simp] theorem State.closeHeld_books (w : Fin 6) (s : State) : (State.closeHeld w s).books = s.books := by
  unfold State.closeHeld; (repeat' split) <;> simp

@[simp] theorem State.dropRead_books (q : Requester) (s : State) : (s.dropRead q).books = s.books := by
  unfold State.dropRead
  split
  · split
    · simp [State.books, *]
    · rfl
  · rfl

@[simp] theorem State.startServing_books (n : Fin 4) (p : Fin 512) (s : State) : (State.startServing n p s).books = s.books := by
  unfold State.startServing; dsimp only; split <;> simp

@[simp] theorem State.waitPage_books (n : Fin 4) (s : State) : (State.waitPage n s).books = s.books := by
  unfold State.waitPage; split <;> simp

@[simp] theorem State.sendDocEnd_books (n : Fin 4) (s : State) : (State.sendDocEnd n s).books = s.books := by
  simp [State.sendDocEnd]

@[simp] theorem State.seekPage_books (n : Fin 4) (s : State) : (State.seekPage n s).books = s.books := by
  unfold State.seekPage; dsimp only; (repeat' split) <;> simp

@[simp] theorem State.tellSender_books (d : Fin 64) (s : State) (n : Fin 4) : (State.tellSender d s n).books = s.books := by
  unfold State.tellSender; dsimp only; split <;> simp

@[simp] theorem State.tellSenders_books (d : Fin 64) (s : State) : (State.tellSenders d s).books = s.books := by
  simp [State.tellSenders]

@[simp] theorem State.pageServed_books (n : Fin 4) (s : State) : (State.pageServed n s).books = s.books := by
  unfold State.pageServed; dsimp only; split <;> simp

@[simp] theorem State.serveSendByte_books (n : Fin 4) (s : State) : (s.serveSendByte n).2.books = s.books := by
  unfold State.serveSendByte; dsimp only; (repeat' split) <;> simp

@[simp] theorem State.serveSend_books (n : Fin 4) (k : Nat) (s : State) : (State.serveSend n k s).2.books = s.books := by
  induction k generalizing s with
  | zero => rfl
  | succ k ih => simp [State.serveSend, ih]

@[simp] theorem State.sendService_books (s : State) (n : Fin 4) : (State.sendService s n).books = s.books := by
  unfold State.sendService; dsimp only; split <;> simp

@[simp] theorem State.expandDone_books (n : Fin 4) (s : State) : (State.expandDone n s).books = s.books := by
  unfold State.expandDone; dsimp only; split <;> simp

@[simp] theorem State.checkMismatch_books (n : Fin 4) (s : State) : (State.checkMismatch n s).books = s.books := by
  simp [State.checkMismatch]

@[simp] theorem State.sendReadDone_books (n : Fin 4) (bytes : List Byte) (s : State) : (State.sendReadDone n bytes s).books = s.books := by
  unfold State.sendReadDone; dsimp only; (repeat' split) <;> simp

@[simp] theorem State.drain_books (n : Fin 4) (s : State) : (State.drain n s).books = s.books := by
  unfold State.drain; dsimp only; split <;> simp

@[simp] theorem State.printPageEnd_books (s : State) : (State.printPageEnd s).books = s.books := by
  simp [State.printPageEnd]

@[simp] theorem State.printBegin_books (p : Fin 512) (s : State) : (State.printBegin p s).books = s.books := by
  unfold State.printBegin; dsimp only; split <;> simp

@[simp] theorem State.printStartPage_books (s : State) : (State.printStartPage s).books = s.books := by
  unfold State.printStartPage; dsimp only; (repeat' split) <;> simp

@[simp] theorem State.tellPrinter_books (p : Fin 512) (s : State) : (State.tellPrinter p s).books = s.books := by
  unfold State.tellPrinter; split <;> simp

@[simp] theorem State.printDiscard_books (s : State) : (State.printDiscard s).books = s.books := by
  simp [State.printDiscard]

@[simp] theorem State.printEnd_books (s : State) : (State.printEnd s).books = s.books := by
  simp [State.printEnd]

@[simp] theorem State.printDocEnd_books (s : State) : (State.printDocEnd s).books = s.books := by
  simp [State.printDocEnd]

@[simp] theorem State.printService_books (s : State) : (State.printService s).books = s.books := by
  unfold State.printService; dsimp only; (repeat' split) <;> simp

@[simp] theorem State.decodeDone_books (s : State) : (State.decodeDone s).books = s.books := by
  simp [State.decodeDone]

theorem State.servePrintByte_books {s t : State} {b : Byte} (h : s.servePrintByte = some (b, t)) : t.books = s.books := by
  unfold State.servePrintByte at h
  dsimp only at h
  repeat' split at h
  all_goals simp only [Option.some.injEq, Prod.mk.injEq, reduceCtorEq] at h
  all_goals obtain ⟨_, rfl⟩ := h
  all_goals first | rfl | simp

theorem State.servePrint_books {k : Nat} {s t : State} {l : List Byte} (h : State.servePrint k s = some (l, t)) :
    t.books = s.books := by
  induction k generalizing s l with
  | zero =>
    simp only [State.servePrint, Option.some.injEq, Prod.mk.injEq] at h
    obtain ⟨_, rfl⟩ := h
    rfl
  | succ k ih =>
    unfold State.servePrint at h
    split at h
    · contradiction
    · rename_i b u hb
      cases hr : State.servePrint k u with
      | none => simp [hr] at h
      | some r =>
        obtain ⟨l', t'⟩ := r
        simp only [hr, Option.map_some, Option.some.injEq, Prod.mk.injEq] at h
        obtain ⟨_, rfl⟩ := h
        rw [ih hr, State.servePrintByte_books hb]

@[simp] theorem State.checkComplete_books (d : Fin 64) (s : State) : (State.checkComplete d s).books = s.books := by
  unfold State.checkComplete; split <;> simp

@[simp] theorem State.joinPrintQueue_books (d : Fin 64) (s : State) : (State.joinPrintQueue d s).books = s.books := by
  unfold State.joinPrintQueue; split <;> simp

@[simp] theorem State.leavePrintQueue_books (d : Fin 64) (s : State) : (State.leavePrintQueue d s).books = s.books := by
  simp [State.leavePrintQueue]

@[simp] theorem State.printDue_books (d : Fin 64) (s : State) : (State.printDue d s).books = s.books := by
  unfold State.printDue; (repeat' split) <;> simp

@[simp] theorem State.endBuilding_books (d : Fin 64) (s : State) : (State.endBuilding d s).books = s.books := by
  unfold State.endBuilding; split <;> simp

@[simp] theorem State.pageClosedNews_books (p : Fin 512) (s : State) : (State.pageClosedNews p s).books = s.books := by
  simp [State.pageClosedNews]

@[simp] theorem State.startRetry_books (t : Fin 512) (r : DestRecord) (seconds : Nat) (s : State) : (State.startRetry t r seconds s).books = s.books := by
  simp [State.startRetry]

@[simp] theorem State.becomePending_books (t : Fin 512) (r : DestRecord) (s : State) : (State.becomePending t r s).books = s.books := by
  simp [State.becomePending]

@[simp] theorem State.becomeFinal_books (t : Fin 512) (r : DestRecord) (final : DestState) (s : State) : (State.becomeFinal t r final s).books = s.books := by
  simp [State.becomeFinal]

@[simp] theorem State.createDoc_books (d : Fin 64) (r : DocRecord) (s : State) : (State.createDoc d r s).books = s.books := by
  simp [State.createDoc]

@[simp] theorem State.settle_books (t : Fin 512) (given : Cause) (s : State) : (State.settle t given s).books = s.books := by
  unfold State.settle; dsimp only; (repeat' split) <;> simp

@[simp] theorem State.scanClosed_books (s : State) : (State.scanClosed s).books = s.books := by
  simp [State.scanClosed]

@[simp] theorem State.scanFinish_books (s : State) : (State.scanFinish s).books = s.books := by
  unfold State.scanFinish; dsimp only; (repeat' split) <;> simp

@[simp] theorem State.scanDiscard_books (extra : Nat) (s : State) : (State.scanDiscard extra s).books = s.books := by
  simp [State.scanDiscard]

@[simp] theorem State.scanStarved_books (cause : RoomCause) (s : State) : (State.scanStarved cause s).books = s.books := by
  unfold State.scanStarved; split <;> simp

@[simp] theorem State.scanEndShort_books (s : State) : (State.scanEndShort s).books = s.books := by
  unfold State.scanEndShort; (repeat' split) <;> simp

@[simp] theorem State.scanStarve_books (s : State) : (State.scanStarve s).books = s.books := by
  simp [State.scanStarve]

@[simp] theorem State.scanOpenRefused_books (cause : RoomCause) (s : State) : (State.scanOpenRefused cause s).books = s.books := by
  simp [State.scanOpenRefused]

theorem State.scanWrite_books {x : HostWrite} {s t : State} (h : s.scanWrite x = .done t) : t.books = s.books := by
  unfold State.scanWrite at h
  dsimp only at h
  repeat' split at h
  all_goals simp only [Attempt.done.injEq, reduceCtorEq] at h
  all_goals subst h
  all_goals first | (simp; done) | (simp; exact State.openPage_books ‹_›)

@[simp] theorem State.scanService_books (s : State) : (State.scanService s).books = s.books := by
  unfold State.scanService; split <;> simp

@[simp] theorem State.scanCutDone_books (s : State) : (State.scanCutDone s).books = s.books := by
  simp [State.scanCutDone]

@[simp] theorem State.scanNextPage_books (s : State) : (State.scanNextPage s).books = s.books := by
  unfold State.scanNextPage; (repeat' split) <;> first | simp | exact State.openPage_books ‹_›

@[simp] theorem State.scanPlaced_books (marked : Bool) (s : State) : (State.scanPlaced marked s).books = s.books := by
  unfold State.scanPlaced; (repeat' split) <;> simp

@[simp] theorem State.encodeDone_books (s : State) : s.encodeDone.books = s.books := by
  unfold State.encodeDone
  dsimp only
  split <;> rename_i h <;> have h' := congrArg (fun x => x.1.books) h <;> simp at h' <;> simp [← h']

@[simp] theorem State.beginCut_books (s : State) : (State.beginCut s).books = s.books := by
  unfold State.beginCut; dsimp only; split <;> simp

@[simp] theorem State.beginClose_books (s : State) : (State.beginClose s).books = s.books := by
  simp [State.beginClose]

@[simp] theorem State.receivePageEnd_books (n : Fin 4) (s : State) : (State.receivePageEnd n s).books = s.books := by
  unfold State.receivePageEnd; split <;> simp

@[simp] theorem State.frameByte_books (n : Fin 4) (b : Byte) (s : State) : (State.frameByte n b s).books = s.books := by
  unfold State.frameByte; dsimp only; (repeat' split) <;> simp

@[simp] theorem State.collectByte_books (n : Fin 4) (s : State) (b : Byte) : (State.collectByte n s b).books = s.books := by
  unfold State.collectByte; split <;> simp

@[simp] theorem State.frameCarried_books (n : Fin 4) (s : State) : (State.frameCarried n s).books = s.books := by
  simp [State.frameCarried]

@[simp] theorem State.closeReceivePage_books (n : Fin 4) (s : State) : (State.closeReceivePage n s).books = s.books := by
  unfold State.closeReceivePage; dsimp only; split <;> simp

@[simp] theorem State.receiveStall_books (n : Fin 4) (cause : RoomCause) (s : State) : (State.receiveStall n cause s).books = s.books := by
  simp [State.receiveStall]

@[simp] theorem State.handLine_books (n : Fin 4) (l : CollectedLine) (s : State) : (State.handLine n l s).books = s.books := by
  simp [State.handLine]

@[simp] theorem State.moveLine_books (n : Fin 4) (s : State) : (State.moveLine n s).books = s.books := by
  unfold State.moveLine; dsimp only; (repeat' split) <;> first | (simp; done) | exact State.openPage_books ‹_› | (simp; exact State.openPage_books ‹_›)

@[simp] theorem State.receiveService_books (s : State) (n : Fin 4) : (State.receiveService s n).books = s.books := by
  unfold State.receiveService; split <;> simp

@[simp] theorem State.receiveByte_books (n : Fin 4) (s : State) (b : Byte) : (State.receiveByte n s b).books = s.books := by
  unfold State.receiveByte; split <;> simp

theorem State.receiveWrite_books {n : Fin 4} {x : HostWrite} {s t : State} (h : s.receiveWrite n x = .done t) : t.books = s.books := by
  unfold State.receiveWrite at h
  (repeat' split at h) <;> first | contradiction | (cases h; simp)

@[simp] theorem State.loseLine_books (n : Fin 4) (s : State) : (State.loseLine n s).books = s.books := by
  simp [State.loseLine]

@[simp] theorem State.placeChecked_books (n : Fin 4) (s : State) : (s.placeChecked n).books = s.books := by
  unfold State.placeChecked
  split
  · simp
  · dsimp only
    split <;> rename_i h <;> have h' := congrArg (fun x => x.1.books) h <;> simp at h' <;> simp [← h']

@[simp] theorem State.endReceivePage_books (n : Fin 4) (s : State) : (State.endReceivePage n s).books = s.books := by
  unfold State.endReceivePage; (repeat' split) <;> simp

@[simp] theorem State.endTraffic_books (n : Fin 4) (s : State) : (State.endTraffic n s).books = s.books := by
  simp [State.endTraffic]

@[simp] theorem State.enterClosed_books (n : Fin 4) (s : State) : (State.enterClosed n s).books = s.books := by
  simp [State.enterClosed]

@[simp] theorem State.closeStream_books (n : Fin 4) (s : State) : (State.closeStream n s).books = s.books := by
  unfold State.closeStream; (repeat' split) <;> simp

@[simp] theorem State.judgePeriod_books (s : State) : (State.judgePeriod s).books = s.books := by
  unfold State.judgePeriod; dsimp only; (repeat' split) <;> first | (simp; done) | rfl | (simp; rfl)

@[simp] theorem State.judgeNotBefore_books (old : Option ClockValue) (s : State) : (State.judgeNotBefore old s).books = s.books := by
  unfold State.judgeNotBefore; split <;> simp

@[simp] theorem State.advanceClock_books (s : State) : (State.advanceClock s).books = s.books := by
  unfold State.advanceClock; simp; rfl

@[simp] theorem State.takeReservation_books (s : State) : (State.takeReservation s).books = s.books := by
  unfold State.takeReservation; dsimp only; (repeat' split) <;> first | (simp; done) | rfl | (simp; rfl)

@[simp] theorem State.openOutgoing_books (n : Fin 4) (t : Fin 512) (band : Fin 8) (cls : Nat) (s : State) : (State.openOutgoing n t band cls s).books = s.books := by
  simp [State.openOutgoing]

@[simp] theorem State.openIncoming_books (n : Fin 4) (s : State) : (State.openIncoming n s).books = s.books := by
  simp [State.openIncoming]

@[simp] theorem State.modRecord_books (n : Fin 4) (f : LineRecord → LineRecord) (s : State) : (State.modRecord n f s).books = s.books := by
  simp [State.modRecord]

@[simp] theorem State.applyIdle_books (n : Fin 4) (s : State) : (State.applyIdle n s).books = s.books := by
  unfold State.applyIdle; dsimp only; split <;> simp

@[simp] theorem State.applyDisabled_books (n : Fin 4) (s : State) : (State.applyDisabled n s).books = s.books := by
  unfold State.applyDisabled; dsimp only; split <;> simp

@[simp] theorem State.endReceiving_books (n : Fin 4) (s : State) : (State.endReceiving n s).books = s.books := by
  unfold State.endReceiving; split <;> simp

@[simp] theorem State.answer_books (n : Fin 4) (s : State) : (State.answer n s).books = s.books := by
  simp [State.answer]

@[simp] theorem State.answerTry_books (n : Fin 4) (s : State) : (State.answerTry n s).books = s.books := by
  unfold State.answerTry; (repeat' split) <;> simp

@[simp] theorem State.burstInRinging_books (n : Fin 4) (s : State) : (State.burstInRinging n s).books = s.books := by
  unfold State.burstInRinging; dsimp only; split <;> simp

@[simp] theorem State.enterRinging_books (n : Fin 4) (s : State) : (State.enterRinging n s).books = s.books := by
  simp [State.enterRinging]

@[simp] theorem State.ringActive_books (n : Fin 4) (s : State) : (State.ringActive n s).books = s.books := by
  unfold State.ringActive; dsimp only; split <;> simp

@[simp] theorem State.ringInactive_books (n : Fin 4) (s : State) : (State.ringInactive n s).books = s.books := by
  simp [State.ringInactive]

@[simp] theorem State.meterActive_books (n : Fin 4) (s : State) : (State.meterActive n s).books = s.books := by
  unfold State.meterActive; dsimp only; split <;> simp

@[simp] theorem State.loopPresent_books (n : Fin 4) (s : State) : (State.loopPresent n s).books = s.books := by
  unfold State.loopPresent; dsimp only; split <;> simp

@[simp] theorem State.loopAbsent_books (n : Fin 4) (s : State) : (State.loopAbsent n s).books = s.books := by
  unfold State.loopAbsent; dsimp only; split <;> simp

@[simp] theorem State.loopFault_books (n : Fin 4) (s : State) : (State.loopFault n s).books = s.books := by
  simp [State.loopFault]

@[simp] theorem State.guardToIdle_books (n : Fin 4) (s : State) : (State.guardToIdle n s).books = s.books := by
  unfold State.guardToIdle; dsimp only; split <;> simp

@[simp] theorem State.seize_books (n : Fin 4) (t : Fin 512) (s : State) : (State.seize n t s).books = s.books := by
  simp [State.seize]

@[simp] theorem State.dialDest_books (n : Fin 4) (t : Fin 512) (cls : Nat) (band : Fin 8) (s : State) : (State.dialDest n t cls band s).books = s.books := by
  simp [State.dialDest]

@[simp] theorem State.chooseFor_books (n : Fin 4) (fuel : Nat) (s : State) : (State.chooseFor n fuel s).books = s.books := by
  induction fuel generalizing s with
  | zero => rfl
  | succ k ih => unfold State.chooseFor; dsimp only; (repeat' split) <;> simp [ih]

@[simp] theorem State.serveLine_books (s : State) (n : Fin 4) : (State.serveLine s n).books = s.books := by
  unfold State.serveLine; split <;> simp

@[simp] theorem State.setBlockReason_books (s : State) (t : Fin 512) : (State.setBlockReason s t).books = s.books := by
  unfold State.setBlockReason; dsimp only; (repeat' split) <;> simp

@[simp] theorem State.runArbiter_books (s : State) : (State.runArbiter s).books = s.books := by
  simp [State.runArbiter]

@[simp] theorem State.runDueArbiter_books (s : State) : (State.runDueArbiter s).books = s.books := by
  unfold State.runDueArbiter; dsimp only; (repeat' split) <;> first | (simp; done) | rfl | (simp; rfl)

@[simp] theorem State.guarded_books (s : State) : (State.guarded s).books = s.books := by
  simp [State.guarded]

@[simp] theorem State.dropControl_books (s : State) : (State.dropControl s).books = s.books := by
  unfold State.dropControl; dsimp only; (repeat' split) <;> first | (simp; done) | rfl | (simp; rfl)

@[simp] theorem State.dropStore_books (s : State) : (State.dropStore s).books = s.books := by
  unfold State.dropStore; dsimp only; (repeat' split) <;> first | (simp; done) | rfl | (simp; rfl)

@[simp] theorem State.dropLog_books (s : State) : (State.dropLog s).books = s.books := by
  unfold State.dropLog; dsimp only; (repeat' split) <;> first | (simp; done) | rfl | (simp; rfl)

@[simp] theorem State.snoopHoldLimit_books (l : List (Nat × Byte)) (s : State) : (State.snoopHoldLimit l s).books = s.books := by
  unfold State.snoopHoldLimit; dsimp only; (repeat' split) <;> first | simp | rfl

@[simp] theorem State.snoopMask_books (l : List (Nat × Byte)) (s : State) : (State.snoopMask l s).books = s.books := by
  unfold State.snoopMask; split <;> simp

@[simp] theorem State.snoopEntry_books (l : List (Nat × Byte)) (s : State) (w : Fin 6) : (State.snoopEntry l s w).books = s.books := by
  unfold State.snoopEntry; dsimp only; split <;> simp

@[simp] theorem State.snoopTail_books (s : State) : (State.snoopTail s).books = s.books := by
  unfold State.snoopTail; split <;> simp

@[simp] theorem State.snoop_books (w : HostWrite) (s : State) : (State.snoop w s).books = s.books := by
  unfold State.snoop; dsimp only; (repeat' split) <;> simp

@[simp] theorem State.forwardAccess_books (acc : HostAccess) (s : State) : (State.forwardAccess acc s).books = s.books := by
  unfold State.forwardAccess; dsimp only; (repeat' split) <;> first | (simp; done) | rfl | (simp; rfl)

@[simp] theorem State.hold_books (acc : HostAccess) (w : Option (Fin 6)) (why : HoldReason) (s : State) : (State.hold acc w why s).books = s.books := by
  rfl

theorem State.orHold_books {acc : HostAccess} {w : Fin 6} {why : HoldReason} {s : State} {a : Attempt}
    (h : ∀ t, a = .done t → t.books = s.books) : (s.orHold acc w why a).books = s.books := by
  cases a with
  | done t => exact h t rfl
  | hold => rfl

@[simp] theorem State.voidRead_books (r : HostRead) (s : State) : (State.voidRead r s).books = s.books := by
  simp [State.voidRead]

theorem State.printRead_books {r : HostRead} {s t : State} (h : s.printRead r = .done t) : t.books = s.books := by
  unfold State.printRead at h
  split at h
  · cases h; simp; exact State.servePrint_books ‹_›
  · contradiction

@[simp] theorem State.openWindowAccess_books (w : Fin 6) (acc : HostAccess) (s : State) :
    (s.openWindowAccess w acc).books = s.books := by
  unfold State.openWindowAccess
  split
  · simp
  · exact State.orHold_books fun t h => State.scanWrite_books h
  · exact State.orHold_books fun t h => State.printRead_books h
  · simp
  · split <;> simp
  · split
    · exact State.orHold_books fun t h => State.receiveWrite_books h
    · simp

@[simp] theorem State.windowAccess_books (w : Fin 6) (acc : HostAccess) (s : State) : (State.windowAccess w acc s).books = s.books := by
  unfold State.windowAccess; split <;> simp

theorem State.orKeep_books {s : State} {a : Attempt} (h : ∀ t, a = .done t → t.books = s.books) : (s.orKeep a).books = s.books := by
  cases a with
  | done t => exact h t rfl
  | hold => rfl

@[simp] theorem State.retryHeld_books (s : State) : s.retryHeld.books = s.books := by
  unfold State.retryHeld
  (repeat' split) <;> first
    | rfl
    | exact State.orKeep_books fun t h => State.scanWrite_books h
    | exact State.orKeep_books fun t h => State.receiveWrite_books h
    | exact State.orKeep_books fun t h => State.printRead_books h

@[simp] theorem State.expireReceive_books (w : Fin 6) (s : State) : (State.expireReceive w s).books = s.books := by
  unfold State.expireReceive; split <;> simp

@[simp] theorem State.hostAccess_books (acc : HostAccess) (s : State) : (State.hostAccess acc s).books = s.books := by
  unfold State.hostAccess; (repeat' split) <;> simp

@[simp] theorem State.issueRequests_books (s : State) : (State.issueRequests s).books = s.books := by
  rfl

@[simp] theorem State.startRequest_books (q : Requester) (kind : PortKind) (addr : Nat) (bytes : List Byte) (s : State) : (State.startRequest q kind addr bytes s).books = s.books := by
  rfl

@[simp] theorem State.startRead_books (q : Requester) (kind : PortKind) (addr n : Nat) (s : State) : (State.startRead q kind addr n s).books = s.books := by
  simp [State.startRead]

@[simp] theorem State.grantStoreWrite_books (w : Writer) (h : PageInHand) (closing : Bool) (s : State) : (State.grantStoreWrite w h closing s).books = s.books := by
  simp [State.grantStoreWrite]

@[simp] theorem State.grantStoreRead_books (q : Requester) (p : Fin 512) (readPos byteCount : Nat) (s : State) : (State.grantStoreRead q p readPos byteCount s).books = s.books := by
  simp [State.grantStoreRead]

@[simp] theorem State.grantControl_books (e : QueueEntry) (rest : List QueueEntry) (s : State) : (State.grantControl e rest s).books = s.books := by
  unfold State.grantControl; split <;> rfl

@[simp] theorem State.grantRequest_books (q : Requester) (s : State) : (State.grantRequest q s).books = s.books := by
  unfold State.grantRequest; (repeat' split) <;> simp

@[simp] theorem State.setPassedOver_books (n : Nat) (s : State) : (State.setPassedOver n s).books = s.books := by
  rfl

@[simp] theorem State.grantPort_books (s : State) : (State.grantPort s).books = s.books := by
  unfold State.grantPort; (repeat' split) <;> simp

@[simp] theorem State.freePort_books (s : State) : (State.freePort s).books = s.books := by
  rfl

@[simp] theorem State.portWritten_books (p : PortRequest) (s : State) : (State.portWritten p s).books = s.books := by
  rfl

@[simp] theorem State.pageStored_books (w : Writer) (p : Fin 512) (s : State) : (State.pageStored w p s).books = s.books := by
  unfold State.pageStored; (repeat' split) <;> simp

@[simp] theorem State.storeWriteDone_books (s : State) : (State.storeWriteDone s).books = s.books := by
  unfold State.storeWriteDone; (repeat' split) <;> simp

@[simp] theorem State.printReadDone_books (bytes : List Byte) (s : State) : (State.printReadDone bytes s).books = s.books := by
  simp [State.printReadDone]

@[simp] theorem State.deliverRead_books (q : Requester) (bytes : List Byte) (s : State) : (State.deliverRead q bytes s).books = s.books := by
  unfold State.deliverRead; split <;> simp

@[simp] theorem State.storeReadDone_books (s : State) : (State.storeReadDone s).books = s.books := by
  unfold State.storeReadDone; (repeat' split) <;> simp

@[simp] theorem State.controlDone_books (s : State) : s.controlDone.books = s.books := rfl

@[simp] theorem State.mirrorWriteDone_books (s : State) : (State.mirrorWriteDone s).books = s.books := by
  unfold State.mirrorWriteDone; (repeat' split) <;> simp

@[simp] theorem State.enterRunning_books (store : StoreManager) (s : State) : (State.enterRunning store s).books = s.books := by
  unfold State.enterRunning; simp; rfl

@[simp] theorem State.addDest_books (t : Fin 512) (d : Fin 64) (number : List DialChar) (s : State) : (State.addDest t d number s).books = s.books := by
  simp [State.addDest]

@[simp] theorem State.cancelPrint_books (d : Fin 64) (s : State) : (State.cancelPrint d s).books = s.books := by
  unfold State.cancelPrint; split <;> simp

@[simp] theorem State.freeDest_books (s : State) (t : Fin 512) : (State.freeDest s t).books = s.books := by
  simp [State.freeDest]

@[simp] theorem State.printFirst_books (d : Fin 64) (s : State) : (State.printFirst d s).books = s.books := by
  unfold State.printFirst; dsimp only; (repeat' split) <;> simp

@[simp] theorem State.openScan_books (d : Fin 64) (w : Width) (k : Nat) (s : State) : (State.openScan d w k s).books = s.books := by
  simp [State.openScan]

@[simp] theorem State.openPrint_books (d : Fin 64) (s : State) : (State.openPrint d s).books = s.books := by
  simp [State.openPrint]

@[simp] theorem State.printed_books (s : State) : (State.printed s).books = s.books := by
  simp [State.printed]

@[simp] theorem State.printAbandoned_books (s : State) : (State.printAbandoned s).books = s.books := by
  unfold State.printAbandoned; split <;> simp

@[simp] theorem State.closePrint_books (s : State) : (State.closePrint s).books = s.books := by
  simp [State.closePrint]

@[simp] theorem State.openSend_books (n : Fin 4) (t : Fin 512) (takesRepeat : Bool) (least : Nat) (s : State) : (State.openSend n t takesRepeat least s).books = s.books := by
  simp [State.openSend]

@[simp] theorem State.confirmPage_books (n : Fin 4) (t : Fin 512) (s : State) : (State.confirmPage n t s).books = s.books := by
  simp [State.confirmPage]

@[simp] theorem State.stallSend_books (n : Fin 4) (cause : StallCause) (s : State) : (State.stallSend n cause s).books = s.books := by
  simp [State.stallSend]

@[simp] theorem State.drainDone_books (n : Fin 4) (s : State) : (State.drainDone n s).books = s.books := by
  simp [State.drainDone]

@[simp] theorem State.openReceive_books (n : Fin 4) (d : Fin 64) (w : Width) (k : Nat) (s : State) : (State.openReceive n d w k s).books = s.books := by
  simp [State.openReceive]

@[simp] theorem State.grantDocument_books (n : Fin 4) (d : Fin 64) (s : State) : (State.grantDocument n d s).books = s.books := by
  simp [State.grantDocument]

@[simp] theorem State.noteResult_books (r : CommandResult) (s : State) : (State.noteResult r s).books = s.books := by
  rfl

@[simp] theorem State.takeCommand_books (s : State) : (State.takeCommand s).books = s.books := by
  unfold State.takeCommand; dsimp only; (repeat' split) <;> first | (simp; done) | rfl | (simp; rfl)

@[simp] theorem State.ringError_books (s : State) : (State.ringError s).books = s.books := by
  unfold State.ringError; simp; rfl

@[simp] theorem State.takeTail_books (v : Nat) (s : State) : (State.takeTail v s).books = s.books := by
  unfold State.takeTail; dsimp only; (repeat' split) <;> first | (simp; done) | rfl | (simp; rfl)

@[simp] theorem State.tailReadDone_books (s : State) : (State.tailReadDone s).books = s.books := by
  unfold State.tailReadDone; (repeat' split) <;> simp

@[simp] theorem State.maskReadDone_books (s : State) : (State.maskReadDone s).books = s.books := by
  unfold State.maskReadDone; dsimp only; (repeat' split) <;> first | (simp; done) | rfl

@[simp] theorem State.queueResult_books (count : BitVec 6) (r : CommandResult) (s : State) : (State.queueResult count r s).books = s.books := by
  unfold State.queueResult; simp; rfl

@[simp] theorem State.completeCommand_books (s : State) : (State.completeCommand s).books = s.books := by
  unfold State.completeCommand; dsimp only; (repeat' split) <;> first | (simp; done) | rfl | (simp; rfl)

@[simp] theorem State.resultWriteDone_books (s : State) : (State.resultWriteDone s).books = s.books := by
  unfold State.resultWriteDone; (repeat' split) <;> simp

@[simp] theorem State.dropSlotRead_books (s : State) : s.dropSlotRead.books = s.books := by
  unfold State.dropSlotRead
  split
  · split
    · simp [State.books, *]
    · rfl
  · rfl

@[simp] theorem State.stopCommands_books (s : State) : (State.stopCommands s).books = s.books := by
  unfold State.stopCommands; simp; rfl

@[simp] theorem State.dropStoreWrites_books (s : State) : s.dropStoreWrites.books = s.books := rfl

@[simp] theorem State.resetScan_books (s : State) : (State.resetScan s).books = s.books := by
  simp [State.resetScan]

@[simp] theorem State.resetPrint_books (s : State) : (State.resetPrint s).books = s.books := by
  unfold State.resetPrint; split <;> simp

@[simp] theorem State.resetStream_books (s : State) (n : Fin 4) : (State.resetStream s n).books = s.books := by
  unfold State.resetStream; split <;> simp

@[simp] theorem State.resetPage_books (s : State) (x : Fin 512 × Writer) : (State.resetPage s x).books = s.books := by
  unfold State.resetPage; (repeat' split) <;> simp

@[simp] theorem State.resetDoc_books (s : State) (d : Fin 64) : (State.resetDoc s d).books = s.books := by
  unfold State.resetDoc; split <;> simp

@[simp] theorem State.resetReleased_books (s : State) : (State.resetReleased s).books = s.books := by
  rfl

@[simp] theorem State.ringReset_books (s : State) : (State.ringReset s).books = s.books := by
  unfold State.ringReset; simp; rfl

@[simp] theorem State.teardownRewrite_books (s : State) : (State.teardownRewrite s).books = s.books :=
  State.ringReset_books s

@[simp] theorem State.endTeardown_books (s : State) : (State.endTeardown s).books = s.books := by
  unfold State.endTeardown; simp; rfl

@[simp] theorem State.teardownAdvance_books (s : State) : (State.teardownAdvance s).books = s.books := by
  unfold State.teardownAdvance; (repeat' split) <;> simp

@[simp] theorem State.serviceStreams_books (s : State) : s.serviceStreams.books = s.books := by
  simp only [State.serviceStreams, State.arbitrateCoder_books, foldl_books _ (fun s n => State.sendService_books s n),
    State.printService_books, State.scanService_books, State.retryHeld_books, foldl_books _ (fun s n => State.receiveService_books s n)]

@[simp] theorem State.settleStep_books (s : State) : (State.settleStep s).books = s.books := by
  simp [State.settleStep]


end Sys2Proof.Machine
end

