-- ==== Sys2Proof/Laws/Answer.lean ====
section
/-! SUPPORT. Frame laws of the host's last answer: the work at the end of a step gives no answer but where it completes
the held access. -/

namespace Sys2Proof.Machine

@[simp] theorem foldl_answer {α : Type} (F : State → α → State) (hF : ∀ s a, (F s a).path.answer = s.path.answer) (l : List α)
    (s : State) : (l.foldl F s).path.answer = s.path.answer := by
  induction l generalizing s with
  | nil => rfl
  | cons a l ih => simp [ih, hF]


@[simp] theorem State.setWindow_answer (w : Fin 6) (x : WindowShadow) (s : State) :
    (State.setWindow w x s).path.answer = s.path.answer := by
  simp [State.setWindow]

@[simp] theorem State.setCtx_answer (i : StreamId) (c : LineContext) (s : State) :
    (State.setCtx i c s).path.answer = s.path.answer := by
  simp [State.setCtx]

@[simp] theorem State.discardJob_answer (i : StreamId) (s : State) :
    (State.discardJob i s).path.answer = s.path.answer := by
  unfold State.discardJob; (repeat' split) <;> simp

@[simp] theorem State.openCtx_answer (i : StreamId) (w : Width) (k : Nat) (s : State) :
    (State.openCtx i w k s).path.answer = s.path.answer := by
  simp [State.openCtx]

@[simp] theorem State.idleCtx_answer (i : StreamId) (s : State) :
    (State.idleCtx i s).path.answer = s.path.answer := by
  simp [State.idleCtx]

@[simp] theorem State.queueJob_answer (i : StreamId) (kind : JobKind) (s : State) :
    (State.queueJob i kind s).path.answer = s.path.answer := by
  unfold State.queueJob; split <;> simp

@[simp] theorem State.takeJob_answer (i : StreamId) (kind : JobKind) (s : State) :
    (State.takeJob i kind s).path.answer = s.path.answer := by
  simp [State.takeJob]

@[simp] theorem State.arbitrateCoder_answer (s : State) :
    (State.arbitrateCoder s).path.answer = s.path.answer := by
  unfold State.arbitrateCoder; (repeat' split) <;> simp

@[simp] theorem State.jobDone_answer (i : StreamId) (reference : List Bool) (repeatRun : Nat) (s : State) :
    (State.jobDone i reference repeatRun s).path.answer = s.path.answer := by
  simp [State.jobDone]

theorem State.takeBlock_answer {w : Writer} {s t : State} {b : Nat} (h : s.takeBlock w = some (b, t)) :
    t.path.answer = s.path.answer := by
  unfold State.takeBlock at h
  split at h
  · split at h
    · contradiction
    · simp only [Option.some.injEq, Prod.mk.injEq] at h
      obtain ⟨_, rfl⟩ := h
      split <;> simp
  · contradiction

@[simp] theorem State.giveBack_answer (chain : List Nat) (s : State) :
    (State.giveBack chain s).path.answer = s.path.answer := by
  simp [State.giveBack]

theorem State.openPage_answer {w : Writer} {d : Fin 64} {width : Width} {k : Nat} {s t : State}
    (e : s.openPage w d width k = .ok t) : t.path.answer = s.path.answer := by
  unfold State.openPage at e
  split at e
  · contradiction
  · split at e
    · contradiction
    · split at e
      · contradiction
      · rename_i b s1 e1
        have h1 := State.takeBlock_answer e1
        cases e
        simp [h1]

@[simp] theorem State.placementRefused_answer (w : Writer) (p : Fin 512) (s : State) :
    (State.placementRefused w p s).path.answer = s.path.answer := by
  unfold State.placementRefused; split <;> simp

@[simp] theorem State.placeLine_answer (w : Writer) (bytes : List Byte) (concealed : Bool) (s : State) :
    (s.placeLine w bytes concealed).1.path.answer = s.path.answer := by
  unfold State.placeLine
  split
  · rfl
  · dsimp only
    split
    · rfl
    · split
      · simp
      · split
        · simp
        · split
          · simp
          · rename_i e
            simp [State.takeBlock_answer e]

@[simp] theorem State.closePage_answer (w : Writer) (flags : CloseFlags) (s : State) :
    (State.closePage w flags s).path.answer = s.path.answer := by
  unfold State.closePage; (repeat' split) <;> simp [State.beginClosing]

@[simp] theorem State.dropFromList_answer (p : Fin 512) (d : Fin 64) (s : State) :
    (State.dropFromList p d s).path.answer = s.path.answer := by
  simp [State.dropFromList]

@[simp] theorem State.freePage_answer (w : Writer) (s : State) :
    (State.freePage w s).path.answer = s.path.answer := by
  unfold State.freePage; split <;> simp

@[simp] theorem State.releasePage_answer (s : State) (p : Fin 512) :
    (State.releasePage s p).path.answer = s.path.answer := by
  simp [State.releasePage]

@[simp] theorem State.releasePages_answer (d : Fin 64) (s : State) :
    (State.releasePages d s).path.answer = s.path.answer := by
  simp [State.releasePages]

@[simp] theorem State.activate_answer (w : Fin 6) (e : PendingWindow) (s : State) :
    (State.activate w e s).path.answer = s.path.answer := by
  simp [State.activate]

@[simp] theorem State.activatePending_answer (w : Fin 6) (s : State) :
    (State.activatePending w s).path.answer = s.path.answer := by
  unfold State.activatePending; split <;> simp

@[simp] theorem State.dropRead_answer (q : Requester) (s : State) :
    (State.dropRead q s).path.answer = s.path.answer := by
  unfold State.dropRead; (repeat' split) <;> simp

@[simp] theorem State.startServing_answer (n : Fin 4) (p : Fin 512) (s : State) :
    (State.startServing n p s).path.answer = s.path.answer := by
  unfold State.startServing; dsimp only; (repeat' split) <;> simp

@[simp] theorem State.waitPage_answer (n : Fin 4) (s : State) :
    (State.waitPage n s).path.answer = s.path.answer := by
  unfold State.waitPage; split <;> simp

@[simp] theorem State.sendDocEnd_answer (n : Fin 4) (s : State) :
    (State.sendDocEnd n s).path.answer = s.path.answer := by
  simp [State.sendDocEnd]

@[simp] theorem State.seekPage_answer (n : Fin 4) (s : State) :
    (State.seekPage n s).path.answer = s.path.answer := by
  unfold State.seekPage; dsimp only; (repeat' split) <;> simp

@[simp] theorem State.tellSender_answer (d : Fin 64) (s : State) (n : Fin 4) :
    (State.tellSender d s n).path.answer = s.path.answer := by
  unfold State.tellSender; dsimp only; (repeat' split) <;> simp

@[simp] theorem State.tellSenders_answer (d : Fin 64) (s : State) :
    (State.tellSenders d s).path.answer = s.path.answer := by
  simp [State.tellSenders]

@[simp] theorem State.sendService_answer (s : State) (n : Fin 4) :
    (State.sendService s n).path.answer = s.path.answer := by
  unfold State.sendService; dsimp only; (repeat' split) <;> simp

@[simp] theorem State.expandDone_answer (n : Fin 4) (s : State) :
    (State.expandDone n s).path.answer = s.path.answer := by
  unfold State.expandDone; dsimp only; (repeat' split) <;> simp

@[simp] theorem State.printService_answer (s : State) :
    (State.printService s).path.answer = s.path.answer := by
  unfold State.printService; dsimp only; (repeat' split) <;> simp

@[simp] theorem State.decodeDone_answer (s : State) :
    (State.decodeDone s).path.answer = s.path.answer := by
  simp [State.decodeDone]

@[simp] theorem State.checkComplete_answer (d : Fin 64) (s : State) :
    (State.checkComplete d s).path.answer = s.path.answer := by
  unfold State.checkComplete; split <;> simp

@[simp] theorem State.joinPrintQueue_answer (d : Fin 64) (s : State) :
    (State.joinPrintQueue d s).path.answer = s.path.answer := by
  unfold State.joinPrintQueue; split <;> simp

@[simp] theorem State.printDue_answer (d : Fin 64) (s : State) :
    (State.printDue d s).path.answer = s.path.answer := by
  unfold State.printDue; (repeat' split) <;> simp

@[simp] theorem State.endBuilding_answer (d : Fin 64) (s : State) :
    (State.endBuilding d s).path.answer = s.path.answer := by
  unfold State.endBuilding; split <;> simp

@[simp] theorem State.becomeFinal_answer (t : Fin 512) (r : DestRecord) (final : DestState) (s : State) :
    (State.becomeFinal t r final s).path.answer = s.path.answer := by
  simp [State.becomeFinal]

@[simp] theorem State.scanClosed_answer (s : State) :
    (State.scanClosed s).path.answer = s.path.answer := by
  simp [State.scanClosed]

@[simp] theorem State.scanFinish_answer (s : State) :
    (State.scanFinish s).path.answer = s.path.answer := by
  unfold State.scanFinish; dsimp only; (repeat' split) <;> simp

@[simp] theorem State.scanDiscard_answer (extra : Nat) (s : State) :
    (State.scanDiscard extra s).path.answer = s.path.answer := by
  simp [State.scanDiscard]

@[simp] theorem State.scanStarved_answer (cause : RoomCause) (s : State) :
    (State.scanStarved cause s).path.answer = s.path.answer := by
  unfold State.scanStarved; split <;> simp

@[simp] theorem State.scanEndShort_answer (s : State) :
    (State.scanEndShort s).path.answer = s.path.answer := by
  unfold State.scanEndShort; (repeat' split) <;> simp

@[simp] theorem State.scanStarve_answer (s : State) :
    (State.scanStarve s).path.answer = s.path.answer := by
  simp [State.scanStarve]

@[simp] theorem State.scanOpenRefused_answer (cause : RoomCause) (s : State) :
    (State.scanOpenRefused cause s).path.answer = s.path.answer := by
  simp [State.scanOpenRefused]

@[simp] theorem State.scanService_answer (s : State) :
    (State.scanService s).path.answer = s.path.answer := by
  unfold State.scanService; split <;> simp

@[simp] theorem State.scanCutDone_answer (s : State) :
    (State.scanCutDone s).path.answer = s.path.answer := by
  simp [State.scanCutDone]

@[simp] theorem State.scanNextPage_answer (s : State) : s.scanNextPage.path.answer = s.path.answer := by
  unfold State.scanNextPage
  split
  · rfl
  · split
    · exact State.openPage_answer (by assumption)
    · simp

@[simp] theorem State.scanPlaced_answer (marked : Bool) (s : State) :
    (State.scanPlaced marked s).path.answer = s.path.answer := by
  unfold State.scanPlaced; (repeat' split) <;> simp

@[simp] theorem State.encodeDone_answer (s : State) : s.encodeDone.path.answer = s.path.answer := by
  unfold State.encodeDone
  dsimp only
  split <;> rename_i h <;> have h' := congrArg (fun x => x.1.path.answer) h <;> simp at h' <;> simp [← h']

@[simp] theorem State.receivePageEnd_answer (n : Fin 4) (s : State) :
    (State.receivePageEnd n s).path.answer = s.path.answer := by
  unfold State.receivePageEnd; split <;> simp

@[simp] theorem State.frameByte_answer (n : Fin 4) (b : Byte) (s : State) :
    (State.frameByte n b s).path.answer = s.path.answer := by
  unfold State.frameByte; dsimp only; (repeat' split) <;> simp

@[simp] theorem State.collectByte_answer (n : Fin 4) (s : State) (b : Byte) :
    (State.collectByte n s b).path.answer = s.path.answer := by
  unfold State.collectByte; split <;> simp

@[simp] theorem State.frameCarried_answer (n : Fin 4) (s : State) :
    (State.frameCarried n s).path.answer = s.path.answer := by
  simp [State.frameCarried]

@[simp] theorem State.closeReceivePage_answer (n : Fin 4) (s : State) :
    (State.closeReceivePage n s).path.answer = s.path.answer := by
  unfold State.closeReceivePage; dsimp only; (repeat' split) <;> simp

@[simp] theorem State.receiveStall_answer (n : Fin 4) (cause : RoomCause) (s : State) :
    (State.receiveStall n cause s).path.answer = s.path.answer := by
  simp [State.receiveStall]

@[simp] theorem State.handLine_answer (n : Fin 4) (l : CollectedLine) (s : State) :
    (State.handLine n l s).path.answer = s.path.answer := by
  simp [State.handLine]

@[simp] theorem State.moveLine_answer (n : Fin 4) (s : State) : (s.moveLine n).path.answer = s.path.answer := by
  unfold State.moveLine
  dsimp only
  split
  · rfl
  · split
    · split
      · simp
      · split
        · rfl
        · split
          · rfl
          · split
            · rename_i e
              simp [State.openPage_answer e]
            · simp
    · rfl

@[simp] theorem State.receiveService_answer (s : State) (n : Fin 4) :
    (State.receiveService s n).path.answer = s.path.answer := by
  unfold State.receiveService; split <;> simp

@[simp] theorem State.placeChecked_answer (n : Fin 4) (s : State) : (s.placeChecked n).path.answer = s.path.answer := by
  unfold State.placeChecked
  split
  · simp
  · dsimp only
    split <;> rename_i h <;> have h' := congrArg (fun x => x.1.path.answer) h <;> simp at h' <;> simp [← h']

@[simp] theorem State.takeReservation_answer (s : State) :
    (State.takeReservation s).path.answer = s.path.answer := by
  unfold State.takeReservation; dsimp only; (repeat' split) <;> simp

@[simp] theorem State.openOutgoing_answer (n : Fin 4) (t : Fin 512) (band : Fin 8) (cls : Nat) (s : State) :
    (State.openOutgoing n t band cls s).path.answer = s.path.answer := by
  simp [State.openOutgoing]

@[simp] theorem State.seize_answer (n : Fin 4) (t : Fin 512) (s : State) :
    (State.seize n t s).path.answer = s.path.answer := by
  simp [State.seize]

@[simp] theorem State.dialDest_answer (n : Fin 4) (t : Fin 512) (cls : Nat) (band : Fin 8) (s : State) :
    (State.dialDest n t cls band s).path.answer = s.path.answer := by
  simp [State.dialDest]

@[simp] theorem State.chooseFor_answer (n : Fin 4) (fuel : Nat) (s : State) :
    (State.chooseFor n fuel s).path.answer = s.path.answer := by
  induction fuel generalizing s with
  | zero => rfl
  | succ k ih => unfold State.chooseFor; dsimp only; (repeat' split) <;> simp [ih]

@[simp] theorem State.serveLine_answer (s : State) (n : Fin 4) :
    (State.serveLine s n).path.answer = s.path.answer := by
  unfold State.serveLine; split <;> simp

@[simp] theorem State.setBlockReason_answer (s : State) (t : Fin 512) :
    (State.setBlockReason s t).path.answer = s.path.answer := by
  unfold State.setBlockReason; dsimp only; (repeat' split) <;> simp

@[simp] theorem State.runArbiter_answer (s : State) :
    (State.runArbiter s).path.answer = s.path.answer := by
  simp [State.runArbiter]

@[simp] theorem State.runDueArbiter_answer (s : State) :
    (State.runDueArbiter s).path.answer = s.path.answer := by
  unfold State.runDueArbiter; split <;> simp

@[simp] theorem State.issueRequests_answer (s : State) :
    (State.issueRequests s).path.answer = s.path.answer := by
  simp [State.issueRequests]

@[simp] theorem State.teardownRewrite_answer (s : State) :
    (State.teardownRewrite s).path.answer = s.path.answer := by
  simp [State.teardownRewrite, State.ringReset]

@[simp] theorem State.endTeardown_answer (s : State) :
    (State.endTeardown s).path.answer = s.path.answer := by
  simp [State.endTeardown]

@[simp] theorem State.teardownAdvance_answer (s : State) :
    (State.teardownAdvance s).path.answer = s.path.answer := by
  unfold State.teardownAdvance; (repeat' split) <;> simp

end Sys2Proof.Machine
end

