-- ==== Sys2Proof/Laws/Held.lean ====
section
/-! SUPPORT. Frame laws of the held access: none of the work at the end of a step touches it, but for the attempts that
complete a held window access; a forwarded access that waits for the port goes on waiting, and none begins to wait. -/

namespace Sys2Proof.Machine

@[simp] theorem foldl_held {α : Type} (F : State → α → State) (hF : ∀ s a, (F s a).path.held = s.path.held) (l : List α)
    (s : State) : (l.foldl F s).path.held = s.path.held := by
  induction l generalizing s with
  | nil => rfl
  | cons a l ih => simp [ih, hF]


@[simp] theorem State.setWindow_held (w : Fin 6) (x : WindowShadow) (s : State) :
    (State.setWindow w x s).path.held = s.path.held := by
  simp [State.setWindow]

@[simp] theorem State.setCtx_held (i : StreamId) (c : LineContext) (s : State) :
    (State.setCtx i c s).path.held = s.path.held := by
  simp [State.setCtx]

@[simp] theorem State.discardJob_held (i : StreamId) (s : State) :
    (State.discardJob i s).path.held = s.path.held := by
  unfold State.discardJob; (repeat' split) <;> simp

@[simp] theorem State.openCtx_held (i : StreamId) (w : Width) (k : Nat) (s : State) :
    (State.openCtx i w k s).path.held = s.path.held := by
  simp [State.openCtx]

@[simp] theorem State.idleCtx_held (i : StreamId) (s : State) :
    (State.idleCtx i s).path.held = s.path.held := by
  simp [State.idleCtx]

@[simp] theorem State.queueJob_held (i : StreamId) (kind : JobKind) (s : State) :
    (State.queueJob i kind s).path.held = s.path.held := by
  unfold State.queueJob; split <;> simp

@[simp] theorem State.takeJob_held (i : StreamId) (kind : JobKind) (s : State) :
    (State.takeJob i kind s).path.held = s.path.held := by
  simp [State.takeJob]

@[simp] theorem State.arbitrateCoder_held (s : State) :
    (State.arbitrateCoder s).path.held = s.path.held := by
  unfold State.arbitrateCoder; (repeat' split) <;> simp

@[simp] theorem State.jobDone_held (i : StreamId) (reference : List Bool) (repeatRun : Nat) (s : State) :
    (State.jobDone i reference repeatRun s).path.held = s.path.held := by
  simp [State.jobDone]

theorem State.takeBlock_held {w : Writer} {s t : State} {b : Nat} (h : s.takeBlock w = some (b, t)) :
    t.path.held = s.path.held := by
  unfold State.takeBlock at h
  split at h
  · split at h
    · contradiction
    · simp only [Option.some.injEq, Prod.mk.injEq] at h
      obtain ⟨_, rfl⟩ := h
      split <;> simp
  · contradiction

@[simp] theorem State.giveBack_held (chain : List Nat) (s : State) :
    (State.giveBack chain s).path.held = s.path.held := by
  simp [State.giveBack]

theorem State.openPage_held {w : Writer} {d : Fin 64} {width : Width} {k : Nat} {s t : State}
    (e : s.openPage w d width k = .ok t) : t.path.held = s.path.held := by
  unfold State.openPage at e
  split at e
  · contradiction
  · split at e
    · contradiction
    · split at e
      · contradiction
      · rename_i b s1 e1
        have h1 := State.takeBlock_held e1
        cases e
        simp [h1]

@[simp] theorem State.placementRefused_held (w : Writer) (p : Fin 512) (s : State) :
    (State.placementRefused w p s).path.held = s.path.held := by
  unfold State.placementRefused; split <;> simp

@[simp] theorem State.placeLine_held (w : Writer) (bytes : List Byte) (concealed : Bool) (s : State) :
    (s.placeLine w bytes concealed).1.path.held = s.path.held := by
  unfold State.placeLine
  split
  · rfl
  · dsimp only
    split
    · rfl
    · split
      · simp
      · split
        · simp
        · split
          · simp
          · rename_i e
            simp [State.takeBlock_held e]

@[simp] theorem State.closePage_held (w : Writer) (flags : CloseFlags) (s : State) :
    (State.closePage w flags s).path.held = s.path.held := by
  unfold State.closePage; (repeat' split) <;> simp [State.beginClosing]

@[simp] theorem State.dropFromList_held (p : Fin 512) (d : Fin 64) (s : State) :
    (State.dropFromList p d s).path.held = s.path.held := by
  simp [State.dropFromList]

@[simp] theorem State.freePage_held (w : Writer) (s : State) :
    (State.freePage w s).path.held = s.path.held := by
  unfold State.freePage; split <;> simp

@[simp] theorem State.releasePage_held (s : State) (p : Fin 512) :
    (State.releasePage s p).path.held = s.path.held := by
  simp [State.releasePage]

@[simp] theorem State.releasePages_held (d : Fin 64) (s : State) :
    (State.releasePages d s).path.held = s.path.held := by
  simp [State.releasePages]

@[simp] theorem State.activate_held (w : Fin 6) (e : PendingWindow) (s : State) :
    (State.activate w e s).path.held = s.path.held := by
  simp [State.activate]

@[simp] theorem State.activatePending_held (w : Fin 6) (s : State) :
    (State.activatePending w s).path.held = s.path.held := by
  unfold State.activatePending; split <;> simp

@[simp] theorem State.dropRead_held (q : Requester) (s : State) :
    (State.dropRead q s).path.held = s.path.held := by
  unfold State.dropRead; (repeat' split) <;> simp

@[simp] theorem State.startServing_held (n : Fin 4) (p : Fin 512) (s : State) :
    (State.startServing n p s).path.held = s.path.held := by
  unfold State.startServing; dsimp only; (repeat' split) <;> simp

@[simp] theorem State.waitPage_held (n : Fin 4) (s : State) :
    (State.waitPage n s).path.held = s.path.held := by
  unfold State.waitPage; split <;> simp

@[simp] theorem State.sendDocEnd_held (n : Fin 4) (s : State) :
    (State.sendDocEnd n s).path.held = s.path.held := by
  simp [State.sendDocEnd]

@[simp] theorem State.seekPage_held (n : Fin 4) (s : State) :
    (State.seekPage n s).path.held = s.path.held := by
  unfold State.seekPage; dsimp only; (repeat' split) <;> simp

@[simp] theorem State.tellSender_held (d : Fin 64) (s : State) (n : Fin 4) :
    (State.tellSender d s n).path.held = s.path.held := by
  unfold State.tellSender; dsimp only; (repeat' split) <;> simp

@[simp] theorem State.tellSenders_held (d : Fin 64) (s : State) :
    (State.tellSenders d s).path.held = s.path.held := by
  simp [State.tellSenders]

@[simp] theorem State.sendService_held (s : State) (n : Fin 4) :
    (State.sendService s n).path.held = s.path.held := by
  unfold State.sendService; dsimp only; (repeat' split) <;> simp

@[simp] theorem State.expandDone_held (n : Fin 4) (s : State) :
    (State.expandDone n s).path.held = s.path.held := by
  unfold State.expandDone; dsimp only; (repeat' split) <;> simp

@[simp] theorem State.printService_held (s : State) :
    (State.printService s).path.held = s.path.held := by
  unfold State.printService; dsimp only; (repeat' split) <;> simp

@[simp] theorem State.decodeDone_held (s : State) :
    (State.decodeDone s).path.held = s.path.held := by
  simp [State.decodeDone]

@[simp] theorem State.checkComplete_held (d : Fin 64) (s : State) :
    (State.checkComplete d s).path.held = s.path.held := by
  unfold State.checkComplete; split <;> simp

@[simp] theorem State.joinPrintQueue_held (d : Fin 64) (s : State) :
    (State.joinPrintQueue d s).path.held = s.path.held := by
  unfold State.joinPrintQueue; split <;> simp

@[simp] theorem State.printDue_held (d : Fin 64) (s : State) :
    (State.printDue d s).path.held = s.path.held := by
  unfold State.printDue; (repeat' split) <;> simp

@[simp] theorem State.endBuilding_held (d : Fin 64) (s : State) :
    (State.endBuilding d s).path.held = s.path.held := by
  unfold State.endBuilding; split <;> simp

@[simp] theorem State.becomeFinal_held (t : Fin 512) (r : DestRecord) (final : DestState) (s : State) :
    (State.becomeFinal t r final s).path.held = s.path.held := by
  simp [State.becomeFinal]

@[simp] theorem State.scanClosed_held (s : State) :
    (State.scanClosed s).path.held = s.path.held := by
  simp [State.scanClosed]

@[simp] theorem State.scanFinish_held (s : State) :
    (State.scanFinish s).path.held = s.path.held := by
  unfold State.scanFinish; dsimp only; (repeat' split) <;> simp

@[simp] theorem State.scanDiscard_held (extra : Nat) (s : State) :
    (State.scanDiscard extra s).path.held = s.path.held := by
  simp [State.scanDiscard]

@[simp] theorem State.scanStarved_held (cause : RoomCause) (s : State) :
    (State.scanStarved cause s).path.held = s.path.held := by
  unfold State.scanStarved; split <;> simp

@[simp] theorem State.scanEndShort_held (s : State) :
    (State.scanEndShort s).path.held = s.path.held := by
  unfold State.scanEndShort; (repeat' split) <;> simp

@[simp] theorem State.scanStarve_held (s : State) :
    (State.scanStarve s).path.held = s.path.held := by
  simp [State.scanStarve]

@[simp] theorem State.scanOpenRefused_held (cause : RoomCause) (s : State) :
    (State.scanOpenRefused cause s).path.held = s.path.held := by
  simp [State.scanOpenRefused]

@[simp] theorem State.scanService_held (s : State) :
    (State.scanService s).path.held = s.path.held := by
  unfold State.scanService; split <;> simp

@[simp] theorem State.scanCutDone_held (s : State) :
    (State.scanCutDone s).path.held = s.path.held := by
  simp [State.scanCutDone]

@[simp] theorem State.scanNextPage_held (s : State) : s.scanNextPage.path.held = s.path.held := by
  unfold State.scanNextPage
  split
  · rfl
  · split
    · exact State.openPage_held (by assumption)
    · simp

@[simp] theorem State.scanPlaced_held (marked : Bool) (s : State) :
    (State.scanPlaced marked s).path.held = s.path.held := by
  unfold State.scanPlaced; (repeat' split) <;> simp

@[simp] theorem State.encodeDone_held (s : State) : s.encodeDone.path.held = s.path.held := by
  unfold State.encodeDone
  dsimp only
  split <;> rename_i h <;> have h' := congrArg (fun x => x.1.path.held) h <;> simp at h' <;> simp [← h']

@[simp] theorem State.receivePageEnd_held (n : Fin 4) (s : State) :
    (State.receivePageEnd n s).path.held = s.path.held := by
  unfold State.receivePageEnd; split <;> simp

@[simp] theorem State.frameByte_held (n : Fin 4) (b : Byte) (s : State) :
    (State.frameByte n b s).path.held = s.path.held := by
  unfold State.frameByte; dsimp only; (repeat' split) <;> simp

@[simp] theorem State.collectByte_held (n : Fin 4) (s : State) (b : Byte) :
    (State.collectByte n s b).path.held = s.path.held := by
  unfold State.collectByte; split <;> simp

@[simp] theorem State.frameCarried_held (n : Fin 4) (s : State) :
    (State.frameCarried n s).path.held = s.path.held := by
  simp [State.frameCarried]

@[simp] theorem State.closeReceivePage_held (n : Fin 4) (s : State) :
    (State.closeReceivePage n s).path.held = s.path.held := by
  unfold State.closeReceivePage; dsimp only; (repeat' split) <;> simp

@[simp] theorem State.receiveStall_held (n : Fin 4) (cause : RoomCause) (s : State) :
    (State.receiveStall n cause s).path.held = s.path.held := by
  simp [State.receiveStall]

@[simp] theorem State.handLine_held (n : Fin 4) (l : CollectedLine) (s : State) :
    (State.handLine n l s).path.held = s.path.held := by
  simp [State.handLine]

@[simp] theorem State.moveLine_held (n : Fin 4) (s : State) : (s.moveLine n).path.held = s.path.held := by
  unfold State.moveLine
  dsimp only
  split
  · rfl
  · split
    · split
      · simp
      · split
        · rfl
        · split
          · rfl
          · split
            · rename_i e
              simp [State.openPage_held e]
            · simp
    · rfl

@[simp] theorem State.receiveService_held (s : State) (n : Fin 4) :
    (State.receiveService s n).path.held = s.path.held := by
  unfold State.receiveService; split <;> simp

@[simp] theorem State.placeChecked_held (n : Fin 4) (s : State) : (s.placeChecked n).path.held = s.path.held := by
  unfold State.placeChecked
  split
  · simp
  · dsimp only
    split <;> rename_i h <;> have h' := congrArg (fun x => x.1.path.held) h <;> simp at h' <;> simp [← h']

@[simp] theorem State.takeReservation_held (s : State) :
    (State.takeReservation s).path.held = s.path.held := by
  unfold State.takeReservation; dsimp only; (repeat' split) <;> simp

@[simp] theorem State.openOutgoing_held (n : Fin 4) (t : Fin 512) (band : Fin 8) (cls : Nat) (s : State) :
    (State.openOutgoing n t band cls s).path.held = s.path.held := by
  simp [State.openOutgoing]

@[simp] theorem State.seize_held (n : Fin 4) (t : Fin 512) (s : State) :
    (State.seize n t s).path.held = s.path.held := by
  simp [State.seize]

@[simp] theorem State.dialDest_held (n : Fin 4) (t : Fin 512) (cls : Nat) (band : Fin 8) (s : State) :
    (State.dialDest n t cls band s).path.held = s.path.held := by
  simp [State.dialDest]

@[simp] theorem State.chooseFor_held (n : Fin 4) (fuel : Nat) (s : State) :
    (State.chooseFor n fuel s).path.held = s.path.held := by
  induction fuel generalizing s with
  | zero => rfl
  | succ k ih => unfold State.chooseFor; dsimp only; (repeat' split) <;> simp [ih]

@[simp] theorem State.serveLine_held (s : State) (n : Fin 4) :
    (State.serveLine s n).path.held = s.path.held := by
  unfold State.serveLine; split <;> simp

@[simp] theorem State.setBlockReason_held (s : State) (t : Fin 512) :
    (State.setBlockReason s t).path.held = s.path.held := by
  unfold State.setBlockReason; dsimp only; (repeat' split) <;> simp

@[simp] theorem State.runArbiter_held (s : State) :
    (State.runArbiter s).path.held = s.path.held := by
  simp [State.runArbiter]

@[simp] theorem State.runDueArbiter_held (s : State) :
    (State.runDueArbiter s).path.held = s.path.held := by
  unfold State.runDueArbiter; split <;> simp

@[simp] theorem State.issueRequests_held (s : State) :
    (State.issueRequests s).path.held = s.path.held := by
  simp [State.issueRequests]

@[simp] theorem State.teardownRewrite_held (s : State) :
    (State.teardownRewrite s).path.held = s.path.held := by
  simp [State.teardownRewrite, State.ringReset]

@[simp] theorem State.endTeardown_held (s : State) :
    (State.endTeardown s).path.held = s.path.held := by
  simp [State.endTeardown]

@[simp] theorem State.teardownAdvance_held (s : State) :
    (State.teardownAdvance s).path.held = s.path.held := by
  unfold State.teardownAdvance; (repeat' split) <;> simp

/-! ## Attempts -/

theorem State.answerHost_waits (a : HostAnswer) (s : State) : (s.answerHost a).path.waitingAccess = none := rfl

theorem PathUnit.waitingAccess_of_held {p q : PathUnit} (h : p.held = q.held) : p.waitingAccess = q.waitingAccess := by
  simp [PathUnit.waitingAccess, h]

theorem State.scanWrite_waits {x : HostWrite} {s t : State} (e : s.scanWrite x = .done t) : t.path.waitingAccess = none := by
  unfold State.scanWrite at e
  dsimp only at e
  repeat' split at e
  all_goals simp only [Attempt.done.injEq, reduceCtorEq] at e
  all_goals subst e
  all_goals first
    | rfl
    | (rw [PathUnit.waitingAccess_of_held (State.scanOpenRefused_held _ _)]; rfl)

theorem State.receiveWrite_waits {n : Fin 4} {x : HostWrite} {s t : State} (e : s.receiveWrite n x = .done t) :
    t.path.waitingAccess = none := by
  unfold State.receiveWrite at e
  (repeat' split at e) <;> first | contradiction | (cases e; rfl)

theorem State.printRead_waits {r : HostRead} {s t : State} (e : s.printRead r = .done t) :
    t.path.waitingAccess = none := by
  unfold State.printRead at e
  split at e
  · cases e; rfl
  · contradiction

theorem State.orKeep_waits {s : State} {a : Attempt} (h : s.path.waitingAccess = none)
    (e : ∀ t, a = .done t → t.path.waitingAccess = none) : (s.orKeep a).path.waitingAccess = s.path.waitingAccess := by
  cases a with
  | done t => rw [h]; exact e t rfl
  | hold => rfl

/-- An access held on a window is no forwarded access that waits. -/
theorem PathUnit.waits_of_reason {p : PathUnit} {h : HeldAccess} (e : p.held = some h) (r : h.reason ≠ .memoryPort) :
    p.waitingAccess = none := by
  simp [PathUnit.waitingAccess, e, r]

@[simp] theorem State.retryHeld_waitingAccess (s : State) : s.retryHeld.path.waitingAccess = s.path.waitingAccess := by
  unfold State.retryHeld
  split
  · rfl
  · rename_i h e
    split
    · exact State.orKeep_waits (PathUnit.waits_of_reason e (by simp [*])) fun t x => State.scanWrite_waits x
    · split
      · exact State.orKeep_waits (PathUnit.waits_of_reason e (by simp [*])) fun t x => State.receiveWrite_waits x
      · rfl
    · exact State.orKeep_waits (PathUnit.waits_of_reason e (by simp [*])) fun t x => State.printRead_waits x
    · rfl

/-- The streams' work makes no forwarded access wait, and ends none that waits. -/
@[simp] theorem State.serviceStreams_waitingAccess (s : State) :
    s.serviceStreams.path.waitingAccess = s.path.waitingAccess := by
  unfold State.serviceStreams
  dsimp only
  rw [PathUnit.waitingAccess_of_held (State.arbitrateCoder_held _),
    PathUnit.waitingAccess_of_held (foldl_held _ (fun s n => State.sendService_held s n) _ _),
    PathUnit.waitingAccess_of_held (State.printService_held _), PathUnit.waitingAccess_of_held (State.scanService_held _),
    State.retryHeld_waitingAccess, PathUnit.waitingAccess_of_held (foldl_held _ (fun s n => State.receiveService_held s n) _ _)]

/-- A forwarded access that waits stays the held access through the streams' work. -/
theorem State.retryHeld_of_waiting {s : State} {a : HostAccess} (h : s.path.waitingAccess = some a) : s.retryHeld = s := by
  unfold State.retryHeld
  unfold PathUnit.waitingAccess at h
  split
  · rfl
  · rename_i x e
    rw [e] at h
    dsimp only at h
    split at h
    · rename_i r
      simp [r]
    · contradiction

end Sys2Proof.Machine
end

