-- ==== Sys2Proof/Laws/Settle.lean ====
section
/-! SUPPORT. What the work at the end of a step (`State.settleStep`) leaves alone: the setting and the books in every state;
the ring outside teardown; page memory while no forwarded access waits. -/

namespace Sys2Proof.Machine

/-! ## The setting -/

theorem State.snoop_setting (w : HostWrite) (s : State) : (s.snoop w).plant.setting = s.plant.setting := by
  unfold State.snoop
  dsimp only
  split
  · simp only [State.snoopMask_plant]
    unfold State.snoopHoldLimit
    dsimp only
    split <;> rfl
  · split
    · simp
    · split
      · simp
      · split <;> simp

theorem State.forwardAccess_setting (a : HostAccess) (s : State) :
    (s.forwardAccess a).plant.setting = s.plant.setting := by
  unfold State.forwardAccess
  split
  · simp
  · dsimp only
    split
    · rw [State.snoop_setting]; rfl
    · rfl

theorem State.startRequest_setting (q : Requester) (kind : PortKind) (addr : Nat) (bytes : List Byte) (s : State) :
    (s.startRequest q kind addr bytes).plant.setting = s.plant.setting := rfl

theorem State.grantStoreWrite_setting (w : Writer) (h : PageInHand) (closing : Bool) (s : State) :
    (s.grantStoreWrite w h closing).plant.setting = s.plant.setting := by
  unfold State.grantStoreWrite
  dsimp only
  rw [State.startRequest_setting, State.setSlot_plant]

theorem State.grantControl_setting (e : QueueEntry) (rest : List QueueEntry) (s : State) :
    (s.grantControl e rest).plant.setting = s.plant.setting := by
  unfold State.grantControl
  dsimp only
  split <;> rfl

theorem State.grantRequest_setting (q : Requester) (s : State) : (s.grantRequest q).plant.setting = s.plant.setting := by
  unfold State.grantRequest
  split
  · split
    · exact State.grantStoreWrite_setting ..
    · rfl
  · rfl
  · split
    · exact State.grantStoreWrite_setting ..
    · rfl
  · split
    · exact State.grantControl_setting ..
    · rfl
  · split <;> rfl

theorem State.grantPort_setting (s : State) : s.grantPort.plant.setting = s.plant.setting := by
  unfold State.grantPort
  split
  · rfl
  · split
    · rfl
    · rw [State.forwardAccess_setting]; rfl
    · exact State.grantRequest_setting ..
    · split
      · rw [State.forwardAccess_setting]; rfl
      · exact State.grantRequest_setting ..

theorem State.ringReset_setting (s : State) : s.ringReset.plant.setting = s.plant.setting := by
  unfold State.ringReset
  simp
  rfl

theorem State.teardownRewrite_setting (s : State) : s.teardownRewrite.plant.setting = s.plant.setting :=
  State.ringReset_setting s

theorem State.endTeardown_setting (s : State) : s.endTeardown.plant.setting = s.plant.setting := by
  unfold State.endTeardown
  simp
  rfl

theorem State.teardownAdvance_setting (s : State) : s.teardownAdvance.plant.setting = s.plant.setting := by
  unfold State.teardownAdvance
  split
  · rfl
  · split
    · rw [State.teardownRewrite_setting, State.runDueArbiter_plant]
    · rfl
  · split
    · exact State.endTeardown_setting s
    · rfl

theorem State.issueRequests_setting (s : State) : s.issueRequests.plant.setting = s.plant.setting := rfl

/-- The end of a step keeps the setting. -/
@[simp] theorem State.settleStep_setting (s : State) : s.settleStep.plant.setting = s.plant.setting := by
  unfold State.settleStep
  dsimp only
  rw [State.issueRequests_setting, State.serviceStreams_plant, State.grantPort_setting, State.issueRequests_setting,
    State.serviceStreams_plant, State.runDueArbiter_plant, State.teardownAdvance_setting]

section Setting

variable {s t : State}

theorem State.pending_of_setting (h : s.plant.setting = t.plant.setting) : s.pending = t.pending :=
  congrArg Setting.pending h
theorem State.resetInput_of_setting (h : s.plant.setting = t.plant.setting) : s.resetInput = t.resetInput :=
  congrArg Setting.resetInput h
theorem State.controlBase_of_setting (h : s.plant.setting = t.plant.setting) : s.path.controlBase = t.path.controlBase :=
  congrArg Setting.controlBase h
theorem State.engine_of_setting (h : s.plant.setting = t.plant.setting) : s.ctl.engine = t.ctl.engine :=
  congrArg Setting.engine h
theorem State.inProgress_of_setting (h : s.plant.setting = t.plant.setting) : s.ctl.inProgress = t.ctl.inProgress :=
  congrArg Setting.inProgress h
theorem State.ringErrors_of_setting (h : s.plant.setting = t.plant.setting) : s.ctl.ringErrors = t.ctl.ringErrors :=
  congrArg Setting.ringErrors h
theorem State.mask_of_setting (h : s.plant.setting = t.plant.setting) : s.ctl.mask = t.ctl.mask :=
  congrArg Setting.mask h
theorem State.lastResult_of_setting (h : s.plant.setting = t.plant.setting) : s.ctl.lastResult = t.ctl.lastResult :=
  congrArg Setting.lastResult h
theorem State.storeBase_of_setting (h : s.plant.setting = t.plant.setting) : s.store.base = t.store.base :=
  congrArg Setting.storeBase h
theorem State.blockCount_of_setting (h : s.plant.setting = t.plant.setting) : s.store.blockCount = t.store.blockCount :=
  congrArg Setting.blockCount h
theorem State.logBase_of_setting (h : s.plant.setting = t.plant.setting) : s.store.logBase = t.store.logBase :=
  congrArg Setting.logBase h
theorem State.reserve_of_setting (h : s.plant.setting = t.plant.setting) : s.store.reserve = t.store.reserve :=
  congrArg Setting.reserve h
theorem State.clockSet_of_setting (h : s.plant.setting = t.plant.setting) : s.charge.clockSet = t.charge.clockSet :=
  congrArg Setting.clockSet h
theorem State.clock_of_setting (h : s.plant.setting = t.plant.setting) : s.charge.clock = t.charge.clock :=
  congrArg Setting.clock h
theorem State.dayOfWeek_of_setting (h : s.plant.setting = t.plant.setting) : s.charge.dayOfWeek = t.charge.dayOfWeek :=
  congrArg Setting.dayOfWeek h
theorem State.dividerDue_of_setting (h : s.plant.setting = t.plant.setting) : s.charge.dividerDue = t.charge.dividerDue :=
  congrArg Setting.dividerDue h
theorem State.calendar_of_setting (h : s.plant.setting = t.plant.setting) : s.charge.calendar = t.charge.calendar :=
  congrArg Setting.calendar h
theorem State.period_of_setting (h : s.plant.setting = t.plant.setting) : s.charge.period = t.charge.period :=
  congrArg Setting.period h
theorem State.grid_of_setting (h : s.plant.setting = t.plant.setting) : s.charge.grid = t.charge.grid :=
  congrArg Setting.grid h
theorem State.prefixes_of_setting (h : s.plant.setting = t.plant.setting) : s.charge.prefixes = t.charge.prefixes :=
  congrArg Setting.prefixes h
theorem State.accounts_of_books (h : s.books = t.books) : s.charge.accounts = t.charge.accounts := congrArg Books.accounts h
theorem State.allotIndex_of_books (h : s.books = t.books) : s.charge.allotIndex = t.charge.allotIndex := congrArg Books.allotIndex h
theorem State.writeIndex_of_books (h : s.books = t.books) : s.charge.writeIndex = t.charge.writeIndex := congrArg Books.writeIndex h
theorem State.readIndex_of_books (h : s.books = t.books) : s.charge.readIndex = t.charge.readIndex := congrArg Books.readIndex h
theorem State.recordQueue_of_books (h : s.books = t.books) : s.charge.recordQueue = t.charge.recordQueue := congrArg Books.recordQueue h
theorem State.now_of_books (h : s.books = t.books) : s.now = t.now := congrArg Books.now h
theorem State.freeCount_of_books (h : s.books = t.books) : s.freeCount = t.freeCount := congrArg Books.freeCount h

end Setting

section Fields

variable (s : State)

@[simp] theorem State.settleStep_pending : s.settleStep.pending = s.pending := State.pending_of_setting s.settleStep_setting
@[simp] theorem State.settleStep_resetInput : s.settleStep.resetInput = s.resetInput := State.resetInput_of_setting s.settleStep_setting
@[simp] theorem State.settleStep_controlBase : s.settleStep.path.controlBase = s.path.controlBase := State.controlBase_of_setting s.settleStep_setting
@[simp] theorem State.settleStep_engine : s.settleStep.ctl.engine = s.ctl.engine := State.engine_of_setting s.settleStep_setting
@[simp] theorem State.settleStep_inProgress : s.settleStep.ctl.inProgress = s.ctl.inProgress := State.inProgress_of_setting s.settleStep_setting
@[simp] theorem State.settleStep_ringErrors : s.settleStep.ctl.ringErrors = s.ctl.ringErrors := State.ringErrors_of_setting s.settleStep_setting
@[simp] theorem State.settleStep_mask : s.settleStep.ctl.mask = s.ctl.mask := State.mask_of_setting s.settleStep_setting
@[simp] theorem State.settleStep_lastResult : s.settleStep.ctl.lastResult = s.ctl.lastResult := State.lastResult_of_setting s.settleStep_setting
@[simp] theorem State.settleStep_storeBase : s.settleStep.store.base = s.store.base := State.storeBase_of_setting s.settleStep_setting
@[simp] theorem State.settleStep_blockCount : s.settleStep.store.blockCount = s.store.blockCount := State.blockCount_of_setting s.settleStep_setting
@[simp] theorem State.settleStep_logBase : s.settleStep.store.logBase = s.store.logBase := State.logBase_of_setting s.settleStep_setting
@[simp] theorem State.settleStep_reserve : s.settleStep.store.reserve = s.store.reserve := State.reserve_of_setting s.settleStep_setting
@[simp] theorem State.settleStep_clockSet : s.settleStep.charge.clockSet = s.charge.clockSet := State.clockSet_of_setting s.settleStep_setting
@[simp] theorem State.settleStep_clock : s.settleStep.charge.clock = s.charge.clock := State.clock_of_setting s.settleStep_setting
@[simp] theorem State.settleStep_dayOfWeek : s.settleStep.charge.dayOfWeek = s.charge.dayOfWeek := State.dayOfWeek_of_setting s.settleStep_setting
@[simp] theorem State.settleStep_dividerDue : s.settleStep.charge.dividerDue = s.charge.dividerDue := State.dividerDue_of_setting s.settleStep_setting
@[simp] theorem State.settleStep_calendar : s.settleStep.charge.calendar = s.charge.calendar := State.calendar_of_setting s.settleStep_setting
@[simp] theorem State.settleStep_period : s.settleStep.charge.period = s.charge.period := State.period_of_setting s.settleStep_setting
@[simp] theorem State.settleStep_grid : s.settleStep.charge.grid = s.charge.grid := State.grid_of_setting s.settleStep_setting
@[simp] theorem State.settleStep_prefixes : s.settleStep.charge.prefixes = s.charge.prefixes := State.prefixes_of_setting s.settleStep_setting
@[simp] theorem State.settleStep_accounts : s.settleStep.charge.accounts = s.charge.accounts := State.accounts_of_books s.settleStep_books
@[simp] theorem State.settleStep_allotIndex : s.settleStep.charge.allotIndex = s.charge.allotIndex := State.allotIndex_of_books s.settleStep_books
@[simp] theorem State.settleStep_writeIndex : s.settleStep.charge.writeIndex = s.charge.writeIndex := State.writeIndex_of_books s.settleStep_books
@[simp] theorem State.settleStep_readIndex : s.settleStep.charge.readIndex = s.charge.readIndex := State.readIndex_of_books s.settleStep_books
@[simp] theorem State.settleStep_recordQueue : s.settleStep.charge.recordQueue = s.charge.recordQueue := State.recordQueue_of_books s.settleStep_books
@[simp] theorem State.settleStep_now : s.settleStep.now = s.now := State.now_of_books s.settleStep_books
@[simp] theorem State.settleStep_freeCount : s.settleStep.freeCount = s.freeCount := State.freeCount_of_books s.settleStep_books
@[simp] theorem State.settleStep_account (a : Fin 32) : s.settleStep.account a = s.account a := by
  simp only [State.account, State.settleStep_accounts]

end Fields

/-! ## The ring outside teardown -/

/-- The ring's part of a plant. -/
def Plant.commandRing (p : Plant) : Option Teardown × BitVec 6 × BitVec 6 × RingState := (p.teardown, p.head, p.takenTail, p.ring)

theorem State.forwardAccess_commandRing (a : HostAccess) (s : State) :
    (s.forwardAccess a).plant.commandRing = s.plant.commandRing := by
  unfold State.forwardAccess
  split
  · simp
  · dsimp only
    split
    · unfold State.snoop
      dsimp only
      split
      · simp only [State.snoopMask_plant]
        unfold State.snoopHoldLimit
        dsimp only
        split <;> rfl
      · split
        · simp; rfl
        · split
          · simp; rfl
          · split
            · simp; rfl
            · rfl
    · rfl

theorem State.grantRequest_commandRing (q : Requester) (s : State) :
    (s.grantRequest q).plant.commandRing = s.plant.commandRing := by
  unfold State.grantRequest
  split
  · split
    · simp [State.grantStoreWrite, State.startRequest, State.plant, Plant.commandRing]
    · rfl
  · rfl
  · split
    · simp [State.grantStoreWrite, State.startRequest, State.plant, Plant.commandRing]
    · rfl
  · split
    · unfold State.grantControl
      dsimp only
      split <;> rfl
    · rfl
  · split <;> rfl

theorem State.grantPort_commandRing (s : State) :
    s.grantPort.plant.commandRing = s.plant.commandRing := by
  unfold State.grantPort
  split
  · rfl
  · split
    · rfl
    · rw [State.forwardAccess_commandRing]; rfl
    · exact State.grantRequest_commandRing ..
    · split
      · rw [State.forwardAccess_commandRing]; rfl
      · exact State.grantRequest_commandRing ..

theorem State.teardown_of_plant {s t : State} (h : s.plant = t.plant) : s.ctl.teardown = t.ctl.teardown :=
  congrArg Plant.teardown h

theorem State.mem_of_plant {s t : State} (h : s.plant = t.plant) : s.mem = t.mem := congrArg Plant.mem h

theorem State.issueRequests_teardown (s : State) : s.issueRequests.ctl.teardown = s.ctl.teardown := rfl

theorem State.issueRequests_commandRing (s : State) : s.issueRequests.plant.commandRing = s.plant.commandRing := rfl

/-- Outside teardown the end of a step keeps the ring and stays outside teardown. -/
theorem State.settleStep_commandRing (s : State) (h : s.ctl.teardown = none) :
    s.settleStep.plant.commandRing = s.plant.commandRing := by
  have h0 : s.teardownAdvance = s := by simp [State.teardownAdvance, h]
  have h1 : (s.runDueArbiter.serviceStreams).plant = s.plant :=
    (State.serviceStreams_plant _).trans (State.runDueArbiter_plant s)
  unfold State.settleStep
  dsimp only
  rw [h0, State.issueRequests_commandRing, State.serviceStreams_plant, State.grantPort_commandRing,
    State.issueRequests_commandRing, h1]

section Ring

variable {s t : State}

theorem State.teardown_of_commandRing (h : s.plant.commandRing = t.plant.commandRing) : s.ctl.teardown = t.ctl.teardown :=
  congrArg (fun x => x.1) h
theorem State.head_of_commandRing (h : s.plant.commandRing = t.plant.commandRing) : s.ctl.head = t.ctl.head :=
  congrArg (fun x => x.2.1) h
theorem State.takenTail_of_commandRing (h : s.plant.commandRing = t.plant.commandRing) : s.ctl.takenTail = t.ctl.takenTail :=
  congrArg (fun x => x.2.2.1) h
theorem State.ring_of_commandRing (h : s.plant.commandRing = t.plant.commandRing) : s.ctl.ring = t.ctl.ring :=
  congrArg (fun x => x.2.2.2) h

end Ring

theorem State.settleStep_teardown (s : State) (h : s.ctl.teardown = none) : s.settleStep.ctl.teardown = none :=
  by
  rw [State.teardown_of_commandRing (s.settleStep_commandRing h), h]
theorem State.settleStep_head (s : State) (h : s.ctl.teardown = none) : s.settleStep.ctl.head = s.ctl.head :=
  State.head_of_commandRing (s.settleStep_commandRing h)
theorem State.settleStep_takenTail (s : State) (h : s.ctl.teardown = none) : s.settleStep.ctl.takenTail = s.ctl.takenTail :=
  State.takenTail_of_commandRing (s.settleStep_commandRing h)
theorem State.settleStep_ring (s : State) (h : s.ctl.teardown = none) : s.settleStep.ctl.ring = s.ctl.ring :=
  State.ring_of_commandRing (s.settleStep_commandRing h)

/-! ## Page memory -/

theorem State.grantRequest_mem (q : Requester) (s : State) : (s.grantRequest q).mem = s.mem := by
  unfold State.grantRequest
  split
  · split
    · simp [State.grantStoreWrite, State.startRequest]
    · rfl
  · rfl
  · split
    · simp [State.grantStoreWrite, State.startRequest]
    · rfl
  · split
    · unfold State.grantControl
      dsimp only
      split <;> rfl
    · rfl
  · split <;> rfl

theorem State.grantPort_mem (s : State) (h : s.path.waitingAccess = none) : s.grantPort.mem = s.mem := by
  unfold State.grantPort
  rw [h]
  split
  · rfl
  · split
    · rfl
    · contradiction
    · exact State.grantRequest_mem ..
    · contradiction

theorem State.teardownRewrite_mem (s : State) : s.teardownRewrite.mem = s.mem := by
  unfold State.teardownRewrite State.ringReset
  simp

theorem State.teardownAdvance_mem (s : State) : s.teardownAdvance.mem = s.mem := by
  unfold State.teardownAdvance
  split
  · rfl
  · split
    · rw [State.teardownRewrite_mem, State.mem_of_plant (State.runDueArbiter_plant s)]
    · rfl
  · split
    · unfold State.endTeardown
      simp
    · rfl

theorem State.issueRequests_mem (s : State) : s.issueRequests.mem = s.mem := rfl

theorem State.issueRequests_waitingAccess (s : State) : s.issueRequests.path.waitingAccess = s.path.waitingAccess := rfl

/-- The forwarded access that waits when the port is granted is the one that waited when the step's end began. -/
theorem State.granted_waitingAccess (s : State) :
    s.teardownAdvance.runDueArbiter.serviceStreams.issueRequests.path.waitingAccess = s.path.waitingAccess := by
  rw [State.issueRequests_waitingAccess, State.serviceStreams_waitingAccess,
    PathUnit.waitingAccess_of_held (State.runDueArbiter_held _), PathUnit.waitingAccess_of_held (State.teardownAdvance_held _)]

/-- While no forwarded access waits, the end of a step leaves page memory as it is. -/
theorem State.settleStep_mem (s : State) (h : s.path.waitingAccess = none) : s.settleStep.mem = s.mem := by
  have h1 := (State.granted_waitingAccess s).trans h
  unfold State.settleStep
  dsimp only
  rw [State.issueRequests_mem, State.mem_of_plant (State.serviceStreams_plant _), State.grantPort_mem _ h1,
    State.issueRequests_mem, State.mem_of_plant (State.serviceStreams_plant _),
    State.mem_of_plant (State.runDueArbiter_plant _), State.teardownAdvance_mem]

end Sys2Proof.Machine
end

