-- ==== Sys2Proof/Laws/Commands.lean ====
section
/-! SUPPORT. What running a ring command and ending a step come to: the laws the row statements begin with. -/

namespace Sys2Proof.Machine

/-- Outside teardown a ring command is executed and its outcome noted (R28, R40). -/
theorem State.runCommand_taken (f : State → Done) {s : State} (h : s.ctl.teardown = none) :
    s.runCommand f = (f s).state.noteResult (f s).result := if_pos h

/-- In teardown no ring command is taken (R40). -/
theorem State.runCommand_teardown (f : State → Done) {s : State} (h : s.ctl.teardown ≠ none) : s.runCommand f = s := if_neg h

section Note

variable (r : CommandResult) (s : State)

@[simp] theorem State.noteResult_lastResult : (s.noteResult r).ctl.lastResult = some r := rfl
@[simp] theorem State.noteResult_queue : (s.noteResult r).ctl.queue = s.ctl.queue := rfl
@[simp] theorem State.noteResult_notices : (s.noteResult r).ctl.notices = s.ctl.notices := rfl
@[simp] theorem State.noteResult_engine : (s.noteResult r).ctl.engine = s.ctl.engine := rfl
@[simp] theorem State.noteResult_teardown : (s.noteResult r).ctl.teardown = s.ctl.teardown := rfl
@[simp] theorem State.noteResult_isPending (f : Notice) : (s.noteResult r).isPending f = s.isPending f := rfl

end Note

/-- A command that only RUNNING takes, in RUNNING (R23). -/
theorem State.inRunning_taken (f : State → Done) {s : State} (h : s.ctl.engine = .running) : s.inRunning f = f s := if_pos h

/-- In PASS it is answered REFUSED and changes nothing (R23, R28). -/
theorem State.inRunning_refused (f : State → Done) {s : State} (h : s.ctl.engine = .pass) :
    s.inRunning f = s.not .refused := by
  simp [State.inRunning, h]

end Sys2Proof.Machine
end

