-- ==== Sys2Proof/Laws/Frames.lean ====
section
/-! SUPPORT. How to show a frame equation `t = { s with … }`: equality of states and of control units field by field, and what
queuing an entry and raising a flag come to as equations. -/

namespace Sys2Proof.Machine

/-- States with equal fields are equal. -/
theorem State.eq_of_fields {s t : State} (pending : s.pending = t.pending) (now : s.now = t.now)
    (freeCount : s.freeCount = t.freeCount) (mem : s.mem = t.mem) (resetInput : s.resetInput = t.resetInput)
    (path : s.path = t.path) (ctl : s.ctl = t.ctl) (store : s.store = t.store) (coder : s.coder = t.coder)
    (scan : s.scan = t.scan) (print : s.print = t.print) (streams : s.streams = t.streams)
    (dispatch : s.dispatch = t.dispatch) (lines : s.lines = t.lines) (charge : s.charge = t.charge) : s = t := by
  cases s
  cases t
  simp_all

/-- Control units with equal fields are equal. -/
theorem ControlUnit.eq_of_fields {c d : ControlUnit} (engine : c.engine = d.engine) (teardown : c.teardown = d.teardown)
    (head : c.head = d.head) (takenTail : c.takenTail = d.takenTail) (ring : c.ring = d.ring)
    (inProgress : c.inProgress = d.inProgress) (ringErrors : c.ringErrors = d.ringErrors)
    (notices : c.notices = d.notices) (mask : c.mask = d.mask) (queue : c.queue = d.queue)
    (lastResult : c.lastResult = d.lastResult) : c = d := by
  cases c
  cases d
  simp_all

/-- Queuing an entry changes the mirror write queue alone, which then holds the entry. -/
theorem State.enqueue_eq (e : QueueEntry) (s : State) :
    s.enqueue e = { s with ctl := { s.ctl with queue := (s.enqueue e).ctl.queue } } := by
  unfold State.enqueue
  split <;> rfl

theorem State.mem_enqueue (e : QueueEntry) (s : State) : e ∈ (s.enqueue e).ctl.queue := by
  unfold State.enqueue
  split <;> simp_all

theorem State.mem_enqueue_of_mem {e : QueueEntry} {s : State} (x : QueueEntry) (h : e ∈ s.ctl.queue) :
    e ∈ (s.enqueue x).ctl.queue := by
  unfold State.enqueue
  split <;> simp_all

theorem Notice.bit_getLsbD (f : Notice) {i : Nat} (hi : i < 12) : f.bit.getLsbD i = decide (i = f.position) := by
  unfold Notice.bit
  generalize f.position = p
  rw [BitVec.getLsbD_shiftLeft]
  simp only [hi, decide_true, Bool.true_and, BitVec.getLsbD_one]
  by_cases hip : i = p
  · subst hip
    simp
  · simp only [hip, decide_false]
    simp
    omega

/-- A flag that is pending has its bit set already. -/
theorem State.or_bit_of_pending {f : Notice} {s : State} (h : s.isPending f = true) : s.ctl.notices ||| f.bit = s.ctl.notices := by
  apply BitVec.eq_of_getLsbD_eq
  intro i hi
  rw [BitVec.getLsbD_or, Notice.bit_getLsbD f hi]
  by_cases e : i = f.position
  · subst e
    unfold State.isPending at h
    simp [h]
  · simp [e]

/-- Raising a flag sets its bit (R30). -/
@[simp] theorem State.raise_notices (f : Notice) (s : State) : (s.raise f).ctl.notices = s.ctl.notices ||| f.bit := by
  unfold State.raise
  split
  · rename_i h
    exact (State.or_bit_of_pending h).symm
  · simp [State.rewrite]

/-- Raising a flag changes the notices and the mirror write queue alone. -/
theorem State.raise_eq (f : Notice) (s : State) :
    s.raise f = { s with ctl := { s.ctl with notices := s.ctl.notices ||| f.bit, queue := (s.raise f).ctl.queue } } := by
  rw [← State.raise_notices f s]
  unfold State.raise
  split
  · rfl
  · unfold State.rewrite
    rw [State.enqueue_eq]

theorem State.mem_raise_of_mem {e : QueueEntry} {s : State} (f : Notice) (h : e ∈ s.ctl.queue) :
    e ∈ (s.raise f).ctl.queue := by
  unfold State.raise
  split
  · exact h
  · exact State.mem_enqueue_of_mem _ h

/-- A rewrite that is due stands in the queue. -/
theorem State.mem_rewriteIf {p : Prop} [Decidable p] (h : p) (r : RecordId) (s : State) :
    QueueEntry.record r ∈ (s.rewriteIf p r).ctl.queue := by
  unfold State.rewriteIf
  rw [if_pos h]
  exact State.mem_enqueue _ _

theorem State.mem_rewriteIf_of_mem {p : Prop} [Decidable p] {e : QueueEntry} {s : State} (r : RecordId)
    (h : e ∈ s.ctl.queue) : e ∈ (s.rewriteIf p r).ctl.queue := by
  unfold State.rewriteIf
  split
  · exact State.mem_enqueue_of_mem _ h
  · exact h

/-- A ring command's row outside teardown, with what its execution gives. -/
theorem State.ring_command_runs {c : Instr} {s : State} {f : State → Done} (h : s.ctl.teardown = none)
    (row : exec c s = s.after (State.runCommand f)) : exec c s = .next ((f s).state.noteResult (f s).result).settleStep := by
  rw [row, State.after, State.runCommand_taken _ h]

end Sys2Proof.Machine
end

