-- ==== Sys2Proof/Laws/Forms.lean ====
section
/-! SUPPORT. Each replacement of a mirrored record as one equation: the record's own field, and a mirror write queue that keeps every
entry it had and gains the record's rewrite when what the mirror shows has changed. -/

namespace Sys2Proof.Machine

/-- The state with another mirror write queue. -/
def State.withQueue (q : List QueueEntry) (s : State) : State := { s with ctl := { s.ctl with queue := q } }

/-- A queue that keeps every entry of another. -/
def Keeps (q r : List QueueEntry) : Prop := ∀ e, e ∈ q → e ∈ r

theorem Keeps.refl (q : List QueueEntry) : Keeps q q := fun _ h => h

theorem Keeps.trans {p q r : List QueueEntry} (h : Keeps p q) (k : Keeps q r) : Keeps p r := fun e he => k e (h e he)

theorem State.enqueue_form (e : QueueEntry) (s : State) :
    ∃ q, s.enqueue e = s.withQueue q ∧ Keeps s.ctl.queue q ∧ e ∈ q :=
  ⟨_, State.enqueue_eq e s, fun _ h => State.mem_enqueue_of_mem e h, State.mem_enqueue e s⟩

theorem State.rewrite_form (r : RecordId) (s : State) :
    ∃ q, s.rewrite r = s.withQueue q ∧ Keeps s.ctl.queue q ∧ QueueEntry.record r ∈ q := State.enqueue_form _ s

theorem State.rewriteIf_form (p : Prop) [Decidable p] (r : RecordId) (s : State) :
    ∃ q, s.rewriteIf p r = s.withQueue q ∧ Keeps s.ctl.queue q ∧ (p → QueueEntry.record r ∈ q) := by
  unfold State.rewriteIf
  split
  · obtain ⟨q, h1, h2, h3⟩ := State.rewrite_form r s
    exact ⟨q, h1, h2, fun _ => h3⟩
  · exact ⟨s.ctl.queue, rfl, Keeps.refl _, fun h => absurd h ‹_›⟩

theorem State.raise_form (f : Notice) (s : State) :
    ∃ q, s.raise f = { s with ctl := { s.ctl with notices := s.ctl.notices ||| f.bit, queue := q } } ∧ Keeps s.ctl.queue q :=
  ⟨_, State.raise_eq f s, fun _ h => State.mem_raise_of_mem f h⟩

theorem State.setPage_form (p : Fin 512) (r : PageRecord) (s : State) :
    ∃ q, s.setPage p r = ({ s with store := { s.store with pages := s.store.pages.set p r } } : State).withQueue q ∧ Keeps s.ctl.queue q ∧
      (r ≠ s.page p → QueueEntry.record (.page p) ∈ q) := by
  unfold State.setPage
  exact State.rewriteIf_form _ _ _

theorem State.setFreeList_form (l : List Nat) (s : State) :
    ∃ q, s.setFreeList l = ({ s with store := { s.store with freeList := l } } : State).withQueue q ∧ Keeps s.ctl.queue q ∧
      (l.length ≠ s.store.freeList.length → QueueEntry.record (.counters) ∈ q) := by
  unfold State.setFreeList
  exact State.rewriteIf_form _ _ _

theorem State.setDoc_form (d : Fin 64) (r : DocRecord) (s : State) :
    ∃ q, s.setDoc d r = ({ s with dispatch := { s.dispatch with docs := s.dispatch.docs.set d r } } : State).withQueue q ∧ Keeps s.ctl.queue q ∧
      (r ≠ s.doc d → QueueEntry.record (.document d) ∈ q) := by
  unfold State.setDoc
  exact State.rewriteIf_form _ _ _

theorem State.setPageList_form (d : Fin 64) (l : List (Fin 512)) (s : State) :
    ∃ q, s.setPageList d l = ({ s with dispatch := { s.dispatch with pageLists := s.dispatch.pageLists.set d l } } : State).withQueue q ∧ Keeps s.ctl.queue q ∧
      (l ≠ s.pageList d → QueueEntry.record (.document d) ∈ q) := by
  unfold State.setPageList
  exact State.rewriteIf_form _ _ _

theorem State.setDest_form (d : Fin 512) (r : DestRecord) (s : State) :
    ∃ q, s.setDest d r = ({ s with dispatch := { s.dispatch with dests := s.dispatch.dests.set d r } } : State).withQueue q ∧ Keeps s.ctl.queue q ∧
      (r ≠ s.dest d → QueueEntry.record (.destination d) ∈ q) := by
  unfold State.setDest
  exact State.rewriteIf_form _ _ _

theorem State.setLine_form (n : Fin 4) (u : LineUnit) (s : State) :
    ∃ q, s.setLine n u = ({ s with lines := s.lines.set n u } : State).withQueue q ∧ Keeps s.ctl.queue q ∧
      (u.record ≠ (s.lineUnit n).record → QueueEntry.record (.line n) ∈ q) := by
  unfold State.setLine
  exact State.rewriteIf_form _ _ _

theorem State.setAccount_form (a : Fin 32) (x : Account) (s : State) :
    ∃ q, s.setAccount a x = ({ s with charge := { s.charge with accounts := s.charge.accounts.set a x } } : State).withQueue q ∧ Keeps s.ctl.queue q ∧
      (x ≠ s.account a → QueueEntry.record (.account a) ∈ q) := by
  unfold State.setAccount
  exact State.rewriteIf_form _ _ _

theorem State.setScan_form (x : ScanStream) (s : State) :
    ∃ q, s.setScan x = ({ s with scan := x } : State).withQueue q ∧ Keeps s.ctl.queue q ∧
      (scanShown x ≠ scanShown s.scan → QueueEntry.record (.stream 0) ∈ q) := by
  unfold State.setScan
  exact State.rewriteIf_form _ _ _

theorem State.setPrint_form (x : PrintStream) (s : State) :
    ∃ q, s.setPrint x = ({ s with print := x } : State).withQueue q ∧ Keeps s.ctl.queue q ∧
      (printShown x ≠ printShown s.print → QueueEntry.record (.stream 1) ∈ q) := by
  unfold State.setPrint
  exact State.rewriteIf_form _ _ _

theorem State.setStream_form (n : Fin 4) (x : LineStream) (s : State) :
    ∃ q, s.setStream n x = ({ s with streams := s.streams.set n x } : State).withQueue q ∧ Keeps s.ctl.queue q ∧
      (lineStreamShown x ≠ lineStreamShown (s.stream n) → QueueEntry.record (.stream (StreamId.index (.line n))) ∈ q) := by
  unfold State.setStream
  exact State.rewriteIf_form _ _ _

theorem State.setWindow_form (w : Fin 6) (x : WindowShadow) (s : State) :
    ∃ q, s.setWindow w x = ({ s with path := { s.path with windows := s.path.windows.set w x } } : State).withQueue q ∧ Keeps s.ctl.queue q ∧
      ((x.active, x.pending, x.status) ≠ ((s.window w).active, (s.window w).pending, (s.window w).status) → QueueEntry.record (.stream w) ∈ q) := by
  unfold State.setWindow
  exact State.rewriteIf_form _ _ _

theorem State.setContext_form (n : Fin 4) (c : Option CallContext) (s : State) :
    ∃ q, s.setContext n c =
        ({ s with charge := { s.charge with contexts := s.charge.contexts.set n c } } : State).withQueue q ∧
      Keeps s.ctl.queue q := by
  have step : ∀ (x : Option CallContext) (t : State), ∃ q, t.rewriteContextAccount x = t.withQueue q ∧ Keeps t.ctl.queue q := by
    intro x t
    unfold State.rewriteContextAccount
    split
    · obtain ⟨q, h1, h2, -⟩ := State.rewrite_form (.account _) t
      exact ⟨q, h1, h2⟩
    · exact ⟨t.ctl.queue, rfl, Keeps.refl _⟩
  unfold State.setContext
  dsimp only
  split
  · exact ⟨s.ctl.queue, rfl, Keeps.refl _⟩
  · obtain ⟨q, h1, h2⟩ := step (s.context n) { s with charge := { s.charge with contexts := s.charge.contexts.set n c } }
    rw [h1]
    obtain ⟨r, k1, k2⟩ := step c
      (({ s with charge := { s.charge with contexts := s.charge.contexts.set n c } } : State).withQueue q)
    exact ⟨r, k1, h2.trans k2⟩

/-! ### A queue change leaves every other field -/

section WithQueue

variable (q r : List QueueEntry) (s : State)

@[simp] theorem State.withQueue_pending : (s.withQueue q).pending = s.pending := rfl
@[simp] theorem State.withQueue_now : (s.withQueue q).now = s.now := rfl
@[simp] theorem State.withQueue_freeCount : (s.withQueue q).freeCount = s.freeCount := rfl
@[simp] theorem State.withQueue_mem : (s.withQueue q).mem = s.mem := rfl
@[simp] theorem State.withQueue_resetInput : (s.withQueue q).resetInput = s.resetInput := rfl
@[simp] theorem State.withQueue_path : (s.withQueue q).path = s.path := rfl
@[simp] theorem State.withQueue_store : (s.withQueue q).store = s.store := rfl
@[simp] theorem State.withQueue_coder : (s.withQueue q).coder = s.coder := rfl
@[simp] theorem State.withQueue_scan : (s.withQueue q).scan = s.scan := rfl
@[simp] theorem State.withQueue_print : (s.withQueue q).print = s.print := rfl
@[simp] theorem State.withQueue_streams : (s.withQueue q).streams = s.streams := rfl
@[simp] theorem State.withQueue_dispatch : (s.withQueue q).dispatch = s.dispatch := rfl
@[simp] theorem State.withQueue_lines : (s.withQueue q).lines = s.lines := rfl
@[simp] theorem State.withQueue_charge : (s.withQueue q).charge = s.charge := rfl
@[simp] theorem State.withQueue_engine : (s.withQueue q).ctl.engine = s.ctl.engine := rfl
@[simp] theorem State.withQueue_teardown : (s.withQueue q).ctl.teardown = s.ctl.teardown := rfl
@[simp] theorem State.withQueue_head : (s.withQueue q).ctl.head = s.ctl.head := rfl
@[simp] theorem State.withQueue_takenTail : (s.withQueue q).ctl.takenTail = s.ctl.takenTail := rfl
@[simp] theorem State.withQueue_ring : (s.withQueue q).ctl.ring = s.ctl.ring := rfl
@[simp] theorem State.withQueue_inProgress : (s.withQueue q).ctl.inProgress = s.ctl.inProgress := rfl
@[simp] theorem State.withQueue_ringErrors : (s.withQueue q).ctl.ringErrors = s.ctl.ringErrors := rfl
@[simp] theorem State.withQueue_notices : (s.withQueue q).ctl.notices = s.ctl.notices := rfl
@[simp] theorem State.withQueue_mask : (s.withQueue q).ctl.mask = s.ctl.mask := rfl
@[simp] theorem State.withQueue_lastResult : (s.withQueue q).ctl.lastResult = s.ctl.lastResult := rfl
@[simp] theorem State.withQueue_queue : (s.withQueue q).ctl.queue = q := rfl
@[simp] theorem State.withQueue_withQueue : (s.withQueue q).withQueue r = s.withQueue r := rfl
@[simp] theorem State.withQueue_page (p : Fin 512) : (s.withQueue q).page p = s.page p := rfl
@[simp] theorem State.withQueue_slot (w : Writer) : (s.withQueue q).slot w = s.slot w := rfl
@[simp] theorem State.withQueue_doc (d : Fin 64) : (s.withQueue q).doc d = s.doc d := rfl
@[simp] theorem State.withQueue_pageList (d : Fin 64) : (s.withQueue q).pageList d = s.pageList d := rfl
@[simp] theorem State.withQueue_dest (d : Fin 512) : (s.withQueue q).dest d = s.dest d := rfl
@[simp] theorem State.withQueue_lineUnit (n : Fin 4) : (s.withQueue q).lineUnit n = s.lineUnit n := rfl
@[simp] theorem State.withQueue_account (a : Fin 32) : (s.withQueue q).account a = s.account a := rfl
@[simp] theorem State.withQueue_context (n : Fin 4) : (s.withQueue q).context n = s.context n := rfl
@[simp] theorem State.withQueue_stream (n : Fin 4) : (s.withQueue q).stream n = s.stream n := rfl
@[simp] theorem State.withQueue_window (w : Fin 6) : (s.withQueue q).window w = s.window w := rfl
@[simp] theorem State.withQueue_ctx (i : StreamId) : (s.withQueue q).ctx i = s.ctx i := rfl

end WithQueue

end Sys2Proof.Machine
end

