-- ==== Sys2Proof/Laws/Memory.lean ====
section
/-! SUPPORT. Laws of page memory: every operation keeps the canonical form, a byte written is read back, every other byte
reads as before, and canonical memories that read alike are equal. -/

namespace Sys2Proof.Machine

theorem Memory.wfFrom_mono {low low' : Nat} {m : List Host.Cell} (h : Memory.wfFrom low m = true) (hl : low' ≤ low) :
    Memory.wfFrom low' m = true := by
  cases m with
  | nil => rfl
  | cons c rest =>
    obtain ⟨k, v⟩ := c
    simp only [Memory.wfFrom, Bool.and_eq_true, decide_eq_true_eq] at h ⊢
    exact ⟨⟨⟨by omega, h.1.1.2⟩, h.1.2⟩, h.2⟩

theorem Memory.wfFrom_cell_append {low a : Nat} {b : Byte} {m : List Host.Cell} (hl : low ≤ a) (ha : a < Config.memoryBytes)
    (h : Memory.wfFrom (a + 1) m = true) : Memory.wfFrom low (Memory.cell a b ++ m) = true := by
  unfold Memory.cell
  split
  · exact Memory.wfFrom_mono h (by omega)
  · rename_i hb
    simp only [List.singleton_append, Memory.wfFrom, Bool.and_eq_true, decide_eq_true_eq]
    exact ⟨⟨⟨hl, ha⟩, hb⟩, h⟩

theorem Memory.wfFrom_write {low a : Nat} {b : Byte} {m : List Host.Cell} (h : Memory.wfFrom low m = true) (hl : low ≤ a)
    (ha : a < Config.memoryBytes) : Memory.wfFrom low (Memory.write m a b) = true := by
  induction m generalizing low with
  | nil =>
    have := Memory.wfFrom_cell_append (b := b) (m := []) hl ha rfl
    simpa [Memory.write] using this
  | cons c rest ih =>
    obtain ⟨k, v⟩ := c
    have h' := h
    simp only [Memory.wfFrom, Bool.and_eq_true, decide_eq_true_eq] at h
    unfold Memory.write
    split
    · refine Memory.wfFrom_cell_append hl ha ?_
      simp only [Memory.wfFrom, Bool.and_eq_true, decide_eq_true_eq]
      exact ⟨⟨⟨by omega, h.1.1.2⟩, h.1.2⟩, h.2⟩
    · split
      · rename_i hk
        exact Memory.wfFrom_cell_append hl ha (hk ▸ h.2)
      · simp only [Memory.wfFrom, Bool.and_eq_true, decide_eq_true_eq]
        exact ⟨h.1, ih h.2 (by omega)⟩

/-- A byte written keeps the canonical form. -/
theorem Memory.wf_write {m : List Host.Cell} (h : Memory.wf m = true) {a : Nat} (ha : a < Config.memoryBytes) (b : Byte) :
    Memory.wf (Memory.write m a b) = true := Memory.wfFrom_write h (Nat.zero_le a) ha

theorem Config.memoryBytes_pos : 0 < Config.memoryBytes := by decide

/-- Bytes written keep the canonical form. -/
theorem Memory.wf_writeBytes {m : List Host.Cell} (h : Memory.wf m = true) (a : Nat) (l : List Byte) :
    Memory.wf (Memory.writeBytes m a l) = true := by
  induction l generalizing m a with
  | nil => exact h
  | cons b rest ih => exact ih (Memory.wf_write h (Nat.mod_lt _ Config.memoryBytes_pos) b) (a + 1)

theorem Memory.read_below {low x : Nat} {m : List Host.Cell} (h : Memory.wfFrom low m = true) (hx : x < low) :
    Memory.read m x = Config.unwrittenByte := by
  induction m generalizing low with
  | nil => rfl
  | cons c rest ih =>
    obtain ⟨k, v⟩ := c
    simp only [Memory.wfFrom, Bool.and_eq_true, decide_eq_true_eq] at h
    simp only [Memory.read]
    rw [if_neg (by omega)]
    exact ih h.2 (by omega)

theorem Memory.read_cell_append {a x : Nat} {b : Byte} {m : List Host.Cell} (h : Memory.wfFrom (a + 1) m = true) :
    Memory.read (Memory.cell a b ++ m) x = if x = a then b else Memory.read m x := by
  unfold Memory.cell
  split
  · rename_i hb
    split
    · rename_i hx
      rw [hb, hx]
      exact Memory.read_below h (by omega)
    · rfl
  · simp only [List.singleton_append, Memory.read]
    by_cases hx : x = a
    · simp [hx]
    · simp [hx, Ne.symm hx]

theorem Memory.read_write_from {low a x : Nat} {b : Byte} {m : List Host.Cell} (h : Memory.wfFrom low m = true) :
    Memory.read (Memory.write m a b) x = if x = a then b else Memory.read m x := by
  induction m generalizing low with
  | nil =>
    have := Memory.read_cell_append (a := a) (x := x) (b := b) (m := []) rfl
    simpa [Memory.write] using this
  | cons c rest ih =>
    obtain ⟨k, v⟩ := c
    have h' := h
    simp only [Memory.wfFrom, Bool.and_eq_true, decide_eq_true_eq] at h
    unfold Memory.write
    split
    · refine Memory.read_cell_append ?_
      simp only [Memory.wfFrom, Bool.and_eq_true, decide_eq_true_eq]
      exact ⟨⟨⟨by omega, h.1.1.2⟩, h.1.2⟩, h.2⟩
    · split
      · rename_i hk
        rw [Memory.read_cell_append (hk ▸ h.2)]
        by_cases hx : x = a
        · simp [hx]
        · simp only [hx, if_false, Memory.read]
          rw [if_neg (by omega)]
      · simp only [Memory.read]
        rw [ih h.2]
        by_cases hx : k = x
        · rw [if_pos hx, if_neg (by omega), if_pos hx]
        · rw [if_neg hx, if_neg hx]

/-- What a byte reads as after one byte is written. -/
theorem Memory.read_write {m : List Host.Cell} (h : Memory.wf m = true) (a x : Nat) (b : Byte) :
    Memory.read (Memory.write m a b) x = if x = a then b else Memory.read m x := Memory.read_write_from h

/-- A byte outside those written reads as before. -/
theorem Memory.read_writeBytes_of_ne {m : List Host.Cell} (h : Memory.wf m = true) {a x : Nat} {l : List Byte}
    (hx : ∀ i, i < l.length → x ≠ byteAt a i) : Memory.read (Memory.writeBytes m a l) x = Memory.read m x := by
  induction l generalizing m a with
  | nil => rfl
  | cons b rest ih =>
    unfold Memory.writeBytes
    rw [ih (Memory.wf_write h (Nat.mod_lt _ Config.memoryBytes_pos) b), Memory.read_write h, if_neg]
    · simpa [byteAt] using hx 0 (by simp)
    · intro i hi
      have := hx (i + 1) (by simpa using hi)
      have e : byteAt a (i + 1) = byteAt (a + 1) i := by simp only [byteAt]; congr 1; omega
      exact e ▸ this

/-- A byte written is read back. -/
theorem Memory.read_writeBytes {m : List Host.Cell} (h : Memory.wf m = true) {a : Nat} {l : List Byte}
    (hl : l.length ≤ Config.memoryBytes) {i : Nat} (hi : i < l.length) :
    Memory.read (Memory.writeBytes m a l) (byteAt a i) = l[i] := by
  induction l generalizing m a i with
  | nil => simp at hi
  | cons b rest ih =>
    unfold Memory.writeBytes
    have hw := Memory.wf_write h (Nat.mod_lt a Config.memoryBytes_pos) b
    cases i with
    | zero =>
      rw [Memory.read_writeBytes_of_ne hw, Memory.read_write h]
      · simp [byteAt]
      · intro j hj
        simp only [List.length_cons] at hl
        simp only [byteAt, Config.memoryBytes] at *
        omega
    | succ j =>
      have e : byteAt a (j + 1) = byteAt (a + 1) j := by simp only [byteAt]; congr 1; omega
      rw [e, ih hw (by simp only [List.length_cons] at hl; omega) (by simpa using hi)]
      simp

/-- Canonical memories that read alike are equal. -/
theorem Memory.eq_of_read {low : Nat} {m n : List Host.Cell} (hm : Memory.wfFrom low m = true)
    (hn : Memory.wfFrom low n = true) (h : ∀ x, Memory.read m x = Memory.read n x) : m = n := by
  induction m generalizing low n with
  | nil =>
    cases n with
    | nil => rfl
    | cons c rest =>
      obtain ⟨k, v⟩ := c
      simp only [Memory.wfFrom, Bool.and_eq_true, decide_eq_true_eq] at hn
      have := h k
      simp only [Memory.read, if_true] at this
      exact absurd this.symm hn.1.2
  | cons c rest ih =>
    obtain ⟨k, v⟩ := c
    cases n with
    | nil =>
      simp only [Memory.wfFrom, Bool.and_eq_true, decide_eq_true_eq] at hm
      have := h k
      simp only [Memory.read, if_true] at this
      exact absurd this hm.1.2
    | cons c' rest' =>
      obtain ⟨k', v'⟩ := c'
      simp only [Memory.wfFrom, Bool.and_eq_true, decide_eq_true_eq] at hm hn
      have hk : k = k' := by
        rcases Nat.lt_trichotomy k k' with hlt | heq | hgt
        · have := h k
          simp only [Memory.read, if_true] at this
          rw [if_neg (by omega), Memory.read_below hn.2 (by omega)] at this
          exact absurd this hm.1.2
        · exact heq
        · have := h k'
          simp only [Memory.read, if_true] at this
          rw [if_neg (by omega), Memory.read_below hm.2 (by omega)] at this
          exact absurd this.symm hn.1.2
      subst hk
      have hv : v = v' := by simpa [Memory.read] using h k
      subst hv
      have hr : rest = rest' := ih hm.2 hn.2 fun x => by
        by_cases hx : k = x
        · subst hx
          rw [Memory.read_below hm.2 (by omega), Memory.read_below hn.2 (by omega)]
        · have := h x
          simpa [Memory.read, hx] using this
      rw [hr]

theorem State.reset_memoryCanonical : State.reset.memoryCanonical := rfl

end Sys2Proof.Machine
end

