-- ==== Sys2Proof/Laws/Rest.lean ====
section
/-! SUPPORT. The part at rest: its streams have nothing to do, so a forwarded access's effect is the whole of its step. -/

namespace Sys2Proof.Machine

/-- No stream has anything to go on with: all are CLOSED, no page is being written, no job is queued, no access is held on a
window. -/
structure State.Quiet (s : State) : Prop where
  streams : ∀ n, (s.stream n).state = .closed
  scan : s.scan.state = .closed
  print : s.print.state = .closed
  slots : ∀ w, (s.slot w).writing = none
  jobs : ∀ i, (s.ctx i).job = .none
  held : ∀ h, s.path.held = some h → h.reason = .memoryPort

theorem State.atRest.quiet {s : State} (h : s.atRest) : s.Quiet := by
  obtain ⟨_, _, h3, _, _, h6, h7, h8, h9, h10⟩ := h
  exact ⟨h8, h6, h7, h9, h10, fun x hx => by simp [h3] at hx⟩

theorem State.receiveService_quiet {s : State} (h : s.Quiet) (n : Fin 4) : s.receiveService n = s := by
  simp [State.receiveService, h.streams n]

theorem State.sendService_quiet {s : State} (h : s.Quiet) (n : Fin 4) : s.sendService n = s := by
  simp [State.sendService, LineStream.serving, h.streams n]

theorem State.retryHeld_quiet {s : State} (h : s.Quiet) : s.retryHeld = s := by
  unfold State.retryHeld
  split
  · rfl
  · rename_i x e
    simp [h.held x e]

theorem State.scanService_quiet {s : State} (h : s.Quiet) : s.scanService = s := by
  simp [State.scanService, WriterSlot.page_none (h.slots .scan)]

theorem State.printService_quiet {s : State} (h : s.Quiet) : s.printService = s := by
  simp [State.printService, h.print]

theorem roundRobin_none (last : Fin 4) (p : Fin 4 → Bool) (h : ∀ n, p n = false) : roundRobin last p = none := by
  simp [roundRobin, h]

theorem State.arbitrateCoder_quiet {s : State} (h : s.Quiet) : s.arbitrateCoder = s := by
  have hj : ∀ i k, s.jobQueued i k = false := fun i k => by simp [State.jobQueued, h.jobs i]
  unfold State.arbitrateCoder
  split
  · rfl
  · rw [roundRobin_none _ _ (fun n => hj _ _), roundRobin_none _ _ (fun n => hj _ _)]
    simp [hj]

/-- The streams of a quiet part do nothing. -/
theorem State.serviceStreams_quiet {s : State} (h : s.Quiet) : s.serviceStreams = s := by
  simp [State.serviceStreams, allLines, State.receiveService_quiet h, State.retryHeld_quiet h, State.scanService_quiet h,
    State.printService_quiet h, State.sendService_quiet h, State.arbitrateCoder_quiet h]

/-- The parts that a snooped write leaves alone beside the plant. -/
def State.workshop (s : State) : StoreManager × Coder × ScanStream × PrintStream × Table LineStream 4 × Option HeldAccess :=
  (s.store, s.coder, s.scan, s.print, s.streams, s.path.held)

theorem State.Quiet.of_workshop {s t : State} (h : s.Quiet) (e : t.workshop = s.workshop) : t.Quiet := by
  simp only [State.workshop, Prod.mk.injEq] at e
  obtain ⟨e1, e2, e3, e4, e5, e6⟩ := e
  exact ⟨fun n => by rw [State.stream, e5]; exact h.streams n, by rw [e3]; exact h.scan, by rw [e4]; exact h.print,
    fun w => by rw [State.slot, e1]; exact h.slots w, fun i => by rw [State.ctx, e2]; exact h.jobs i,
    fun x hx => h.held x (by rw [← e6]; exact hx)⟩

theorem foldl_workshop {α : Type} (F : State → α → State) (hF : ∀ s a, (F s a).workshop = s.workshop) (l : List α) (s : State) :
    (l.foldl F s).workshop = s.workshop := by
  induction l generalizing s with
  | nil => rfl
  | cons a l ih => rw [List.foldl_cons, ih, hF]

theorem State.setWindow_workshop (w : Fin 6) (x : WindowShadow) (s : State) : (s.setWindow w x).workshop = s.workshop := by
  simp [State.workshop]

theorem State.takeWindow_workshop (w : Fin 6) (s : State) : (s.takeWindow w).workshop = s.workshop := by
  unfold State.takeWindow State.activate
  dsimp only
  split <;> exact State.setWindow_workshop ..

theorem State.snoopEntry_workshop (l : List (Nat × Byte)) (s : State) (w : Fin 6) : (s.snoopEntry l w).workshop = s.workshop := by
  unfold State.snoopEntry
  dsimp only
  split
  · rw [State.takeWindow_workshop, State.setWindow_workshop]
  · exact State.setWindow_workshop ..

theorem State.clearNotices_workshop (b : BitVec 12) (s : State) : (s.clearNotices b).workshop = s.workshop := by
  unfold State.clearNotices
  split
  · rfl
  · simp [State.workshop, State.rewrite]

theorem State.enqueue_workshop (e : QueueEntry) (s : State) : (s.enqueue e).workshop = s.workshop := by
  simp [State.workshop]

theorem State.snoopHoldLimit_workshop (l : List (Nat × Byte)) (s : State) : (s.snoopHoldLimit l).workshop = s.workshop := by
  unfold State.snoopHoldLimit
  dsimp only
  split <;> rfl

theorem State.snoop_workshop (w : HostWrite) (s : State) : (s.snoop w).workshop = s.workshop := by
  unfold State.snoop
  dsimp only
  split
  · unfold State.snoopMask
    split
    · rw [State.enqueue_workshop, State.snoopHoldLimit_workshop]
    · exact State.snoopHoldLimit_workshop ..
  · split
    · exact foldl_workshop _ (fun s w => State.snoopEntry_workshop _ s w) _ _
    · split
      · unfold State.snoopTail
        split
        · exact State.enqueue_workshop ..
        · rfl
      · split
        · exact State.clearNotices_workshop ..
        · rfl

/-- A forwarded access that is carried out leaves a quiet part quiet. -/
theorem State.forwardAccess_quiet {s : State} (h : s.Quiet) (acc : HostAccess) : (s.forwardAccess acc).Quiet := by
  have ha : ∀ (m : List Host.Cell) (x : HostAnswer), (({ s with mem := m } : State).answerHost x).Quiet := fun m x =>
    ⟨h.streams, h.scan, h.print, h.slots, h.jobs, fun y hy => by cases hy⟩
  unfold State.forwardAccess
  split
  · exact ha _ _
  · dsimp only
    split
    · exact (ha _ _).of_workshop (State.snoop_workshop ..)
    · exact ha _ _

/-- Carrying out an access does not depend on what was held. -/
theorem State.forwardAccess_held (s : State) (x : Option HeldAccess) (acc : HostAccess) :
    ({ s with path := { s.path with held := x } } : State).forwardAccess acc = s.forwardAccess acc := rfl

/-- The effect of a forwarded access at rest is all that its step does, but for the requests queued, the store
writes among them, and the passed-over count. -/
theorem State.forwarded_atRest {s : State} (h : s.atRest) {acc : HostAccess} (hf : s.sortAccess acc = .forward) :
    ∃ (t : State) (k : Nat) (l l' : List Requester) (q q' : Table (Option StoreWrite) 5),
      t = ({ s with path := { s.path with passedOver := k, requests := l, storeWrites := q } } : State).forwardAccess acc ∧
      (s.hostAccess acc).settleStep = { t with path := { t.path with requests := l', storeWrites := q' } } := by
  have hr := h
  obtain ⟨h1, h2, h3, h4, h5, -⟩ := h
  have e1 : s.hostAccess acc = s.hold acc none .memoryPort := by
    unfold State.hostAccess
    rw [h3]
    simp only [hf]
  obtain ⟨s1, hs1⟩ : ∃ s1, s1 = s.hold acc none .memoryPort := ⟨_, rfl⟩
  have q1 : s1.Quiet := by
    have hq := hr.quiet
    subst hs1
    exact ⟨hq.streams, hq.scan, hq.print, hq.slots, hq.jobs, fun x hx => by cases hx; rfl⟩
  have t1 : s1.teardownAdvance = s1 := by
    have : s1.ctl.teardown = none := by subst hs1; exact h1
    simp [State.teardownAdvance, this]
  have a1 : s1.runDueArbiter = s1 := by
    have : s1.dispatch.arbiterDue = false := by subst hs1; exact h2
    simp [State.runDueArbiter, this]
  obtain ⟨l, hl⟩ : ∃ l, l = s1.issueRequests.path.requests := ⟨_, rfl⟩
  obtain ⟨b, hb⟩ : ∃ b, b = s1.issueRequests.path.storeWrites := ⟨_, rfl⟩
  have i1 : s1.issueRequests = { s1 with path := { s1.path with requests := l, storeWrites := b } } := by rw [hl, hb]; rfl
  have g1 : ∃ k, s1.issueRequests.grantPort = (s1.issueRequests.setPassedOver k).forwardAccess acc := by
    rw [i1]
    have hp : s1.path.port = none := by subst hs1; exact h4
    have hw : s1.path.waitingAccess = some acc := by subst hs1; rfl
    have hk : s1.path.passedOver < Config.passedOverLimit := by subst hs1; exact h5
    have hw' : ({ s1 with path := { s1.path with requests := l, storeWrites := b } } : State).path.waitingAccess = some acc := hw
    unfold State.grantPort
    rw [hw']
    dsimp only
    rw [hp]
    dsimp only
    cases l with
    | nil => exact ⟨0, rfl⟩
    | cons q rest =>
      dsimp only
      rw [if_pos hk]
      exact ⟨_, rfl⟩
  obtain ⟨k, g1⟩ := g1
  have q2 : ((s1.issueRequests.setPassedOver k).forwardAccess acc).Quiet := by
    apply State.forwardAccess_quiet
    rw [i1]
    exact ⟨q1.streams, q1.scan, q1.print, q1.slots, q1.jobs, q1.held⟩
  obtain ⟨t, ht⟩ : ∃ t, t = (s1.issueRequests.setPassedOver k).forwardAccess acc := ⟨_, rfl⟩
  rw [← ht] at q2 g1
  refine ⟨t, k, l, t.issueRequests.path.requests, b, t.issueRequests.path.storeWrites, ?_, ?_⟩
  · rw [ht, i1, hs1]
    rfl
  · rw [e1, ← hs1]
    unfold State.settleStep
    dsimp only
    rw [t1, a1, State.serviceStreams_quiet q1, g1, State.serviceStreams_quiet q2]
    rfl

end Sys2Proof.Machine
end

