-- ==== Sys2Proof/Laws/Rules.lean ====
section
/-! SUPPORT. The small laws the row statements cite: tables, index operands, how a ring command's answer is shown, and the charge
unit's judgements (the period in force, the not-before times, an account's budget) as equations, and which bytes of a read
are a sent page's. -/

namespace Sys2Proof

namespace Table

variable {α : Type} {n : Nat}

theorem set_set (t : Table α n) (i : Fin n) (x y : α) : (t.set i x).set i y = t.set i y := by
  apply Table.ext_get
  intro j
  simp only [Table.get_set]
  split <;> rfl

theorem set_get (t : Table α n) (i : Fin n) : t.set i (t.get i) = t := by
  apply Table.ext_get
  intro j
  simp only [Table.get_set]
  split
  · rename_i e
    rw [e]
  · rfl

theorem any_eq_true (t : Table α n) (p : α → Bool) : t.any p = true ↔ ∃ i, p (t.get i) = true := by
  unfold Table.any
  rw [List.any_eq_true]
  constructor
  · rintro ⟨x, hx, hp⟩
    obtain ⟨i, hi, rfl⟩ := List.getElem_of_mem hx
    exact ⟨⟨i, by rw [t.size] at hi; exact hi⟩, by simpa [Table.get] using hp⟩
  · rintro ⟨i, hi⟩
    exact ⟨_, List.get_mem _ _, hi⟩

end Table

namespace Machine

/-! ## Operands and answers -/

theorem indexBelow_of_le {n k : Nat} (h : n ≤ k) : indexBelow n k = none := dif_neg (by omega)

theorem indexBelow_of_eq {n k : Nat} (a : Fin n) (h : k = a.val) : indexBelow n k = some a := by
  subst h
  exact dif_pos a.isLt

/-- A ring command that is executed: what its execution gives is what the row leaves. -/
theorem State.ring_command_leaves {c : Instr} {s : State} {P : State → Prop} (f : State → Done) (h : s.ctl.teardown = none)
    (row : exec c s = s.after (State.runCommand f)) {d : Done} (hd : f s = d) (hp : P (d.state.noteResult d.result)) :
    ∃ t, exec c s = .next t.settleStep ∧ P t := by
  refine ⟨_, ?_, hp⟩
  rw [row, State.after, State.runCommand_taken _ h, hd]

/-- A ring command that changes nothing: only its outcome is noted. -/
theorem State.ring_command_answers {c : Instr} {s : State} {f : State → Done} {code : ResultCode} {data : List Byte}
    (h : s.ctl.teardown = none) (row : exec c s = s.after (State.runCommand f))
    (hd : f s = { state := s, code := code, data := data }) :
    exec c s = .next (s.noteResult ⟨code, data⟩).settleStep := by
  rw [row, State.after, State.runCommand_taken _ h, hd]
  rfl

/-- A line unit replaced with its record unchanged queues nothing. -/
theorem State.setLine_of_record_eq {n : Fin 4} {u : LineUnit} {s : State} (h : u.record = (s.lineUnit n).record) :
    s.setLine n u = { s with lines := s.lines.set n u } := by
  simp [State.setLine, State.rewriteIf, h]

theorem State.setStream_of_shown_eq {n : Fin 4} {x : LineStream} {s : State} (h : lineStreamShown x = lineStreamShown (s.stream n)) :
    s.setStream n x = { s with streams := s.streams.set n x } := by
  simp [State.setStream, State.rewriteIf, h]

theorem State.setPrint_of_shown_eq {x : PrintStream} {s : State} (h : printShown x = printShown s.print) :
    s.setPrint x = { s with print := x } := by
  simp [State.setPrint, State.rewriteIf, h]

theorem State.setScan_of_shown_eq {x : ScanStream} {s : State} (h : scanShown x = scanShown s.scan) :
    s.setScan x = { s with scan := x } := by
  simp [State.setScan, State.rewriteIf, h]

/-! ## The charge unit's judgements -/

/-- The period in force is the one the calendar and the clock give, CLOCK raised when it changes (R177). -/
theorem State.judgePeriod_form (s : State) :
    ∃ q, s.judgePeriod = { s with
        charge := { s.charge with period := s.charge.judged },
        ctl := { s.ctl with
          queue := q,
          notices :=
            if s.charge.judged = s.charge.period then s.ctl.notices else s.ctl.notices ||| Notice.clock.bit } } ∧
      Keeps s.ctl.queue q := by
  unfold State.judgePeriod
  split
  · rename_i h
    refine ⟨s.ctl.queue, ?_, Keeps.refl _⟩
    rw [h]
  · obtain ⟨q, e, k, -⟩ :=
      State.rewrite_form .tariff { s with charge := { s.charge with period := s.charge.judged } }
    rw [e]
    obtain ⟨q2, e2, k2⟩ :=
      State.raise_form .clock (State.withQueue q { s with charge := { s.charge with period := s.charge.judged } })
    exact ⟨q2, e2, k.trans k2⟩

/-- Judging the not-before times may raise CLOCK and make the line arbiter due, and changes nothing else (R175). -/
theorem State.judgeNotBefore_form (old : Option ClockValue) (s : State) :
    ∃ q n b, s.judgeNotBefore old = { s with
        dispatch := { s.dispatch with arbiterDue := b }, ctl := { s.ctl with queue := q, notices := n } } ∧
      Keeps s.ctl.queue q ∧ (n = s.ctl.notices ∨ n = s.ctl.notices ||| Notice.clock.bit) := by
  unfold State.judgeNotBefore
  split
  · obtain ⟨q, e, k⟩ := State.raise_form .clock s
    rw [e]
    exact ⟨q, _, true, rfl, k, .inr rfl⟩
  · exact ⟨_, _, _, rfl, Keeps.refl _, .inl rfl⟩

/-- The context of one line under the policy of an account. -/
def State.policedContext (a : Fin 32) (x : Account) (n : Fin 4) (s : State) : Option CallContext :=
  (s.context n).map fun c => if c.account = a then c.policed x s.now else c

/-- The account's policy acts on one line's context alone (R187). -/
theorem State.police_form (a : Fin 32) (n : Fin 4) (s : State) :
    ∃ q, s.police a n = State.withQueue q { s with
        charge := { s.charge with contexts := s.charge.contexts.set n (s.policedContext a (s.account a) n) } } ∧
      Keeps s.ctl.queue q := by
  have same : s.policedContext a (s.account a) n = s.context n →
      s.charge.contexts.set n (s.policedContext a (s.account a) n) = s.charge.contexts := by
    intro h
    rw [h]
    exact Table.set_get _ _
  unfold State.police
  split
  · rename_i c hc
    split
    · rename_i ha
      obtain ⟨q, e, k⟩ := State.setContext_form n (some (c.policed (s.account a) s.now)) s
      exact ⟨q, by rw [e, State.policedContext, hc]; simp [ha], k⟩
    · rename_i ha
      refine ⟨s.ctl.queue, ?_, Keeps.refl _⟩
      rw [same (by simp [State.policedContext, hc, ha])]
      rfl
  · rename_i hc
    refine ⟨s.ctl.queue, ?_, Keeps.refl _⟩
    rw [same (by simp [State.policedContext, hc])]
    rfl

/-- An account as judged: at budget exactly when its budget is not 0 and is reached (R187). -/
def Account.judgedAccount (x : Account) : Account := { x with atBudget := x.overBudget }

/-- Judging an account's budget sets its at-budget flag, raises BUDGET as the flag rises, and lets the policy act on the
contexts that name it; the line arbiter may be due (R187). -/
theorem State.judgeBudget_form (a : Fin 32) (s : State) :
    ∃ q contexts due, s.judgeBudget a = { s with
        charge := { s.charge with
          accounts := s.charge.accounts.set a (s.account a).judgedAccount, contexts := contexts },
        dispatch := { s.dispatch with arbiterDue := due },
        ctl := { s.ctl with
          queue := q,
          notices :=
            if (s.account a).atBudget = false ∧ (s.account a).overBudget = true
            then s.ctl.notices ||| Notice.budget.bit else s.ctl.notices } } ∧
      Keeps s.ctl.queue q ∧ ∀ n, contexts.get n = s.policedContext a (s.account a).judgedAccount n := by
  obtain ⟨x, hx⟩ : ∃ x, x = s.account a := ⟨_, rfl⟩
  obtain ⟨y, hy⟩ : ∃ y, y = x.judgedAccount := ⟨_, rfl⟩
  rw [← hx, ← hy]
  unfold State.judgeBudget
  dsimp only
  rw [← hx, show ({ x with atBudget := x.overBudget } : Account) = y from hy.symm]
  obtain ⟨q, e, k, -⟩ := State.setAccount_form a y s
  rw [e]
  obtain ⟨t, ht⟩ : ∃ t : State, t = { s with charge := { s.charge with accounts := s.charge.accounts.set a y } } := ⟨_, rfl⟩
  rw [← ht]
  obtain ⟨d, hd⟩ : ∃ d, (if x.atBudget = x.overBudget then t.withQueue q else (t.withQueue q).askArbiter) =
      State.withQueue q { t with dispatch := { t.dispatch with arbiterDue := d } } := by
    split
    · exact ⟨t.dispatch.arbiterDue, rfl⟩
    · exact ⟨true, rfl⟩
  rw [hd]
  obtain ⟨u, hu⟩ : ∃ u : State, u = { t with dispatch := { t.dispatch with arbiterDue := d } } := ⟨_, rfl⟩
  rw [← hu]
  obtain ⟨q1, e1, k1⟩ : ∃ q1, (if x.atBudget = false ∧ x.overBudget = true then (u.withQueue q).raise .budget else u.withQueue q) =
      { u with ctl := { u.ctl with
        queue := q1,
        notices := if x.atBudget = false ∧ x.overBudget = true then u.ctl.notices ||| Notice.budget.bit else u.ctl.notices } } ∧
      Keeps q q1 := by
    split
    · obtain ⟨q2, e2, k2⟩ := State.raise_form .budget (u.withQueue q)
      exact ⟨q2, e2, k2⟩
    · exact ⟨q, rfl, Keeps.refl _⟩
  rw [e1]
  simp only [allLines, List.foldl]
  obtain ⟨r1, f1, l1⟩ := State.police_form a 0 _
  rw [f1]
  obtain ⟨r2, f2, l2⟩ := State.police_form a 1 _
  rw [f2]
  obtain ⟨r3, f3, l3⟩ := State.police_form a 2 _
  rw [f3]
  obtain ⟨r4, f4, l4⟩ := State.police_form a 3 _
  rw [f4, hu, ht]
  refine ⟨r4, _, d, rfl, k.trans (k1.trans (l1.trans (l2.trans (l3.trans l4)))), ?_⟩
  intro n
  fin_cases n <;> simp [Table.get_set, State.context, State.account, State.policedContext]

/-! ## The bytes of a page that is sent (R18, R44, R144) -/

/-- Of a read that brings the page's END-OF-PAGE, the page's bytes are those up to it. -/
theorem LineStream.pageBytes_of_end {x : LineStream} {bytes new : List Byte}
    (h : throughPageEnd x.inExtension (x.readAhead ++ bytes) = some (x.readAhead ++ new)) : x.pageBytes bytes = new := by
  simp [LineStream.pageBytes, h]

/-- Of a read that brings none, all its bytes are the page's. -/
theorem LineStream.pageBytes_of_none {x : LineStream} {bytes : List Byte}
    (h : throughPageEnd x.inExtension (x.readAhead ++ bytes) = none) : x.pageBytes bytes = bytes := by
  simp [LineStream.pageBytes, h]

/-- A read ends the page with its END-OF-PAGE, or at the byte count. -/
theorem LineStream.readsEnd_iff (x : LineStream) (bytes : List Byte) (byteCount : Nat) :
    x.readsEnd bytes byteCount = true ↔
      (∃ l, throughPageEnd x.inExtension (x.readAhead ++ bytes) = some l) ∨ x.readPos + bytes.length = byteCount := by
  simp [LineStream.readsEnd, Option.isSome_iff_exists]

end Machine

end Sys2Proof
end

