-- ==== Sys2Proof/Tests/Slice0.lean ====
section
/-! SUPPORT. Tests: terms the well-formedness check refuses; for every statement that has hypotheses, a state and operands
that meet them, each clause at a boundary of its range (`test_premises_…`); and one small run of each command (`test_runs_…`). -/

open Sys2Proof Sys2Proof.Machine

namespace Sys2Proof.Tests

set_option Elab.async false

/-! ## Small states -/

/-- RUNNING: the control region at 0, a store of 64 blocks at 4 MiB, the log at 5 MiB, an empty mirror write queue. -/
def running : State :=
  { State.reset with
    ctl := { State.reset.ctl with engine := .running, queue := [] },
    store := { State.reset.store with base := 0x400000, blockCount := 64, logBase := 0x500000, freeList := List.range 64 } }

/-- Reset teardown is present. -/
def inTeardown : State := { running with ctl := { running.ctl with teardown := some .storeWork } }

/-- The state a command leads to. -/
def after (c : Instr) (s : State) : State :=
  match exec c s with
  | .next t => t
  | _ => s

/-- The result code and data of a ring command. -/
def resultOf (c : Instr) (s : State) : Option CommandResult := (after c s).ctl.lastResult

/-- Nothing but a result code. -/
def answers (code : ResultCode) : Option CommandResult := some ⟨code, []⟩

/-- A request has the memory port. -/
def onPort (q : Requester) (kind : PortKind) (addr : Nat) (bytes : List Byte) (s : State) : State :=
  { s with path := { s.path with port := some ⟨q, kind, addr, bytes⟩ } }

/-- A window of 256 bytes at 8 MiB. -/
def withWindow (w : Fin 6) (s : State) : State :=
  s.setWindow w { WindowShadow.powerOn with active := ⟨0x800000, 1⟩, status := .active }

/-- An access is held on a window. -/
def withHeld (a : HostAccess) (w : Fin 6) (why : HoldReason) (s : State) : State :=
  { s with path := { s.path with held := some { access := a, window := some w, reason := why, start := 0, limit := 40 } } }

/-- A job is on the engine. -/
def withJob (i : StreamId) (kind : JobKind) (s : State) : State :=
  (({ s with coder := { s.coder with engine := some ⟨i, kind, true⟩ } } : State).setCtx i
    { LineContext.powerOn with
      isOpen := true, reference := List.replicate 1536 false, job := .running kind })

/-- A requester's request is the next that the free port takes, with another behind it. -/
def asks (q : Requester) (s : State) : State := { s with path := { s.path with requests := [q, .print], port := none } }

/-- The mirror write queue holds an entry before the counters. -/
def queued (e : QueueEntry) (s : State) : State := { s with ctl := { s.ctl with queue := [e, .record .counters] } }

/-- Reset teardown waits for some requests. -/
def rewriting (left : Nat) (s : State) : State := { s with ctl := { s.ctl with teardown := some (.rewriting left) } }

/-- The mirror write queue is empty. -/
def drained (s : State) : State := { s with ctl := { s.ctl with queue := [] } }

/-- A writer's store write that is queued. -/
def issued (w : Writer) (q : StoreWrite) (s : State) : State :=
  { s with path := { s.path with requests := [w.requester], storeWrites := s.path.storeWrites.set w.index (some q) } }

/-- A write of bytes into the window of `withWindow`, and a read of it. -/
def windowWrite (size : AccessSize) (data : BitVec 32) : HostWrite := ⟨0x800000, size, data⟩
def windowRead (size : AccessSize) : HostRead := ⟨0x800000, size⟩

/-- An outgoing document that still builds, one that does not, and one that is COMPLETE. -/
def building : DocRecord := { DocRecord.empty with inUse := true, building := true }
def built : DocRecord := { DocRecord.empty with inUse := true }
def completed : DocRecord := { DocRecord.empty with inUse := true, complete := true, dests := [3] }

/-- A destination of document 0. -/
def dest (x : DestState) : DestRecord := { DestRecord.empty with inUse := true, number := [.digit 5], state := x }

/-- A CLOSED page of document 0 with one line, in block 0; and one being written. -/
def closedPage : PageRecord :=
  { PageRecord.empty with state := .closed, position := 1, lineCount := 1, byteCount := 4, chain := [0], check := 0x1234 }
def writtenPage : PageRecord := { closedPage with state := .writing, byteCount := 1020 }

/-- The scan stream's page 0 being written in document 0; line 0's likewise. -/
def scanWrites (s : State) : State :=
  ((s.setPage 0 writtenPage).setPageList 0 [0]).setSlot .scan ⟨some ⟨0, [], 0xFFFF⟩, none, none⟩
def lineWrites (s : State) : State :=
  ((s.setPage 0 { writtenPage with writer := .line 0 }).setPageList 0 [0]).setSlot (.line 0) ⟨some ⟨0, [], 0xFFFF⟩, none, none⟩

/-- The scan and print streams in a state. -/
def scanIn (x : ScanState) : ScanStream := { ScanStream.powerOn with state := x }
def printIn (x : PrintState) : PrintStream := { PrintStream.powerOn with state := x, copy := 1, position := 1 }

/-- Line stream 0 open for sending page 0, and for receiving. -/
def sending (x : LineStreamState) : LineStream :=
  { LineStream.powerOn with direction := .send, state := x, takesRepeat := true, check := some 0xFFFF }
def receiving : LineStream := { LineStream.powerOn with direction := .receive, state := .open, callDoc := some 0 }

/-- A line in a state, with a direction setting. -/
def line (x : LineState) (d : LineDirection) : LineUnit :=
  { LineUnit.powerOn with
    record := { LineRecord.powerOn with
      state := x, disabledReason := .none, active := { LineSettings.powerOn with direction := d } } }

/-- A line with an outgoing call to destination 3. -/
def calling (x : LineState) : LineUnit :=
  { line x .both with record := { (line x .both).record with callDirection := .out, destination := some 3 } }

/-- An outgoing call's context on account 1. -/
def context : CallContext :=
  { account := 1, incoming := false, destination := none, document := none, number := [.digit 5], cls := 1, band := 0,
    method := .meter, phase := .charging, seizeTime := ⟨0, 0⟩, clockWasSet := false, answerTime := none, answeredAt := none,
    units := 0, qualified := 0, rejected := 0, pagesConfirmed := 0, unitTimer := none, graceTimer := none }

/-- A charge record of the context's account. -/
def record : ChargeRecord :=
  { index := 0, line := 0, incoming := false, account := 1, code := 0, document := none, number := [.digit 5], band := 0,
    method := .meter, seizeTime := ⟨0, 0⟩, endTime := ⟨0, 0⟩, answerTime := none, timeValid := false, seconds := 0,
    units := 0, cause := .normal, pagesConfirmed := 0, rejected := 0 }

/-! ## Well-formed terms -/

/-- One byte too large for its size, and the largest that fits. -/
def tooBig : HostWrite := ⟨0, .one, 256⟩
def fits : HostWrite := ⟨0, .one, 255⟩

theorem test_illFormed_hostForwardedAccess : (Instr.hostForwardedAccess (.write tooBig)).wellFormed = false := by decide
theorem test_illFormed_closedWindowAccess : (Instr.closedWindowAccess (.write tooBig)).wellFormed = false := by decide
theorem test_illFormed_wrongDirectionWindowAccess :
    (Instr.wrongDirectionWindowAccess (.write tooBig)).wellFormed = false := by decide
theorem test_illFormed_holdLimitWrite : (Instr.holdLimitWrite tooBig).wellFormed = false := by decide
theorem test_illFormed_noticeMaskWrite : (Instr.noticeMaskWrite tooBig).wellFormed = false := by decide
theorem test_illFormed_windowTableWrite : (Instr.windowTableWrite tooBig).wellFormed = false := by decide
theorem test_illFormed_tailWordWrite : (Instr.tailWordWrite tooBig).wellFormed = false := by decide
theorem test_illFormed_acknowledgeWrite : (Instr.acknowledgeWrite tooBig).wellFormed = false := by decide
theorem test_illFormed_controlAreaDrop : (Instr.controlAreaDrop tooBig).wellFormed = false := by decide
theorem test_illFormed_storeLogWriteDrop : (Instr.storeLogWriteDrop tooBig).wellFormed = false := by decide
theorem test_illFormed_scanWindowWrite : (Instr.scanWindowWrite tooBig).wellFormed = false := by decide
theorem test_illFormed_receiveWindowWrite : (Instr.receiveWindowWrite tooBig).wellFormed = false := by decide
theorem test_illFormed_unknownCommand : (Instr.unknownCommand 0x38).wellFormed = false := by decide
theorem test_illFormed_meterPulseJudged : (Instr.meterPulseJudged 0 0).wellFormed = false := by decide
theorem test_wellFormed_atTheBounds :
    (Instr.hostForwardedAccess (.write fits)).wellFormed = true ∧ (Instr.scanWindowWrite ⟨0, .two, 65535⟩).wellFormed = true ∧
      (Instr.scanWindowWrite ⟨0, .two, 65536⟩).wellFormed = false ∧ (Instr.unknownCommand 0x09).wellFormed = true ∧
      (Instr.meterPulseJudged 3 1).wellFormed = true := by decide

/-! ## Words the manual gives -/

/-- The page check of a page whose only byte is 0x00 (R16). -/
theorem test_pageCheck_ofOneZero : foldByte checkStart 0 = 0x5348 := by decide
/-- No word spells a command. -/
theorem test_noWordSpellsACommand : decodeTableWord 8 0x01 = none := rfl

/-! ## Premises: the part as a whole -/

theorem test_premises_EndOfStepKeeps :
    State.reset.path.waitingAccess = none ∧ State.reset.ctl.teardown = none ∧ State.reset.pending = [] := by decide +kernel

/-- A page of a line; scan pages with a line and with none; pages closing and none; requests, records, rewrites and the input
waited for, and none of them. -/
theorem test_premises_ResetInputStartsTeardown :
    let waits (x : WriterSlot) : State := inTeardown.setSlot (.line 3) x
    State.reset.ctl.teardown = none ∧ inTeardown.ctl.teardown = some .storeWork ∧
      ((lineWrites running).slot (.line 0)).page = some ⟨0, [], 0xFFFF⟩ ∧
      ((scanWrites running).slot .scan).page = some ⟨0, [], 0xFFFF⟩ ∧ ((scanWrites running).page 0).lineCount ≠ 0 ∧
      ((scanWrites running).slot .scan).closing = none ∧ (((scanWrites running).setPage 0 PageRecord.empty).page 0).lineCount = 0 ∧
      inTeardown.storeQuiet = true ∧ (waits ⟨none, none, some ⟨0, [], 0⟩⟩).storeQuiet = false ∧
      (waits ⟨some ⟨0, [], 0⟩, none, none⟩).storeQuiet = false ∧
      (rewriting 0 running).ctl.teardown = some (.rewriting 0) ∧ (rewriting 0 running).charge.recordQueue = [] ∧
      running.resetInput = false ∧ (rewriting 1 running).ctl.teardown = some (.rewriting 1) ∧
      ({ running with charge := { running.charge with recordQueue := [record] } } : State).charge.recordQueue ≠ [] ∧
      ({ running with resetInput := true } : State).resetInput = true ∧
      (drained running).ctl.queue = [] ∧ (drained running).path.port = none ∧
      QueueEntry.record .counters ∈ (queued .maskRead running).ctl.queue := by
  decide +kernel

/-- RESET waits for a rewrite that is queued and for one on the port, and for no other request (R40). -/
theorem test_resetWaitsForTheMirrors :
    (drained running).mirrorsWritten = true ∧ (queued .maskRead running).mirrorsWritten = false ∧
      (onPort .control (.recordWrite .counters) 0 [] (drained running)).mirrorsWritten = false ∧
      (onPort .control .maskRead 0 [] (drained running)).mirrorsWritten = true := by decide +kernel

theorem test_premises_RaiseSetsAFlag :
    State.reset.isPending .reset = false ∧ (State.reset.raise .reset).isPending .reset = true ∧
      Notice.command ≠ Notice.reset := by decide +kernel

theorem test_premises_MemoryStaysCanonical : State.reset.memoryCanonical ∧ ∃ u, step State.reset = .next u := ⟨rfl, _, rfl⟩

/-- Both bounds of the hold limit and of the passed-over count. -/
theorem test_premises_PathStaysBounded :
    (State.reset.pathBounded ∧ ∃ u, step State.reset = .next u) ∧
      ({ State.reset with path := { State.reset.path with holdLimit := 2, passedOver := 8 } } : State).pathBounded ∧
      ({ State.reset with path := { State.reset.path with holdLimit := 250 } } : State).pathBounded := by
  refine ⟨⟨?_, _, rfl⟩, ?_, ?_⟩ <;> (unfold State.pathBounded; decide +kernel)

theorem test_premises_OneRequestOfEachRequester :
    (State.reset.oneRequestEach ∧ ∃ u, step State.reset = .next u) ∧
      (onPort .control .tailRead 0x400 [0, 0, 0, 0] { State.reset with
        path := { State.reset.path with requests := [.scan, .charge] } }).oneRequestEach := by
  refine ⟨⟨⟨List.nodup_nil, fun p h => by cases h⟩, _, rfl⟩, by decide, ?_⟩
  intro p h
  cases h
  decide

/-- The four kinds of write that a request on the port makes. -/
theorem test_premises_MemoryChangedByWritesAlone :
    Instr.pageCut.access = none ∧ Instr.pageCut.completesWrite = false ∧ State.reset.path.waitingAccess = none ∧
      ∀ k ∈ [PortKind.storeWrite .scan 0 true, .recordWrite .counters, .resultWrite, .chargeWrite],
        let s := onPort .control k 0x3FFFFFF [1, 2] running
        k.completion.completesWrite = true ∧ Memory.wf s.mem = true ∧ s.path.waitingAccess = none ∧
          s.path.port = some ⟨.control, k, 0x3FFFFFF, [1, 2]⟩ ∧ [1, 2].length ≤ Config.memoryBytes := by decide +kernel

/-- A rewrite to be granted: with no host access waiting, and with one that eight have passed; one that completes. -/
theorem test_premises_MemoryChangedByWritesAlone_grant :
    let s : State := asks .control (queued (.record (.page 511)) running)
    let passed : State := { s with path := { s.path with
      passedOver := 8, held := some { access := .read ⟨0, .one⟩, window := none, reason := .memoryPort, start := 0, limit := 2 } } }
    s.grantsNext .control ∧ passed.grantsNext .control ∧ s.ctl.queue = .record (.page 511) :: [.record .counters] ∧
      (onPort .control (.recordWrite .statusWords) 0x404 [1] s).path.port =
        some ⟨.control, .recordWrite .statusWords, 0x404, [1]⟩ :=
  ⟨⟨rfl, rfl, .inl rfl⟩, ⟨rfl, rfl, .inr (by decide)⟩, rfl, rfl⟩

/-! ## Premises: host accesses -/

/-- The treatment of writes at the edges of every area of R1, R2 and R3. -/
theorem test_premises_AccessesAreSortedByAddress :
    ([0x403, 0x404, 0x40B, 0x40C, 0x82F, 0x830, 0xFFF, 0x1000, 0x1FFF, 0x2000, 0x597F, 0x5980, 0x5A00, 0x5A7F, 0x5A80,
        0x6000, 0x64FF, 0x6500, 0x8000, 0xFFFF].map fun (a : Addr) =>
      decide ((withWindow 5 running).sortAccess (.write ⟨a, .one, 0⟩) = .controlDrop)) =
      [false, true, true, false, false, true, true, false, false, true, true, false, true, true, false,
        true, true, false, true, true] ∧
    ([0x10000, 0x3FFFFF, 0x400000, 0x40FFFF, 0x410000, 0x4FFFFF, 0x500000, 0x50FFFF, 0x510000, 0x7FFFFF, 0x800000,
        0x8000FF, 0x800100, 0x3FFFFFF].map fun (a : Addr) => (withWindow 5 running).sortAccess (.write ⟨a, .one, 0⟩)) =
      [.forward, .forward, .storeDrop, .storeDrop, .forward, .forward, .logDrop, .logDrop, .forward, .forward, .window 5,
        .window 5, .forward, .forward] ∧
    (withWindow 5 running).sortAccess (.read ⟨0x400000, .four⟩) = .forward := by decide +kernel

/-- With the passed-over count at its last value below 8, in every row that carries a forwarded access. -/
theorem test_premises_ForwardedAccess :
    (∀ c ∈ [Instr.hostForwardedAccess (.write ⟨0x10000, .four, 7⟩), .holdLimitWrite ⟨0, .four, 7⟩,
        .noticeMaskWrite ⟨4, .four, 7⟩, .windowTableWrite ⟨0x100, .four, 7⟩, .tailWordWrite ⟨0x400, .four, 7⟩,
        .acknowledgeWrite ⟨0x40C, .four, 7⟩],
      c.access.any (fun a => decide (State.reset.sortAccess a = .forward)) = true) ∧
    State.reset.sortAccess (.read ⟨0x404, .four⟩) = .forward ∧ Memory.wf State.reset.mem = true ∧
    State.reset.path.held = none ∧ State.reset.path.port = none ∧
    ({ State.reset with path := { State.reset.path with passedOver := 7 } } : State).path.passedOver < 8 ∧
    (onPort .control .tailRead 0x400 [0, 0, 0, 0] State.reset).path.port = some ⟨.control, .tailRead, 0x400, [0, 0, 0, 0]⟩ ∧
    (onPort .control .tailRead 0x400 [0, 0, 0, 0] State.reset).sortAccess (.read ⟨0x404, .four⟩) = .forward := by
  decide +kernel

/-- An access and requests that wait for the free port, each alone and both, with 7 and with 8 accesses granted before. -/
theorem test_premises_ForwardedAccess_arbiter :
    let waits (passed : Nat) (requests : List Requester) (s : State) : State := { s with path := { s.path with
      held := some { access := .read ⟨0x404, .four⟩, window := none, reason := .memoryPort, start := 0, limit := 40 },
      passedOver := passed, requests := requests } }
    running.path.port = none ∧ running.path.requests = [] ∧ running.path.waitingAccess = none ∧
      (waits 0 [] running).path.waitingAccess = some (.read ⟨0x404, .four⟩) ∧ (waits 0 [] running).path.requests = [] ∧
      (waits 7 [.control] State.reset).path.requests = .control :: [] ∧
      (waits 7 [.control] State.reset).path.passedOver < 8 ∧ 8 ≤ (waits 8 [.control] State.reset).path.passedOver ∧
      State.reset.wantsPort .control = true ∧
      (onPort .control .tailRead 0x400 [0] running).path.port = some ⟨.control, .tailRead, 0x400, [0]⟩ := by decide +kernel

/-- Reset and RUNNING are at rest. -/
theorem test_atRest : State.reset.atRest ∧ running.atRest := by
  refine ⟨⟨rfl, rfl, rfl, rfl, by decide, rfl, rfl, by decide +kernel, ?_, ?_⟩,
    rfl, rfl, rfl, rfl, by decide, rfl, rfl, by decide +kernel, ?_, ?_⟩ <;>
  · intro i
    cases i with
    | line n => revert n; decide +kernel
    | _ => decide +kernel

/-- The words' first and last bytes; a write below the mask field that reaches into it, and one that ends before it. -/
theorem test_premises_ControlWritesAreSnooped :
    (∀ j ∈ [0, 3], j < 4) ∧ (4 < 1 + AccessSize.four.bytes ∧ 4 < 4 + AccessSize.one.bytes ∧
      4 < 7 + AccessSize.one.bytes ∧ ¬(4 < 0 + AccessSize.four.bytes)) ∧
      (3 : Addr).toNat = State.reset.path.controlBase.toNat + 3 ∧
      (0x403 : Addr).toNat = State.reset.path.controlBase.toNat + 0x0400 + 3 ∧
      (0x40F : Addr).toNat = State.reset.path.controlBase.toNat + 0x040C + 3 ∧
      HostWrite.wellFormed ⟨0x40F, .one, 255⟩ = true := by decide +kernel

/-- The first and last entry, in PASS and in RUNNING; sizes 0, 1, 8 and 9. -/
theorem test_premises_WindowEntryIsTaken :
    (0x100 : Addr).toNat = State.reset.path.controlBase.toNat + 0x0100 + 16 * (0 : Fin 6).val ∧
      (0x15C : Addr).toNat = State.reset.path.controlBase.toNat + 0x010C + 16 * (5 : Fin 6).val ∧
      running.entryRefused 0x800000 0 = false ∧ running.entryRefused 0x800000 8 = false ∧
      running.entryRefused 0x800000 9 = true ∧ running.entryRefused 0x3FFF00 1 = false ∧
      running.entryRefused 0x400000 1 = true ∧ State.reset.entryRefused 0x400000 1 = false ∧
      running.entryRefused 0x510000 1 = false ∧ running.entryRefused 0x50FF00 1 = true ∧
      State.reset.entryRefused 0xFF00 1 = true ∧ State.reset.entryRefused 0x10000 1 = false := by decide +kernel

/-- A stream that is not CLOSED and one that is, in RUNNING; the teardown state; a window with a pending entry. -/
theorem test_premises_WindowEntryIsTaken_open :
    running.ctl.engine = .running ∧ (running.setScan (scanIn .open)).isClosed (windowStream 0) = false ∧
      running.isClosed (windowStream 5) = true ∧ inTeardown.ctl.teardown ≠ none ∧ (running.window 0).pending = none ∧
      ((running.setWindow 5 { WindowShadow.powerOn with pending := some ⟨0x800000, 8, false⟩ }).window 5).pending =
        some ⟨0x800000, 8, false⟩ := by decide +kernel

theorem test_premises_DroppedWritesAreCounted :
    running.path.held = none ∧ running.sortAccess (.write ⟨0x404, .four, 0⟩) = .controlDrop ∧
      running.sortAccess (.write ⟨0x40FFFF, .one, 0⟩) = .storeDrop ∧
      running.sortAccess (.write ⟨0x500000, .one, 0⟩) = .logDrop ∧ running.path.controlDrops < 4294967295 := by
  decide +kernel

/-- A CLOSED stream, and the wrong direction of each of the four kinds of open stream. -/
theorem test_premises_VoidWindowAccess :
    (∀ w ∈ [(0 : Fin 6), 1, 5], (withWindow w running).sortAccess (.read (windowRead .one)) = .window w ∧
      (withWindow w running).isClosed (windowStream w) = true) ∧
    windowStream 0 = .scan ∧ windowStream 1 = .print ∧ windowStream 2 = .line 0 ∧
    (isWrite (.write (windowWrite .one 0)) = true ↔ (sending .open).direction ≠ .receive) ∧
    (isWrite (.read (windowRead .one)) = true ↔ receiving.direction ≠ .receive) := by decide +kernel

/-- The scan stream with room for one byte more. -/
def nearlyFull : ScanStream :=
  { scanIn .open with bufferA := .full (List.replicate 192 0), bufferB := .filling (List.replicate 191 0) }

theorem test_premises_ScanWindowWrites :
    let s (x : ScanStream) : State := withWindow 0 (running.setScan x)
    (∀ x ∈ [scanIn .starved, scanIn .closing, scanIn .cutting, scanIn .open],
      (s x).path.held = none ∧ (s x).sortAccess (.write (windowWrite .two 0)) = .window 0) ∧
    ((scanWrites (s nearlyFull)).slot .scan).writing ≠ none ∧ nearlyFull.room < AccessSize.two.bytes ∧
    AccessSize.one.bytes ≤ nearlyFull.room ∧
    ((scanWrites (s (scanIn .open))).slot .scan).page ≠ none ∧
    (((s (scanIn .open)).setSlot .scan ⟨some ⟨0, [], 0⟩, some {}, some ⟨1, [1], 0⟩⟩).slot .scan).asked ≠ none ∧
    ((s (scanIn .open)).slot .scan).writing = none ∧ AccessSize.four.bytes ≤ (scanIn .open).room ∧
    (match (s (scanIn .open)).openPage .scan 0 .narrow 0 with
      | .ok _ => true
      | .error _ => false) = true ∧
    (match ((s (scanIn .open)).setFreeList (List.range 32)).openPage .scan 0 .narrow 0 with
      | .ok _ => none
      | .error cause => some cause) = some .block := by decide +kernel

/-- No page entry FREE. -/
def pagesTaken : State := { running with store := { running.store with pages := Table.replicate 512 closedPage } }

/-- 199 and 200 pages; no free entry; the free count at the reserve and one above it. -/
theorem test_premises_PageOpens :
    (200 ≤ ((running.setPageList 0 (List.replicate 200 0)).pageList 0).length ∧
      ((running.setPageList 0 (List.replicate 199 0)).pageList 0).length < 200) ∧
    (∀ p, (pagesTaken.page p).state ≠ .free) ∧
    (running.page 511).state = .free ∧ (running.setFreeList []).freeBlocks = 0 ∧
    (running.setFreeList (List.range 32)).freeBlocks ≤ running.store.reserve ∧
    ¬((running.setFreeList (List.range 33)).freeBlocks = 0 ∨
      (Writer.scan = .scan ∧ (running.setFreeList (List.range 33)).freeBlocks ≤ running.store.reserve)) ∧
    ¬((running.setFreeList [7]).freeBlocks = 0 ∨
      (Writer.line 3 = .scan ∧ (running.setFreeList [7]).freeBlocks ≤ running.store.reserve)) :=
  ⟨by decide +kernel, fun p => by rw [pagesTaken, State.page, Table.get_replicate]; decide, by decide +kernel⟩

/-- A receive stream STALLED, with a line waiting, and OPEN with 1,022 bytes collected; the largest short run. -/
theorem test_premises_ReceiveWindowWrites :
    let s (x : LineStream) : State := withWindow 2 (lineWrites ((running.setStream 0 x).openCtx (.line 0) .narrow 0))
    let full : LineStream :=
      { receiving with collecting := { Collecting.empty with bytes := List.replicate 1022 0 } }
    (∀ x ∈ [{ receiving with state := .stalled }, receiving, full],
      (s x).path.held = none ∧ (s x).sortAccess (.write (windowWrite .one 0xF1)) = .window (StreamId.index (.line 0))) ∧
    ({ receiving with waiting := some ⟨[], false, false⟩ } : LineStream).waiting ≠ none ∧
    full.waiting = none ∧ full.pageEnd = false ∧ full.carried = [] ∧ full.collecting.inExtension = false ∧
    full.collecting.overflow = false ∧ full.collecting.bytes.length + 1 < 1024 ∧ (191 : BitVec 32).toNat % 256 < 192 ∧
    (0xF1 : BitVec 32).toNat % 256 = 0xF1 ∧ full.checkBuffer = none ∧ (s full).codedQueue (.line 0) ≤ 1024 ∧
    ((s full).slot (.line 0)).page ≠ none ∧ ((s full).ctx (.line 0)).isOpen = true ∧
    ((s full).ctx (.line 0)).job = .none := by decide +kernel

/-- A collection of 1,022, of 1,023 and of 1,024 bytes, with an extension due and without; a page end, pending and not; a
waiting line with no page written, where a page is opened and where the store refuses it. -/
theorem test_premises_ReceiveWindowWrites_framing :
    let c (k : Nat) (e o : Bool) : Collecting :=
      { Collecting.empty with bytes := List.replicate k 5, inExtension := e, overflow := o }
    let ended : LineStream := { receiving with pageEnd := true }
    let l : CollectedLine := ⟨[0xC6, 0, 0xF1], false, false⟩
    let waits : LineStream := { receiving with waiting := some l, carried := [0xF2, 5] }
    let s : State := running.setStream 0 waits
    ((c 1022 false false).overflow = false ∧
      ¬((c 1022 false false).bytes.length + 1 = 1024 ∧ ((0 : Byte) ≠ 0xF1 ∨ (c 1022 false false).inExtension = true))) ∧
    ((c 1023 false false).bytes.length + 1 = 1024 ∧ (0 : Byte) ≠ 0xF1 ∧ (c 1023 true false).inExtension = true) ∧
    ¬((c 1023 false false).bytes.length + 1 = 1024 ∧ ((0xF1 : Byte) ≠ 0xF1 ∨ (c 1023 false false).inExtension = true)) ∧
    (c 1024 true true).overflow = true ∧ (c 0 false false).bytes = [] ∧ (c 1 false false).bytes ≠ [] ∧
    receiving.state = .open ∧ ({ receiving with state := .stalled } : LineStream).state ≠ .open ∧
    receiving.direction = .receive ∧ receiving.waiting = none ∧ waits.waiting = some l ∧
    (ended.pageEnd = true ∧ ended.checkBuffer = none ∧ ((lineWrites running).slot (.line 0)).page = some ⟨0, [], 0xFFFF⟩ ∧
      ((lineWrites running).slot (.line 0)).closing = none) ∧ ¬(receiving.pageEnd = true ∧ receiving.checkBuffer = none) ∧
    ({ waits with checkBuffer := some l } : LineStream).checkBuffer ≠ none ∧
    1024 < (running.setSlot (.line 0) ⟨some ⟨0, List.replicate 1025 0, 0⟩, none, none⟩).codedQueue (.line 0) ∧
    (running.setSlot (.line 0) ⟨none, none, some ⟨0, List.replicate 1024 0, 0⟩⟩).codedQueue (.line 0) ≤ 1024 ∧
    waits.checkBuffer = none ∧ s.codedQueue (.line 0) ≤ 1024 ∧ (s.slot (.line 0)).writing = none ∧ waits.callDoc = some 0 ∧
    (match s.openPage (.line 0) 0 .narrow 0 with
      | .ok _ => true
      | .error _ => false) = true ∧
    (match (s.setFreeList []).openPage (.line 0) 0 .narrow 0 with
      | .ok _ => none
      | .error cause => some cause) = some .block := by decide +kernel

theorem test_premises_PrintWindowReads :
    let s (x : PrintStream) : State := withWindow 1 (running.setPrint x)
    let ready (l : List Byte) : PrintStream := { printIn .open with bufferA := .ready l 0, lineCount := 1 }
    (∀ x ∈ [printIn .pageEnd, printIn .docEnd, printIn .open, { printIn .open with waiting := true }, ready [1, 2], ready [1]],
      (s x).path.held = none ∧ (s x).sortAccess (.read (windowRead .one)) = .window 1) ∧
    (printIn .open).buffer (printIn .open).first = .empty ∧
    ({ printIn .open with bufferA := .decoding } : PrintStream).buffer .a = .decoding ∧
    (ready [1, 2]).buffer (ready [1, 2]).first = .ready [1, 2] 0 ∧ AccessSize.one.bytes < [1, 2].length := by decide +kernel

/-- Reads of two bytes over a line's end into the other buffer, over the page's end, and where the second byte is not decoded;
a page of 0 lines. -/
theorem test_premises_PrintWindowReads_bytes :
    let s (lines : Nat) (b : DecodedBuffer) : State := withWindow 1 (running.setPrint
      { printIn .open with bufferA := .ready [1] 191, bufferB := b, lineCount := lines })
    let read (s : State) : Option (List Byte) := (s.servePrint AccessSize.two.bytes).map (fun y => y.1)
    ((s 2 (.ready [2, 3] 0)).path.held = none ∧ (s 2 .empty).print.state ≠ .closed ∧
      (s 2 (.ready [2, 3] 0)).sortAccess (.read (windowRead .two)) = .window 1) ∧
    read (s 2 (.ready [2, 3] 0)) = some [1, 2] ∧ read (s 1 .empty) = some [1, 0] ∧ read (s 2 .empty) = none ∧
    (s 1 .empty).servePrintByte.isSome = true ∧ ((running.setPrint (printIn .open)).servePrintByte).isNone = true ∧
    ((running.setPage 9 { closedPage with lineCount := 0 }).page 9).lineCount = 0 := by decide +kernel

theorem test_premises_SendWindowReads :
    let s (x : LineStream) : State := withWindow 2 ((running.setPage 0 closedPage).setStream 0 x)
    let ahead (l : List Byte) : LineStream := { sending .open with readAhead := l, readPos := 4 }
    (∀ x ∈ [sending .open, sending .pageEnd, ahead [5, 0xF1]],
      (s x).path.held = none ∧ (s x).sortAccess (.read (windowRead .one)) = .window (StreamId.index (.line 0)) ∧
        x.direction ≠ .receive ∧ x.state ≠ .closed) ∧
    (sending .pageEnd).serving = false ∧ (sending .open).serving = true ∧ sendByte (sending .open) = none ∧
    (ahead [191, 0xF1]).serving = true ∧ (ahead [191, 0xF1]).takesRepeat = true ∧ (ahead [191, 0xF1]).inExtension = false ∧
    (191 : Byte).toNat < 192 := by decide +kernel

/-- Each byte at the edges of the token codes; a line one byte short of the least and at it; the lines of a stream whose
far end does not take REPEAT; the END-OF-PAGE to be served OPEN and DRAINING; a stored line to be expanded. -/
theorem test_premises_SendWindowReads_serving :
    let ahead (l : List Byte) : LineStream := { sending .open with readAhead := l }
    let plain (l : List Byte) (ready : List ReadyLine) : LineStream := { ahead l with takesRepeat := false, ready := ready }
    let least : LineStream := { ahead [0xF1] with minLine := 3, served := 1 }
    let atLeast : LineStream := { ahead [0xF1] with minLine := 3, served := 2 }
    let expands : State := (running.setStream 0 (plain [0xF0, 0xF1] [])).openCtx (.line 0) .narrow 0
    let edges : List (Byte × Bool) := [(0xBF, false), (0xC0, true), (0xEF, true), (0xF0, false)]
    (edges.map fun x => decide (0xC0 ≤ x.1.toNat ∧ x.1.toNat ≤ 0xEF)) = edges.map (·.2) ∧
      ((0xBF : Byte).toNat < 0xC0 ∧ 0xF4 ≤ (0xF4 : Byte).toNat ∧ 0xF4 ≤ (0xFF : Byte).toNat) ∧
      ((ahead [0xC0]).readAhead = 0xC0 :: [] ∧ (ahead [0xC0, 0]).readAhead = 0xC0 :: [0]) ∧
      ({ ahead [0xF3] with inExtension := true } : LineStream).inExtension = true ∧
      (least.readAhead = 0xF1 :: [] ∧ least.served + 1 < least.minLine ∧ atLeast.minLine ≤ atLeast.served + 1) ∧
      ((ahead [0xF2]).readAhead = 0xF2 :: [] ∧ (ahead [0xF3, 7]).readAhead = 0xF3 :: [7] ∧ (ahead []).readAhead = []) ∧
      (plain [] [⟨[1, 2], 3⟩]).ready = ⟨1 :: 2 :: [], 3⟩ :: [] ∧ (plain [] [⟨[1], 3⟩]).ready = ⟨[1], 3⟩ :: [] ∧
      ((plain [0xF3, 7] []).takesRepeat = false ∧ (plain [0xF3, 7] []).ready = [] ∧
        (plain [0xF3, 7] []).readAhead = 0xF3 :: [7]) ∧
      (plain [0xF0, 0xF1] []).nextStored ≠ none ∧
      sendByte (ahead [5]) = some (5, { ahead [5] with readAhead := [], served := 1 }, false) ∧
      sendByte (ahead [0xF3]) = some (0xF3, { ahead [0xF3] with readAhead := [] }, true) ∧ (ahead [0xF3]).state = .open ∧
      ({ ahead [0xF3] with state := .draining, drain := .serving } : LineStream).serving = true ∧
      ((expands.stream 0).serving = true ∧ (expands.ctx (.line 0)).isOpen = true ∧ (expands.ctx (.line 0)).job = .none) := by
  decide +kernel

theorem test_premises_HoldExpires :
    (withHeld (.write (windowWrite .one 5)) 2 .receiveFull running).path.held =
      some { access := .write (windowWrite .one 5), window := some 2, reason := .receiveFull, start := 0, limit := 40 } := by
  decide +kernel

/-! ## Premises: completions -/

/-- A tail of 0 to 32 ahead of the head; 33 ahead; 64. -/
theorem test_premises_MaskAndTailReadsComplete :
    (onPort .control .maskRead 4 [0, 0, 0, 0] running).path.port = some ⟨.control, .maskRead, 4, [0, 0, 0, 0]⟩ ∧
    (onPort .control .tailRead 0x400 [32, 0, 0, 0] running).path.port = some ⟨.control, .tailRead, 0x400, [32, 0, 0, 0]⟩ ∧
    inTeardown.ctl.teardown ≠ none ∧ running.ctl.teardown = none ∧
    (leValue [32, 0, 0, 0] < 64 ∧ (BitVec.ofNat 6 (leValue [32, 0, 0, 0]) - running.ctl.head).toNat ≤ 32) ∧
    ¬(leValue [33, 0, 0, 0] < 64 ∧ (BitVec.ofNat 6 (leValue [33, 0, 0, 0]) - running.ctl.head).toNat ≤ 32) ∧
    ¬(leValue [64, 0, 0, 0] < 64 ∧ (BitVec.ofNat 6 (leValue [64, 0, 0, 0]) - running.ctl.head).toNat ≤ 32) ∧
    running.ctl.inProgress = none := by decide +kernel

/-- The reads at the head of the queue, to be granted. -/
theorem test_premises_MaskAndTailReadsComplete_grants :
    (asks .control running).grantsNext .control ∧
      (queued .maskRead (asks .control running)).ctl.queue = .maskRead :: [.record .counters] ∧
      (queued .tailRead (asks .control running)).ctl.queue = .tailRead :: [.record .counters] :=
  ⟨⟨rfl, rfl, .inl rfl⟩, rfl, rfl⟩

theorem test_premises_RingSlotsComplete :
    let s : State := { running with ctl := { running.ctl with inProgress := some ⟨0, .reading⟩ } }
    (∀ live, (onPort .control (.slotRead live) 0x800 [0x21] s).path.port = some ⟨.control, .slotRead live, 0x800, [0x21]⟩) ∧
    s.ctl.inProgress = some ⟨0, .reading⟩ ∧ running.ctl.inProgress = none ∧
    (onPort .control .resultWrite 0x830 [1] s).path.port = some ⟨.control, .resultWrite, 0x830, [1]⟩ ∧
    QueueEntry.resultWrite 0 (resultBytes 0 (s.ringCommand (slotCommand [0x21])).result) ∉
      (s.ringCommand (slotCommand [0x21])).state.runDueArbiter.ctl.queue := by decide +kernel

/-- A slot read and a result write to be granted; a slot of each command's first byte, and of one that no command has; result
data of 14 bytes. -/
theorem test_premises_RingSlotsComplete_grants :
    (asks .control running).grantsNext .control ∧
      (queued .slotRead (asks .control running)).ctl.queue = .slotRead :: [.record .counters] ∧
      (queued (.resultWrite 31 [1]) (asks .control running)).ctl.queue = .resultWrite 31 [1] :: [.record .counters] ∧
      ([0x21, 0] : List Byte).head? = some 0x21 ∧ ([0x09] : List Byte).head? = some 0x09 ∧
      (List.replicate 14 (0 : Byte)).length ≤ 14 :=
  ⟨⟨rfl, rfl, .inl rfl⟩, rfl, rfl, rfl, rfl, by decide⟩

theorem test_premises_StoreWriteClosesThePage :
    let s : State := ((running.setPage 0 { writtenPage with closing := true }).setDoc 0 building).setSlot .scan
      ⟨none, none, some ⟨0, [], 0x5348⟩⟩
    (∀ ends, (onPort .scan (.storeWrite .scan 0 ends) 0x400000 [0xF3] s).path.port =
      some ⟨.scan, .storeWrite .scan 0 ends, 0x400000, [0xF3]⟩) ∧
    (s.slot .scan).closing = some ⟨0, [], 0x5348⟩ ∧ (s.slot .scan).asked = none ∧
    (s.doc (s.page 0).document).building = true ∧ s.scan.state ≠ .closing := by decide +kernel

/-- A close that waits; a CLOSING scan stream whose last page closes; a closing page's bytes to be written, past its block's
end, before those of the page being written, and these when it has none. -/
theorem test_premises_StoreWriteClosesThePage_grants :
    let h (p : Fin 512) (k : Nat) : PageInHand := ⟨p, List.replicate k 5, 0⟩
    let s : State := ((running.setPage 0 { writtenPage with closing := true }).setDoc 0 building).setSlot .scan
      ⟨some (h 1 0), some { short := true }, some (h 0 0)⟩
    let last : State := { s with scan := scanIn .closing }
    let both : WriterSlot := ⟨some (h 1 1), none, some (h 0 65)⟩
    ((s.slot .scan).closing = some (h 0 0) ∧ (s.slot .scan).writing = some (h 1 0) ∧
      (s.slot .scan).asked = some { short := true } ∧ (h 1 0).page ≠ 0 ∧ s.scan.state ≠ .closing ∧ s.scan.heldBytes = 0) ∧
    (last.scan.state = .closing ∧ last.scan.anyFull = false ∧ (last.ctx .scan).job = .none ∧
      (⟨none, none, some (h 0 0)⟩ : WriterSlot).writing = none) ∧
    (asks .scan s).grantsNext Writer.scan.requester ∧ (asks (.line 3) s).grantsNext (Writer.line 3).requester ∧
    (((issued .scan ⟨0, 3⟩ s).path.storeWrites.get Writer.scan.index = some ⟨0, 3⟩ ∧ (h 0 65).page = 0 ∧ (h 1 1).page ≠ 0) ∧
      s.path.storeWrites.get Writer.scan.index = none ∧ (issued .scan ⟨0, 3⟩ s).onPort .scan = false) ∧
    both.next = some (h 0 65, true) ∧ (⟨some (h 1 1), none, some (h 0 0)⟩ : WriterSlot).next = some (h 1 1, false) ∧
    (both.closing = some (h 0 65) ∧ (h 0 65).queued ≠ []) :=
  ⟨by decide +kernel, by decide +kernel, ⟨rfl, rfl, .inl rfl⟩, ⟨rfl, rfl, .inl rfl⟩, by decide +kernel, by decide +kernel,
    by decide +kernel, by decide +kernel⟩

/-- A store write issued with 3 bytes carries these 3 when 65 wait at its grant, and the next one 61, to the block's end
(R14: a byte placed while a request waits is kept for the next). -/
theorem test_storeWriteKeepsItsSize :
    let s : State := (running.setPage 0 { writtenPage with byteCount := 1024 }).setSlot .scan
      ⟨some ⟨0, List.replicate 65 5, 0⟩, none, none⟩
    let later : State := (running.setPage 0 { writtenPage with byteCount := 1027 }).setSlot .scan
      ⟨some ⟨0, List.replicate 64 5, 0⟩, none, none⟩
    ((issued .scan ⟨0, 3⟩ s).grantRequest .scan).path.port.map (fun p => p.bytes.length) = some 3 ∧
      (issued .scan ⟨0, 3⟩ s).issueRequests.path.storeWrites.get 0 = some ⟨0, 3⟩ ∧
      later.issueRequests.path.storeWrites.get 0 = some ⟨0, 61⟩ := by decide +kernel

/-- A page of four bytes: after its first byte, and after its last with the right and with a wrong check. -/
theorem test_premises_StoreReadReachesItsStream :
    let s : State := (running.setPage 0 { closedPage with check := foldBytes 0xFFFF [9] }).setStream 0 (sending .open)
    (∀ q ∈ [Requester.print, .line 0], ∀ live, (onPort q (.storeRead live) 0x400000 [9] s).path.port =
      some ⟨q, .storeRead live, 0x400000, [9]⟩) ∧
    (sending .open).readPos + [9].length ≠ closedPage.byteCount ∧
    ({ sending .open with readPos := 3 } : LineStream).readPos + [9].length = closedPage.byteCount ∧
    (sending .open).check.map (fun c => foldBytes c [9]) = some (s.page 0).check ∧
    (sending .open).check.map (fun c => foldBytes c [8]) ≠ some (s.page 0).check := by decide +kernel

/-- An END-OF-PAGE behind an extension byte of its value; reads to be granted. -/
theorem test_premises_StoreReadReachesItsStream_grants :
    let x : LineStream := { sending .open with readAhead := [0xC0] }
    throughPageEnd x.inExtension (x.readAhead ++ [0xF3, 0xF3, 9]) = some (x.readAhead ++ [0xF3, 0xF3]) ∧
      throughPageEnd x.inExtension (x.readAhead ++ [0xF3]) = none ∧
      (0xC0 ≤ (0xC0 : Byte).toNat ∧ (0xEF : Byte).toNat ≤ 0xEF ∧ ¬(0xC0 ≤ (0xF0 : Byte).toNat ∧ (0xF0 : Byte).toNat ≤ 0xEF)) ∧
      (asks .print running).grantsNext .print ∧ (asks (.line 0) running).grantsNext (.line 0) ∧
      (running.slot (.line 0)).next = none :=
  ⟨by decide +kernel, by decide +kernel, by decide +kernel, ⟨rfl, rfl, .inl rfl⟩, ⟨rfl, rfl, .inl rfl⟩, by decide +kernel⟩

/-- A record to be written, with an answer time and with none, and with a number of 24 characters. -/
theorem test_premises_ChargeRecordIsWritten :
    (onPort .charge .chargeWrite 0x500000 [0] running).path.port = some ⟨.charge, .chargeWrite, 0x500000, [0]⟩ ∧
      (asks .charge running).grantsNext .charge ∧
      ({ running with charge := { running.charge with recordQueue := [record] } } : State).charge.recordQueue = record :: [] ∧
      (({ record with number := List.replicate 24 .pause } : ChargeRecord).number.length ≤ 24 ∧ 23 < 24) ∧
      ({ record with answerTime := some ⟨0, 0⟩ } : ChargeRecord).answerTime = some ⟨0, 0⟩ ∧ record.answerTime = none :=
  ⟨by decide +kernel, ⟨rfl, rfl, .inl rfl⟩, by decide +kernel⟩

/-- A line of the narrowest width, and one that the encoder does not clip. -/
theorem test_premises_LineCodeRoundTrip :
    (List.replicate 1536 false).length = Width.narrow.pixels ∧
      (encodeRuns 0 (runs (List.replicate 1536 false))).2 = false := by decide +kernel

/-- The page's room filled to its last byte: 1,020 bytes, a line of 3, one kept for END-OF-PAGE. -/
theorem test_premises_EncodeCompletes :
    let raw : List Byte := List.replicate 192 0
    let s : State := withJob .scan .encode (scanWrites (running.setScan { scanIn .open with bufferA := .full raw }))
    s.coder.engine = some ⟨.scan, .encode, true⟩ ∧ (s.slot .scan).page = some ⟨0, [], 0xFFFF⟩ ∧
    s.scan.state = .open ∧ s.scan.buffer s.scan.first = .full raw ∧ (s.page 0).truncated = false ∧
    (s.page 0).lineCount + 1 < 4096 ∧
    (s.page 0).byteCount + (encodeLine (s.ctx .scan) raw).bytes.length + 1 = 1024 * (s.page 0).chain.length := by
  decide +kernel

/-- A page one byte fuller, with a free block one above the reserve and at it, with a line and with none; the 4,096th line,
with bytes held and with none; the line that a cut marked; the last line in CLOSING. -/
theorem test_premises_EncodeCompletes_ends :
    let raw : List Byte := List.replicate 192 0
    let s (bytes lines free : Nat) (x : ScanStream) : State := withJob .scan .encode ((scanWrites
      ((running.setFreeList (List.range free)).setScan { x with bufferA := .full raw })).setPage 0
      { writtenPage with byteCount := bytes, lineCount := lines })
    let e := encodeLine ((s 1020 1 33 (scanIn .open)).ctx .scan) raw
    let held : ScanStream := { scanIn .open with bufferB := .filling [1] }
    (¬(((s 1021 1 33 (scanIn .open)).page 0).byteCount + e.bytes.length + 1 ≤ 1024 * ((s 1021 1 33 (scanIn .open)).page 0).chain.length)
      ∧ (s 1021 1 33 (scanIn .open)).store.freeList = 0 :: (List.range 33).tail ∧
      (s 1021 1 33 (scanIn .open)).store.reserve < (s 1021 1 33 (scanIn .open)).freeBlocks) ∧
    ((s 1021 1 32 (scanIn .open)).freeBlocks ≤ (s 1021 1 32 (scanIn .open)).store.reserve ∧
      ((s 1021 1 32 (scanIn .open)).slot .scan).closing = none ∧ ((s 1021 1 32 (scanIn .open)).page 0).lineCount ≠ 4096 ∧
      ((s 1021 1 32 (scanIn .open)).page 0).lineCount ≠ 0 ∧ ((s 1021 0 32 (scanIn .open)).page 0).lineCount = 0 ∧
      (scanIn .open).state ≠ .closing) ∧
    (((s 1020 4095 33 (scanIn .open)).page 0).lineCount + 1 = 4096 ∧
      ((s 1020 4095 33 held).scan.setBuffer .a .empty).heldBytes = 1 ∧
      ((s 1020 4095 33 (scanIn .open)).scan.setBuffer .a .empty).heldBytes = 0) ∧
    ((scanIn .cutting).state = .cutting ∧ ({ scanIn .cutting with cut := some .a } : ScanStream).cut = some (scanIn .cutting).first) ∧
    (((s 1020 1 33 (scanIn .closing)).scan.setBuffer .a .empty).anyFull = false ∧ (scanIn .closing).state = .closing) := by
  decide +kernel

/-- The pixels of the reference line, with K above the REPEAT run, at it and 0. -/
theorem test_premises_EncodeCompletes_result :
    let c (k run : Nat) : LineContext :=
      { LineContext.powerOn with k := k, repeatRun := run, reference := List.replicate 1536 false }
    let white : List Byte := List.replicate 192 0
    (0 < (c 3 2).k ∧ rawPixels white = (c 3 2).reference ∧ (c 3 2).repeatRun < (c 3 2).k) ∧
      ¬((c 3 3).repeatRun < (c 3 3).k) ∧ ¬(0 < (c 0 0).k) ∧ rawPixels (1 :: white.tail) ≠ (c 3 2).reference := by
  decide +kernel

theorem test_premises_DecodeAndExpandComplete :
    let p : PrintStream := { printIn .open with bufferA := .decoding, readAhead := [0xC6, 0, 0xF1] }
    let x : LineStream := { sending .open with takesRepeat := false, readAhead := [0xF0, 0xF1, 0xF3] }
    (withJob .print .decode (running.setPrint p)).coder.engine = some ⟨.print, .decode, true⟩ ∧
    p.nextLine = some ([0xC6, 0, 0xF1], []) ∧
    (withJob (.line 0) .expand (running.setStream 0 x)).coder.engine = some ⟨.line 0, .expand, true⟩ ∧
    x.nextStored = some ([0xF0, 0xF1], [0xF3]) := by decide +kernel

/-- REPEAT, a full line and one that is not valid; the runs at the bound of the short form; jobs queued in each class, alone and
together, and the line served last in its class. -/
theorem test_premises_DecodeAndExpandComplete_choice :
    let jobs (l : List (StreamId × JobKind)) : State :=
      l.foldl (fun s j => s.setCtx j.1 { LineContext.powerOn with isOpen := true, job := .queued j.2 }) running
    (isRepeatLine [0xF0, 0xF1] = true ∧ isRepeatLine [0xC6, 0, 0xF1] = false ∧ lineValid .narrow [0xC6, 0, 0xF1] = true ∧
      lineValid .narrow [5, 0xF1] = false) ∧
    ((191 : Nat) < 192 ∧ 192 ≤ (192 : Nat)) ∧
    (running.coder.engine = none ∧ (withJob .scan .encode running).coder.engine ≠ none ∧ running.coder.lastReceive = 3 ∧
      ((jobs [(.line 0, .check), (.line 3, .check)]).ctx (.line 0)).job = .queued .check ∧
      ((jobs [(.line 0, .check), (.line 3, .check)]).ctx (.line 3)).job = .queued .check) ∧
    ((jobs [(.line 2, .expand), (.print, .decode)]).ctx (.line 2)).job = .queued .expand ∧
    (∀ m : Fin 4, ((jobs [(.line 2, .expand), (.print, .decode)]).ctx (.line m)).job ≠ .queued .check) ∧
    (∀ m : Fin 4, ((jobs [(.print, .decode), (.scan, .encode)]).ctx (.line m)).job ≠ .queued .expand) ∧
    ((jobs [(.print, .decode), (.scan, .encode)]).ctx .print).job = .queued .decode ∧
    ((jobs [(.scan, .encode)]).ctx .print).job ≠ .queued .decode ∧
    ((jobs [(.scan, .encode)]).ctx .scan).job = .queued .encode ∧ (running.ctx .scan).job ≠ .queued .encode := by
  decide +kernel

/-- A good line, one that is lost, and a page filled to its last byte. -/
theorem test_premises_CheckCompletes :
    let l : CollectedLine := ⟨[0xC6, 0, 0xF1], false, false⟩
    let s : State := withJob (.line 0) .check (lineWrites (running.setStream 0 { receiving with checkBuffer := some l }))
    s.coder.engine = some ⟨.line 0, .check, true⟩ ∧ (s.stream 0).checkBuffer = some l ∧
    (s.slot (.line 0)).page = some ⟨0, [], 0xFFFF⟩ ∧ (s.page 0).truncated = false ∧ (s.page 0).lineCount ≠ 4096 ∧
    (checkLine (s.ctx (.line 0)) l.bytes l.lost).good = true ∧ (checkLine (s.ctx (.line 0)) l.bytes true).good = false ∧
    (s.page 0).byteCount + (checkLine (s.ctx (.line 0)) l.bytes l.lost).bytes.length + 1 ≤
      1024 * (s.page 0).chain.length ∧
    (let r : PageRecord := { writtenPage with byteCount := 1021 };
      ¬(r.byteCount + (checkLine (s.ctx (.line 0)) l.bytes l.lost).bytes.length + 1 ≤ 1024 * r.chain.length)) ∧
    (running.setFreeList [7]).store.freeList = 7 :: [] ∧ (running.setFreeList []).store.freeList = [] ∧
    ({ writtenPage with lineCount := 4096 } : PageRecord).lineCount = 4096 ∧
    ({ writtenPage with truncated := true } : PageRecord).truncated = true := by decide +kernel

/-- A full line, a REPEAT line and a line that is not valid; a line marked lost or not. -/
theorem test_premises_CheckCompletes_result :
    lineValid .narrow [0xC6, 0, 0xF1] = true ∧ isRepeatLine [0xC6, 0, 0xF1] = false ∧
      lineValid .narrow [0xF0, 0xF1] = true ∧ isRepeatLine [0xF0, 0xF1] = true ∧ lineValid .narrow [5, 0xF1] = false := by
  decide +kernel

/-! ## Premises: ring commands -/

theorem test_premises_RingCommandsTaken :
    (Instr.isRingCommand .pageCut = true ∧ Instr.isSetupCommand .pageCut = false) ∧ State.reset.ctl.teardown = none ∧
      State.reset.ctl.engine = .pass ∧ running.ctl.engine = .running ∧ inTeardown.ctl.teardown ≠ none := by decide +kernel

/-- The smallest and the largest store that fit, and one field wrong at a time. -/
theorem test_premises_StoreSetup :
    let fits (base log : BitVec 32) (count reserve : BitVec 16) : Bool :=
      decide (
        let r := if reserve.toNat = 65535 then State.reset.store.reserve else reserve.toNat
        base.toNat % 1024 = 0 ∧ 64 ≤ count.toNat ∧ count.toNat ≤ 8192 ∧ log.toNat % 65536 = 0 ∧
          (reserve.toNat ≤ 255 ∨ reserve.toNat = 65535) ∧ r < count.toNat ∧
          base.toNat + count.toNat * 1024 ≤ 67108864 ∧ log.toNat + 65536 ≤ 67108864 ∧
          (base.toNat + count.toNat * 1024 ≤ 0 ∨ 0 + 65536 ≤ base.toNat) ∧
          (log.toNat + 65536 ≤ 0 ∨ 0 + 65536 ≤ log.toNat) ∧
          (base.toNat + count.toNat * 1024 ≤ log.toNat ∨ log.toNat + 65536 ≤ base.toNat))
    State.reset.path.controlBase.toNat = 0 ∧ State.reset.ctl.engine = .pass ∧
      fits 0x10000 0x20000 64 63 = true ∧ fits 0x3800000 0x37F0000 8192 65535 = true ∧ fits 0x10000 0x20000 64 64 = false ∧
      fits 0x10000 0x20000 63 0 = false ∧ fits 0x10000 0x1000000 8193 0 = false ∧ fits 0x10001 0x20000 64 0 = false ∧
      fits 0xFC00 0x20000 64 0 = false ∧ fits 0x10000 0x10000 64 0 = false ∧ fits 0x10000 0x4000000 64 0 = false := by
  decide +kernel

theorem test_premises_TimeSet :
    State.reset.ctl.teardown = none ∧ 6 < (7 : BitVec 8).toNat ∧ 86400 ≤ (86400 : BitVec 32).toNat ∧
      (6 : BitVec 8).toNat ≤ 6 ∧ (86399 : BitVec 32).toNat < 86400 := by decide +kernel

/-- A document whose not-before time is the second that a clock reaches, with a PENDING destination. -/
def waitsForTime (s : State) : State :=
  (s.setDoc 63 { built with dests := [3], notBefore := some ⟨0, 61⟩ }).setDest 3 { dest .pending with document := 63 }

/-- A clock that reaches the time, and one that stands a second before it. -/
theorem test_premises_TimeSet_notBefore :
    let s : State := waitsForTime running
    ((s.doc 63).inUse = true ∧ (s.doc 63).complete = false ∧ (s.doc 63).notBefore = some ⟨0, 61⟩ ∧
      (3 : Fin 512) ∈ (s.doc 63).dests ∧ (s.dest 3).state = .pending ∧ s.charge.clockSet = false) ∧
    ¬((0 : BitVec 16).toNat < (0 : BitVec 16).toNat ∨ ((0 : BitVec 16) = 0 ∧ (61 : BitVec 32).toNat < 61)) ∧
    ((0 : BitVec 16) = 0 ∧ (60 : BitVec 32).toNat < 61) := by decide +kernel

/-- The charge unit with the clock set and two entries with one start, of which the lower index is the period. -/
def calendarSet : ChargeUnit :=
  { running.charge with
    clockSet := true, clock := ⟨0, 60⟩,
    calendar := (running.charge.calendar.set 2 ⟨1, 60, 3⟩).set 7 ⟨1, 60, 1⟩ }

theorem test_premises_PeriodSet :
    (8 ≤ (8 : BitVec 8).toNat ∧ 128 ≤ (128 : BitVec 8).toNat ∧ 4 ≤ (4 : BitVec 8).toNat ∧ 86400 ≤ (86400 : BitVec 32).toNat) ∧
    ((7 : BitVec 8).toNat = (7 : Fin 8).val ∧ (3 : BitVec 8).toNat = (3 : Fin 4).val ∧ (127 : BitVec 8).toNat < 128 ∧
      (86399 : BitVec 32).toNat < 86400) ∧
    State.reset.charge.clockSet = false ∧
    (∀ e, (running.charge.calendar.get e).qualifies running.charge.dayOfWeek running.charge.clock.second = false) ∧
    calendarSet.clockSet = true ∧
    (calendarSet.calendar.get 2).qualifies calendarSet.dayOfWeek calendarSet.clock.second = true ∧
    ∀ f, (calendarSet.calendar.get f).qualifies calendarSet.dayOfWeek calendarSet.clock.second = true →
      (calendarSet.calendar.get f).start < (calendarSet.calendar.get 2).start ∨
        ((calendarSet.calendar.get f).start = (calendarSet.calendar.get 2).start ∧ 2 ≤ f) := by decide +kernel

/-- Eight digits of 9, and one digit of 10 among those counted. -/
theorem test_premises_TariffSetAndPrefixSet :
    (8 ≤ (8 : BitVec 8).toNat ∧ 3600 < (3601 : BitVec 16).toNat ∧ (7 : BitVec 8).toNat = (7 : Fin 8).val ∧
      (3600 : BitVec 16).toNat ≤ 3600) ∧
    (32 ≤ (32 : BitVec 8).toNat ∧ 8 < (9 : BitVec 8).toNat ∧
      (∃ i, i < (1 : BitVec 8).toNat ∧ 10 ≤ ((0x0A : BitVec 64).extractLsb' (8 * i) 8).toNat) ∧ 4 < (5 : BitVec 8).toNat) ∧
    (let x : PrefixEntry := ⟨[9, 9, 9, 9, 9, 9, 9, 9], 4, 7⟩;
      (8 : BitVec 8).toNat = x.digits.length ∧ x.digits.length ≤ 8 ∧ 1 ≤ x.cls ∧ x.cls ≤ 4 ∧ (4 : BitVec 8).toNat = x.cls ∧
        (7 : BitVec 8).toNat = x.band.val ∧
        ∀ i : Fin 8, ((0x0909090909090909 : BitVec 64).extractLsb' (8 * i.val) 8).toNat = (x.digits[i.val]'i.isLt).val) ∧
    (let x : PrefixEntry := ⟨[], 0, 0⟩;
      (0 : BitVec 8).toNat = x.digits.length ∧ x.cls = 0 ∧ x.band = 0) :=
  ⟨by decide +kernel, ⟨by decide +kernel, by decide +kernel, ⟨0, by decide +kernel⟩, by decide +kernel⟩, by decide +kernel, by decide +kernel⟩

/-- An open context of account 1 with class 1: below it, and at it. -/
theorem test_premises_AccountSet :
    (32 ≤ (32 : BitVec 8).toNat ∧ 9999 < (10000 : BitVec 16).toNat ∧ 4 < (5 : BitVec 8).toNat ∧
      1000000 < (1000001 : BitVec 32).toNat ∧ 2 ≤ (2 : BitVec 8).toNat) ∧
    ((31 : BitVec 8).toNat = (31 : Fin 32).val ∧ (9999 : BitVec 16).toNat ≤ 9999 ∧ (4 : BitVec 8).toNat ≤ 4 ∧
      (1000000 : BitVec 32).toNat ≤ 1000000 ∧ (1 : BitVec 8).toNat < 2) ∧
    ((running.setContext 0 (some context)).context 0 = some context ∧ context.account = 1 ∧
      (0 : BitVec 8).toNat < context.cls) ∧
    ∀ n, ((running.setContext 0 (some context)).context n).all (fun c => decide (c.cls ≤ (1 : BitVec 8).toNat)) = true := by
  decide +kernel

/-- Contexts in each phase and one without charging; accounts at budget under CUT, under WARN, and below it. -/
theorem test_premises_AccountSet_policy :
    let x (full : Bool) (p : Policy) : Account := { Account.powerOn 0 with atBudget := full, policy := p }
    ((x true .cut).atBudget = true ∧ (x true .cut).policy = .cut) ∧ ¬((x true .warn).policy = .cut) ∧
      (x false .cut).atBudget = false ∧ context.method ≠ .none ∧ context.phase = .charging ∧
      ({ context with phase := .grace, graceTimer := some 7 } : CallContext).phase = .grace ∧
      ({ context with phase := .unanswered } : CallContext).phase = .unanswered ∧
      ({ context with method := .none } : CallContext).method = .none := by decide +kernel

theorem test_premises_AccountClear :
    31 < (32 : BitVec 8).toNat ∧ (31 : BitVec 8).toNat = (31 : Fin 32).val ∧ running.ctl.engine = .running ∧
      (running.setContext 3 (some context)).context 3 = some context ∧
      record ∈ ({ running with charge := { running.charge with recordQueue := [record] } } : State).charge.recordQueue ∧
      (∀ n, running.context n = none) ∧ running.charge.recordQueue = [] := by decide +kernel

/-- Three records written and not released: 3, 4, and none released. -/
theorem test_premises_LogRelease :
    let s : State := { running with charge := { running.charge with writeIndex := 2, readIndex := 0xFFFF } }
    (s.charge.writeIndex - s.charge.readIndex).toNat < (4 : BitVec 16).toNat ∧
      (3 : BitVec 16).toNat ≤ (s.charge.writeIndex - s.charge.readIndex).toNat ∧ (3 : BitVec 16) ≠ 0 := by decide +kernel

/-- Settings at their lowest and at their highest values, and one out of range. -/
theorem test_premises_LineSetup :
    settingsOperand ⟨0, 0, 0, 0, 1, 20, 1, 1, 50, 50⟩ = some ⟨.off, .tone, .meter, 0, 1, 20, 1, 1, 50, 50⟩ ∧
      settingsOperand ⟨3, 1, 1, 9, 8, 180, 10, 10, 200, 200⟩ = some ⟨.both, .pulse, .time, 9, 8, 180, 10, 10, 200, 200⟩ ∧
      settingsOperand ⟨3, 1, 1, 10, 8, 180, 10, 10, 200, 200⟩ = none ∧
      settingsOperand ⟨3, 1, 1, 9, 8, 180, 10, 10, 200, 201⟩ = none ∧ 4 ≤ (4 : BitVec 8).toNat ∧
      (3 : BitVec 8).toNat = (3 : Fin 4).val := by decide +kernel

/-- Every document entry taken. -/
def docsFull : State := { running with dispatch := { running.dispatch with docs := Table.replicate 64 building } }

theorem test_premises_DocCreate :
    running.ctl.engine = .running ∧ (∀ d, (docsFull.doc d).inUse = true) ∧ (running.doc 0).inUse = false ∧
      ((running.setDoc 0 building).doc 1).inUse = false ∧ (∀ e, e < 1 → ((running.setDoc 0 building).doc e).inUse = true) ∧
      (31 : Fin 32).val = (31 : BitVec 8).toNat ∧ (86399 : BitVec 32).toNat < 86400 ∧ (60 : BitVec 8).toNat ≤ 60 ∧
      ¬((61 : BitVec 8).toNat ≤ 60) ∧ ¬(1 ≤ (0 : BitVec 8).toNat) ∧ ¬((10 : BitVec 8).toNat ≤ 9) := by decide +kernel

/-- Every pool entry taken. -/
def poolFull : State := { running with dispatch := { running.dispatch with dests := Table.replicate 512 (dest .pending) } }

/-- The number "5", a number of 24 characters, and none of 25. -/
theorem test_premises_DestAdd :
    (∀ t, (poolFull.dest t).inUse = true) ∧
    numberOperand ⟨1, 5⟩ = some [.digit 5] ∧ (numberOperand ⟨24, 0⟩).isSome = true ∧ numberOperand ⟨25, 0⟩ = none ∧
      numberOperand ⟨0, 0⟩ = none ∧ 64 ≤ (64 : BitVec 8).toNat ∧ (63 : BitVec 8).toNat = (63 : Fin 64).val ∧
      (running.doc 63).inUse = false ∧
      (building.inUse = true ∧ building.kind = .out ∧ building.complete = false ∧ building.dests.length < 64) ∧
      ({ building with kind := .copy } : DocRecord).kind = .copy ∧ completed.complete = true ∧
      ({ building with kind := .incoming } : DocRecord).building = true ∧
      64 ≤ ({ building with dests := List.replicate 64 0 } : DocRecord).dests.length ∧
      ((running.setDest 0 (dest .pending)).dest 1).inUse = false ∧
      ((running.setDest 0 (dest .pending)).dest 0).inUse = true :=
  ⟨fun t => by rw [poolFull, State.dest, Table.get_replicate]; decide, by decide +kernel⟩

/-- Two released documents, of one priority and different orders; lines free and not; a prefix of one digit and of two, each
leading the number; what a choice fails with, alone and not. -/
theorem test_premises_DestAdd_arbiter :
    let s : State := ((((running.setDoc 0 { built with dests := [3, 4], released := true, releaseOrder := 2 }).setDoc 1
      { built with dests := [5], released := true, releaseOrder := 1 }).setDest 3 (dest .pending)).setDest 4
      (dest .waiting)).setDest 5 { dest .pending with document := 1 }
    let free (burst : Option Nat) : State :=
      ({ running with now := 8000000 } : State).setLine 0 { line .idle .out with lastBurst := burst }
    let early : DocRecord := { built with notBefore := some ⟨0, 1⟩ }
    let prefixes : ChargeUnit := { running.charge with
      prefixes := ((running.charge.prefixes.set 3 ⟨[5], 2, 4⟩).set 2 ⟨[5, 3], 1, 1⟩).set 7 ⟨[5, 3], 4, 2⟩ }
    (s.dispatch.arbiterDue = false ∧ (s.askArbiter).dispatch.arbiterDue = true) ∧
    ((free none).lineFree 0 = true ∧ (free (some 0)).lineFree 0 = true ∧ (free (some 1)).lineFree 0 = false ∧
      ∀ n, running.lineFree n = false) ∧
    (s.eligible 3 = true ∧ s.eligible 4 = false ∧ s.bestDest = some 5 ∧ running.bestDest = none) ∧
    (early.notBefore = some ⟨0, 1⟩ ∧ running.charge.clockSet = false ∧ calendarSet.clockSet = true ∧
      calendarSet.clock.day = (⟨0, 61⟩ : ClockValue).day ∧ calendarSet.clock.second < (⟨0, 61⟩ : ClockValue).second ∧
      ¬(calendarSet.clock.second < (⟨0, 60⟩ : ClockValue).second)) ∧
    ((running.account 0).atBudget = false ∧ ((Account.powerOn 0).atBudget = false) ∧ running.ctl.engine = .running ∧
      running.charge.unread + running.charge.reservations < 1024) ∧
    (prefixes.classify [.digit 5, .pause, .digit 3] = (1, 1) ∧ prefixes.classify [.digit 5] = (2, 4) ∧
      prefixes.classify [.star] = (3, 7)) ∧
    ((s.account 0).cls = 4 ∧ s.choiceFails 0 5 5 = some .barred ∧ s.choiceFails 0 5 1 = some .empty ∧
      (s.setPageList 1 [0]).choiceFails 0 5 1 = none ∧
      ((s.setLine 0 { line .idle .out with record := { (line .idle .out).record with
        active := { (line .idle .out).record.active with dialMethod := .pulse } } }).setDest 5
        { dest .pending with document := 1, number := [.hash] }).choiceFails 0 5 1 = some .badNumber) := by decide +kernel

theorem test_premises_DocRelease :
    64 ≤ (64 : BitVec 8).toNat ∧ (running.doc 63).inUse = false ∧ completed.complete = true ∧
      (building.kind ≠ .copy ∧ building.complete = false ∧ building.kind = .out ∧ building.released = false) ∧
      ({ building with kind := .incoming } : DocRecord).building = true ∧
      ({ building with released := true } : DocRecord).released = true ∧
      running.dispatch.releaseCounter ≠ BitVec.allOnes 32 := by decide +kernel

/-- A document being scanned, one being received, one COMPLETE, one with a PENDING destination and a CLOSED page. -/
theorem test_premises_DocCancelAndDestCancel :
    let s : State := ((((running.setDoc 0 { built with dests := [3] }).setDest 3 (dest .pending)).setPage 0
      closedPage).setPageList 0 [0])
    ((running.setScan (scanIn .open)).scan.state ≠ .closed ∧ (running.setScan (scanIn .open)).scan.document = 0) ∧
      (receiving.direction = .receive ∧ receiving.state ≠ .closed ∧ receiving.callDoc = some 0) ∧
      completed.complete = true ∧
      ((s.doc 0).inUse = true ∧ (s.doc 0).complete = false ∧ (s.doc 0).building = false ∧ (s.doc 0).obligation = .none ∧
        s.scan.state = .closed ∧ (∀ n, (s.stream n).state = .closed) ∧
        (∀ x, x ∈ (s.doc 0).dests → (s.dest x).state = .pending ∧ (s.dest x).document = 0) ∧
        ∀ p, p ∈ s.pageList 0 → (s.page p).state ≠ .writing) ∧
      (512 ≤ (512 : BitVec 16).toNat ∧ (511 : BitVec 16).toNat = (511 : Fin 512).val ∧ (running.dest 511).inUse = false) ∧
      ((running.setDoc 0 building).doc (dest .done).document).building = true ∧ (dest .done).state.final = true ∧
      (dest .pending).inUse = true ∧ (dest .pending).state = .pending ∧ (dest .waiting).state = .waiting := by decide +kernel

/-- A DIALLING destination on a line whose call is its own, and a SENDING one. -/
theorem test_premises_DocCancelAndDestCancel_calls :
    let c : CallContext := { context with destination := some 3 }
    let s : State := (running.setLine 0 (calling .seizing)).setContext 0 (some c)
    let r (x : DestState) : DestRecord := { dest x with line := some 0 }
    ((r .dialling).state = .dialling ∧ (r .dialling).line = some 0 ∧ (s.lineUnit 0).record.state.hasCall = true ∧
      s.context 0 = some c ∧ c.destination = some 3) ∧
      ((r .sending).state = .sending ∧ (r .sending).line = some 0) := by decide +kernel

/-- A document with a printout in each stage, one that builds and that nobody writes, one with no obligation left; destinations
in every state, one of a document that no longer builds. -/
theorem test_premises_DocCancelAndDestCancel_parts :
    let s : State := (running.setDoc 0 { building with dests := [3] }).setDest 3 (dest .pending)
    let owing (o : PrintObligation) : DocRecord := { built with obligation := o }
    (s.ctl.teardown = none ∧ (s.doc 0).inUse = true ∧ (s.doc 0).complete = false ∧ s.beingWritten 0 = false ∧
      (s.doc 0).building = true ∧ (s.doc 0).obligation = .none ∧
      ∀ x, x ∈ (s.doc 0).dests → (s.dest x).state = .pending ∧ (s.dest x).document = 0) ∧
    ((owing .pending).obligation = .pending ∧ (owing .queued).obligation = .queued ∧
      (owing .printing).obligation = .printing ∧ (owing .done).obligation = .done) ∧
    ((dest .done).state.final = true ∧ (dest .failed).state.final = true ∧ (dest .waiting).state.final = false ∧
      (((running.setDoc 0 built).setDest 3 (dest .pending)).doc 0).building = false) ∧
    ((running.setDoc 0 built).hasObligation 0 = false ∧ s.hasObligation 0 = true ∧ completed.complete = true ∧
      (running.doc 0).inUse = false) := by decide +kernel

theorem test_premises_DocDelete :
    64 ≤ (64 : BitVec 8).toNat ∧ (63 : BitVec 8).toNat = (63 : Fin 64).val ∧ (running.doc 63).inUse = false ∧
      (building.inUse = true ∧ building.complete = false) ∧ completed.inUse = true ∧ completed.complete = true ∧
      (3 : Fin 512) ∈ completed.dests ∧ ((running.setDest 3 (dest .done)).dest 3) ≠ DestRecord.empty := by decide +kernel

theorem test_premises_PrintFirst :
    let s : State := (running.setPrintQueue [0, 1]).setDoc 0 { built with obligation := .printing }
    (2 : Fin 64) ∉ s.dispatch.printQueue ∧ (0 : Fin 64) ∈ s.dispatch.printQueue ∧ (s.doc 0).obligation = .printing ∧
      s.dispatch.printQueue = 0 :: [1] ∧ (1 : Fin 64) ∈ (0 :: [1] : List (Fin 64)) ∧
      (s.doc 1).obligation ≠ .printing := by decide +kernel

/-- K 16 and 17, width 2 and 3; a stream STARVED by PAGES and by BLOCK; the free count at the reserve and one above it. -/
theorem test_premises_ScanOpenAndResume :
    (16 < (17 : BitVec 8).toNat ∧ 2 < (3 : BitVec 8).toNat ∧ (16 : BitVec 8).toNat ≤ 16 ∧
      (2 : BitVec 8).toNat = Width.wide.code) ∧
      (building.inUse = true ∧ building.kind ≠ .incoming ∧ building.building = true ∧ built.building = false) ∧
      (scanIn .open).state ≠ .closed ∧ running.scan.state = .closed ∧
      ({ scanIn .starved with cause := .pages } : ScanStream).cause = .pages ∧
      ({ scanIn .starved with cause := .block } : ScanStream).cause ≠ .pages ∧
      ((running.setFreeList (List.range 33)).store.reserve < (running.setFreeList (List.range 33)).freeBlocks ∧
        (running.page 511).state = .free) ∧
      ¬((running.setFreeList (List.range 32)).store.reserve < (running.setFreeList (List.range 32)).freeBlocks) := by
  decide +kernel

/-- A page in hand with both buffers EMPTY, and with 191 bytes in the first. -/
theorem test_premises_PageCutAndScanClose :
    let s (x : ScanStream) : State := scanWrites (running.setScan x)
    let partly : ScanStream := { scanIn .open with bufferA := .filling (List.replicate 191 0) }
    let full : ScanStream := { scanIn .open with bufferA := .full (List.replicate 192 0) }
    let second : ScanStream := { full with bufferB := .filling [1] }
    ((s (scanIn .open)).slot .scan).page = some ⟨0, [], 0xFFFF⟩ ∧ (scanIn .open).bufferA = .empty ∧
      ((s (scanIn .open)).slot .scan).closing = none ∧
      (⟨some ⟨0, [], 0⟩, none, some ⟨1, [1], 0⟩⟩ : WriterSlot).closing ≠ none ∧
      (scanIn .open).bufferB = .empty ∧ ((s partly).slot .scan).page ≠ none ∧ partly.first = .a ∧
      partly.bufferA = .filling (List.replicate 191 0) ∧ partly.bufferB = .empty ∧
      (second.buffer .b = .filling [1] ∧ second.first ≠ .b ∧ (second.buffer BufferId.b.other).isFull = true) ∧
      (full.buffer full.first = .full (List.replicate 192 0) ∧ full.buffer full.first.other = .empty) ∧
      ((running.setScan (scanIn .open)).slot .scan).writing = none ∧
      ((running.setScan (scanIn .open)).slot .scan).closing = none ∧ (scanIn .open).anyFull = false ∧
      ((running.setScan (scanIn .open)).ctx .scan).job = .none := by decide +kernel

/-- A stream closed with a line left, with a page and none, while another page is being closed, with its close asked for, from
STARVED, and with a pending window entry. -/
theorem test_premises_PageCutAndScanClose_close :
    let s (x : ScanStream) : State := scanWrites (running.setScan x)
    let slot (x : WriterSlot) : State := (s (scanIn .open)).setSlot .scan x
    ({ scanIn .cutting with bufferA := .full [1] } : ScanStream).anyFull = true ∧
      ((withJob .scan .encode (s (scanIn .open))).ctx .scan).job ≠ .none ∧
      ((s (scanIn .starved)).scan.state = .starved ∧ (s (scanIn .starved)).scan.anyFull = false ∧
        ((s (scanIn .starved)).ctx .scan).job = .none) ∧
      (((s (scanIn .open)).slot .scan).page = some ⟨0, [], 0xFFFF⟩ ∧ ((s (scanIn .open)).slot .scan).closing = none) ∧
      (((slot ⟨some ⟨0, [], 0⟩, none, some ⟨1, [1], 0⟩⟩).slot .scan).page = some ⟨0, [], 0⟩ ∧
        ((slot ⟨some ⟨0, [], 0⟩, none, some ⟨1, [1], 0⟩⟩).slot .scan).closing ≠ none) ∧
      (((slot ⟨some ⟨0, [], 0⟩, some {}, some ⟨1, [1], 0⟩⟩).slot .scan).page = none ∧
        ((slot ⟨some ⟨0, [], 0⟩, some {}, some ⟨1, [1], 0⟩⟩).slot .scan).writing ≠ none) ∧
      (((slot ⟨none, none, none⟩).slot .scan).writing = none ∧ ((slot ⟨none, none, none⟩).slot .scan).closing = none) ∧
      ((running.setWindow 0 { WindowShadow.powerOn with pending := some ⟨0x800000, 8, false⟩ }).window 0).pending =
        some ⟨0x800000, 8, false⟩ := by decide +kernel

/-- A printed document with one CLOSED page, and with one being written; the last copy and one before it. -/
theorem test_premises_PrintCommands :
    let s : State := ((running.setPage 0 closedPage).setPageList 0 [0]).setPrintQueue [0]
    s.print.state = .closed ∧ s.dispatch.printQueue = 0 :: [] ∧ running.dispatch.printQueue = [] ∧
      (s.pageList 0)[0]? = some 0 ∧ (s.page 0).state = .closed ∧ (s.page 0).lineCount ≠ 0 ∧
      ((s.setPage 0 writtenPage).page 0).state ≠ .closed ∧
      ((printIn .pageEnd).position < [0, 0].length ∧ (s.pageList 0).length ≤ (printIn .pageEnd).position) ∧
      (built.copies ≤ (printIn .pageEnd).copy ∧ (printIn .pageEnd).copy < ({ built with copies := 2 } : DocRecord).copies) ∧
      (printIn .open).state ≠ .pageEnd ∧ (printIn .docEnd).state ≠ .closed ∧
      ((s.setPage 0 { closedPage with lineCount := 0 }).page 0).lineCount = 0 := by decide +kernel

/-- A connected call to destination 3 of document 0; its page CLOSED, being written, and absent. -/
theorem test_premises_SendOpen :
    let s : State := (((running.setLine 3 (calling .connected)).setDest 3 (dest .dialling)).setPage 0 closedPage).setPageList
      0 [0]
    (1 < (2 : BitVec 8).toNat ∧ 40 < (41 : BitVec 8).toNat ∧ (3 : BitVec 8).toNat = (3 : Fin 4).val ∧
      (40 : BitVec 8).toNat ≤ 40) ∧
      ((s.lineUnit 3).record.state = .connected ∧ (s.lineUnit 3).record.callDirection = .out ∧
        (s.stream 3).state = .closed ∧ (s.lineUnit 3).record.destination = some 3) ∧
      (s.lineUnit 0).record.state ≠ .connected ∧ ({ dest .dialling with cancelRequested := true } : DestRecord).cancelRequested
        = true ∧ (s.dest 3).cancelRequested = false ∧ (s.pageList 0)[(s.dest 3).confirmed]? = some 0 ∧
      (s.page 0).state = .closed ∧ writtenPage.state ≠ .closed ∧ (running.pageList 0)[(s.dest 3).confirmed]? = none := by
  decide +kernel

/-- Page retries 2, 3 and 254; a drain that has ENDED. -/
theorem test_premises_PageResult :
    let s (x : LineStream) : State := (((running.setLine 0 (calling .connected)).setDest 3 (dest .sending)).setStream 0 x)
    let ended : LineStream := { sending .draining with drain := .ended }
    (2 < (3 : BitVec 8).toNat ∧ (2 : BitVec 8).toNat ≤ 2) ∧ (running.lineUnit 0).record.destination = none ∧
      ((s (sending .pageEnd)).lineUnit 0).record.destination = some 3 ∧
      ((sending .pageEnd).direction = .send ∧ (sending .pageEnd).state = .pageEnd) ∧
      (ended.direction = .send ∧ ended.state = .draining ∧ ended.drain = .ended) ∧
      ¬((sending .open).state = .pageEnd ∨ ((sending .open).state = .draining ∧ (sending .open).drain = .ended)) ∧
      (254 : BitVec 8) ≠ 255 ∧ ((2 : BitVec 8) + 1).toNat ≤ 3 ∧ ¬(((3 : BitVec 8) + 1).toNat ≤ 3) ∧
      ((running.setPageList 0 [7, 511]).pageList 0)[(dest .sending).confirmed + 1]? = some 511 ∧ closedPage.state = .closed ∧
      writtenPage.state ≠ .closed ∧ (running.pageList 0)[(dest .sending).confirmed + 1]? = none := by decide +kernel

/-- A connected incoming call with and without a document; a stream that is receiving with one line and with none. -/
theorem test_premises_ReceiveOpenAndStreamClose :
    let u : LineUnit := { line .connected .both with
      record := { (line .connected .both).record with callDirection := .incoming } }
    (u.record.state = .connected ∧ u.record.callDirection = .incoming ∧ running.lineUnit 0 ≠ u) ∧
      ({ receiving with state := .closed } : LineStream).callDoc = some 0 ∧ (running.stream 0).callDoc = none ∧
      (running.stream 0).state = .closed ∧ (∀ d, (docsFull.doc d).inUse = true) ∧
      ((running.setDoc 0 building).doc 1).inUse = false ∧ (∀ e, e < 1 → ((running.setDoc 0 building).doc e).inUse = true) ∧
      receiving.state ≠ .closed ∧ receiving.direction = .receive ∧
      ((lineWrites running).slot (.line 0)).page = some ⟨0, [], 0xFFFF⟩ ∧ ((lineWrites running).page 0).lineCount ≠ 0 ∧
      ((lineWrites running).slot (.line 0)).closing = none ∧ (running.slot (.line 0)).page = none ∧
      (⟨some ⟨0, [], 0⟩, none, some ⟨1, [1], 0⟩⟩ : WriterSlot).closing ≠ none ∧ PageRecord.empty.lineCount = 0 := by
  decide +kernel

/-- A line that the host answers; the log full; a call to be ended with the first and the last cause the host may give. -/
theorem test_premises_CallCommands :
    let u : LineUnit := { line .ringing .both with
      record := { (line .ringing .both).record with active := { (line .ringing .both).record.active with rings := 0 } } }
    let full : State := { running with charge := { running.charge with allotIndex := 1023, reservations := 1 } }
    let room : State := { running with charge := { running.charge with allotIndex := 1023 } }
    (u.record.active.rings = 0 ∧ u.record.state = .ringing) ∧ (line .ringing .both).record.active.rings ≠ 0 ∧
      (∀ d, (docsFull.doc d).inUse = true) ∧ (running.doc 0).inUse = false ∧ full.mayReserve = false ∧
      room.mayReserve = true ∧ (calling .awaiting).record.state = .awaiting ∧
      (running.setContext 0 (some context)).context 0 = some context ∧ context.method = .meter ∧
      ((1 : BitVec 8).toNat = Cause.normal.code ∧ (4 : BitVec 8).toNat = Cause.failed.code ∧ 4 < (5 : BitVec 8).toNat) ∧
      (calling .seizing).record.state.hasCall = true ∧ (line .clearing .both).record.state.hasCall = false ∧
      running.context 0 = none := by decide +kernel

/-- A call's destination to be settled: cancelled; its attempts one below the limit and at it; NORMAL with every page
confirmed, with one that is not, with none in the document, and with the document still building. -/
theorem test_premises_CallCommands_settlement :
    let s (d : DocRecord) (pages : List (Fin 512)) (r : DestRecord) : State :=
      ((running.setDoc 0 d).setPageList 0 pages).setDest 3 r
    let limit : DocRecord := { built with attemptLimit := 3 }
    (({ context with destination := some 3 } : CallContext).destination = some 3 ∧ context.destination = none) ∧
    ({ dest .dialling with cancelRequested := true } : DestRecord).cancelRequested = true ∧
    ({ dest .dialling with attempts := 1 } : DestRecord).attempts + 1 < limit.attemptLimit ∧
    ¬(({ dest .dialling with attempts := 2 } : DestRecord).attempts + 1 < limit.attemptLimit) ∧
    (s built [] (dest .sending)).settledCause 3 .normal = .empty ∧
    (s built [0] { dest .sending with confirmed := 1 }).settledCause 3 .normal = .normal ∧
    (s built [0, 1] { dest .sending with confirmed := 1 }).settledCause 3 .normal = .incomplete ∧
    (s building [0] { dest .sending with confirmed := 1 }).settledCause 3 .normal = .incomplete ∧
    (s built [] (dest .sending)).settledCause 3 .busy = .busy ∧ running.charge.clockSet = false ∧
    calendarSet.clockSet = true := by decide +kernel

/-! ## Premises: timers and line signals -/

theorem test_premises_SecondsAndRetries :
    running.charge.clockSet = false ∧ calendarSet.clockSet = true ∧ running.dispatch.retryTimers.get 511 = none ∧
      (running.setRetryTimer 511 (some 9)).dispatch.retryTimers.get 511 = some 9 ∧ (dest .waiting).state = .waiting := by
  decide +kernel

/-- The second that reaches the not-before time. -/
theorem test_premises_SecondsAndRetries_notBefore :
    let s : State := waitsForTime { running with charge := calendarSet }
    (s.doc 63).notBefore = some ⟨0, 61⟩ ∧ s.charge.clock = ⟨0, 60⟩ ∧ s.charge.clock.day = (⟨0, 61⟩ : ClockValue).day ∧
      s.charge.clock.second < (⟨0, 61⟩ : ClockValue).second ∧ ¬(s.charge.clock.second + 1 < (⟨0, 61⟩ : ClockValue).second) ∧
      (3 : Fin 512) ∈ (s.doc 63).dests ∧ (s.dest 3).state = .pending := by decide +kernel

/-- The teardown state is present, with no call. -/
theorem test_premises_StoreLogAndPrintQueueStayWhole_teardown :
    inTeardown.callsWhole ∧ inTeardown.teardownHoldsNoCall ∧ inTeardown.ctl.teardown ≠ none ∧
      inTeardown.charge.recordQueue = [] ∧ ∃ u, step inTeardown = .next u :=
  ⟨⟨by decide +kernel, by decide +kernel, by decide +kernel, by decide +kernel, by decide +kernel, (fun _ h => by cases h),
      by decide +kernel⟩,
    fun _ => by decide +kernel, by decide +kernel, by decide +kernel, _, rfl⟩

/-- The part in RUNNING, a step of which answers a next state. -/
theorem test_premises_StoreLogAndPrintQueueStayWhole :
    running.storeWhole ∧ running.callsWhole ∧ running.printWhole ∧ ∃ u, step running = .next u :=
  ⟨by unfold State.storeWhole; decide +kernel,
    ⟨by decide +kernel, by decide +kernel, by decide +kernel, by decide +kernel, by decide +kernel, (fun _ h => by cases h),
      by decide +kernel⟩,
    by refine ⟨?_, ?_, ?_, ?_, ?_, ?_, ?_, ?_, ?_⟩ <;> decide +kernel, _, rfl⟩

/-- Pulses one microsecond too short, at both bounds and one too long. -/
theorem test_premises_MeterReversalAndLoopSignals :
    ¬(30000 ≤ 29999 ∧ 29999 ≤ 300000) ∧ (30000 ≤ 30000 ∧ 300000 ≤ 300000) ∧ ¬(30000 ≤ 300001 ∧ 300001 ≤ 300000) ∧
      ({ calling .connected with meterStart := some 5 } : LineUnit).meterStart = some 5 ∧
      (calling .connected).meterStart = none ∧ (line .idle .both).record.state ≠ .awaiting ∧
      (running.setContext 0 (some context)).context 0 = some context ∧ context.phase = .charging ∧
      context.units ≠ BitVec.allOnes 32 ∧ (running.account 1).charged ≠ BitVec.allOnes 32 ∧
      (calling .seizing).record.state.hasCall = true ∧ (line .idle .both).record.state.hasCall = false ∧
      ({ calling .seizing with loopSeen := true } : LineUnit).loopSeen = true ∧ (calling .seizing).loopSeen = false ∧
      (calling .dialling).loopLoss = none ∧ ({ context with method := .time } : CallContext).method = .time := by
  decide +kernel

/-- Ring inputs timed and not, on a DISABLED line too; bursts below the answering count, at it and on a line answered at its
first ring, with what the answer needs and without; glare; ring cycles with settings that wait and with none. -/
theorem test_premises_MeterReversalAndLoopSignals_ring :
    let rung (u : LineUnit) (rings count : Nat) : LineUnit := { u with
      ring := .timing 150000, ringCycle := some 8150000,
      record := { u.record with ringCount := count, active := { u.record.active with rings := rings } } }
    let c : CallContext := { context with destination := some 3 }
    let full : State := { running with charge := { running.charge with allotIndex := 1023, reservations := 1 } }
    ((line .idle .both).record.state ≠ .disabled ∧ (line .idle .both).ring = .inactive ∧
      (rung (line .idle .both) 2 0).ring = .timing 150000 ∧ (rung (line .idle .both) 2 0).ring ≠ .inactive ∧
      (rung (line .disabled .both) 2 0).record.state = .disabled) ∧
    ((rung (line .idle .incoming) 2 0).record.active.direction = .incoming ∧
      (rung (line .idle .incoming) 2 0).record.active.rings ≠ 1 ∧ (rung (line .idle .incoming) 1 0).record.active.rings = 1) ∧
    ((line .idle .out).record.active.direction = .out ∧ saturate 255 (rung (line .ringing .both) 9 7).record.ringCount < 9 ∧
      9 ≤ saturate 255 (rung (line .ringing .both) 9 8).record.ringCount ∧
      (rung (line .ringing .both) 0 254).record.active.rings = 0) ∧
    ((∀ d, (docsFull.doc d).inUse = true) ∧ (running.doc 0).inUse = false ∧ full.mayReserve = false ∧
      running.mayReserve = true) ∧
    ((calling .seizing).record.state = .seizing ∧ (running.setContext 0 (some c)).context 0 = some c ∧
      c.destination = some 3 ∧ (dest .dialling).cancelRequested = false ∧
      ¬(((rung (calling .seizing) 2 0).record.active.direction = .incoming ∨
        (rung (calling .seizing) 2 0).record.active.direction = .both) ∧ (rung (calling .seizing) 2 0).record.active.rings = 1)) ∧
    ((line .idle .both).ringCycle = none ∧ (rung (line .ringing .both) 2 1).ringCycle = some 8150000 ∧
      (line .ringing .both).record.pending = none ∧
      ({ (line .ringing .both).record with pending := some LineSettings.powerOn } : LineRecord).pending =
        some LineSettings.powerOn) := by decide +kernel

/-- Glare on a line that answers at its first ring: with a document entry and room in the log, and without; a line that rings in
teardown. -/
theorem test_premises_MeterReversalAndLoopSignals_glare :
    let u : LineUnit := { calling .seizing with
      ring := .timing 150000,
      record := { (calling .seizing).record with active := { (calling .seizing).record.active with rings := 1 } } }
    let s (b : State) : State := (({ b with charge := { b.charge with reservations := 1 } } : State).setLine 0 u).setContext 0
      (some { context with destination := some 3 })
    let full (i : BitVec 16) : State := { running with charge := { running.charge with allotIndex := i } }
    let room (s : State) : Prop := s.ctl.engine = .running ∧
      (s.charge.allotIndex + 1 - s.charge.readIndex).toNat + (s.charge.reservations - 1) < 1024
    (((s running).lineUnit 0).ring = .timing 150000 ∧ ((s running).lineUnit 0).record.state = .seizing ∧
      u.record.active.direction = .both ∧ u.record.active.rings = 1 ∧
      ((s running).context 0).map (fun c => c.destination) = some (some 3) ∧ (s running).ctl.teardown = none) ∧
      room (s (full 1022)) ∧ ¬room (s (full 1023)) ∧ (running.doc 0).inUse = false ∧
      (∀ d, (docsFull.doc d).inUse = true) ∧ inTeardown.ctl.teardown ≠ none ∧
      (line .ringing .both).record.active.rings ≤ 2 := by decide +kernel

theorem test_premises_MeterReversalAndLoopSignals_idleRing : ∀ due, (line .idle .both).ring ≠ .timing due :=
  fun _ h => by cases h

/-- Each timer running, on a line that holds a call; the third NOLOOP in a row and the second. -/
theorem test_premises_LineTimersExpire :
    let u : LineUnit := { calling .seizing with
      loopLoss := some 7, loopCheck := some 7, seizeDelay := some 7, noAnswer := some 7, clearGuard := some 7 }
    (u.loopLoss = some 7 ∧ u.loopCheck = some 7 ∧ u.seizeDelay = some 7 ∧ u.noAnswer = some 7 ∧ u.clearGuard = some 7 ∧
      u.record.state.hasCall = true ∧ u.loopSeen = false ∧ u.record.pending = none) ∧
      ({ u with loopSeen := true } : LineUnit).loopSeen = true ∧
      ((line .idle .both).loopLoss = none ∧ (line .idle .both).loopCheck = none ∧ (line .idle .both).seizeDelay = none ∧
        (line .idle .both).noAnswer = none ∧ (line .idle .both).clearGuard = none) ∧
      ({ context with graceTimer := some 7, phase := .grace } : CallContext).graceTimer = some 7 ∧ context.graceTimer = none ∧
      ((3 : Nat) = 3 ∧ (2 : Nat) ≠ 3) ∧ ({ context with unitTimer := some 7 } : CallContext).unitTimer = some 7 ∧
      context.unitTimer = none ∧ context.units ≠ BitVec.allOnes 32 ∧
      (running.setContext 0 (some context)).context 0 = some context := by decide +kernel

/-- A call that ends with its destination not cancelled and no stream open, with attempts left and at the limit; settings that
wait and are OFF, or another. -/
theorem test_premises_LineTimersExpire_settlement :
    let s : State := (((running.setLine 0 (calling .awaiting)).setContext 0 (some { context with destination := some 3 })).setDoc
      0 { built with attemptLimit := 2 }).setDest 3 (dest .dialling)
    let waits (d : LineDirection) : LineRecord := { (line .clearing .both).record with
      pending := some { LineSettings.powerOn with direction := d } }
    ((s.context 0).map (fun c => c.destination) = some (some 3) ∧ (s.dest 3).cancelRequested = false ∧
      (s.stream 0).state = .closed ∧ (s.stream 0).callDoc = none) ∧
      (0 + 1 < (s.doc 0).attemptLimit ∧ ¬(1 + 1 < (s.doc 0).attemptLimit)) ∧
      ((waits .off).pending.getD (waits .off).active).direction = .off ∧ (waits .off).pending ≠ none ∧
      ((waits .out).pending.getD (waits .out).active).direction ≠ .off := by decide +kernel

/-- A number of one digit: to be dialled, and sent; each phase of an element. -/
theorem test_premises_Dialling :
    let u : LineUnit := { calling .seizing with seizeDelay := some 7, loopSeen := true, number := [.digit 0] }
    (u.seizeDelay = some 7 ∧ u.loopSeen = true ∧ u.number[u.record.charsSent]? = some (.digit 0)) ∧
      u.record.active.dialMethod = .tone ∧ u.number[u.record.charsSent + 1]? = none ∧
      ({ u with number := [.digit 0, .star] } : LineUnit).number[u.record.charsSent + 1]? = some .star ∧ u.element = none ∧
      ∀ p ∈ [DialPhase.toneOn, .toneGap, .pulseBreak 9, .pulseMake 9, .pulseMake 0, .interdigit, .pause],
        ({ u with element := some ⟨p, 7⟩ } : LineUnit).element = some ⟨p, 7⟩ := by decide +kernel

/-! ## One small run of each command -/

theorem test_runs_powerOn :
    (after (.powerOn 15) running).path.controlBase = 0x3C00000 ∧ (after (.powerOn 15) running).ctl.engine = .pass := by
  decide +kernel

theorem test_runs_resetInputAssert :
    (after .resetInputAssert running).resetInput = true ∧ (after .resetInputAssert running).ctl.teardown.isSome = true := by
  decide +kernel

theorem test_runs_resetInputRelease :
    (after .resetInputRelease { running with resetInput := true }).resetInput = false := by
  decide +kernel

theorem test_runs_hostForwardedAccess :
    let s := after (.hostForwardedAccess (.write ⟨0x10000, .four, 0x04030201⟩)) running
    Memory.readBytes s.mem 0x10000 4 = [1, 2, 3, 4] ∧
      (after (.hostForwardedAccess (.read ⟨0x10001, .two⟩)) s).path.answer = some (.read [2, 3]) := by
  decide +kernel

theorem test_runs_holdLimitWrite :
    (after (.holdLimitWrite ⟨0, .four, 1⟩) running).path.holdLimit = 2 ∧
      (after (.holdLimitWrite ⟨0, .four, 251⟩) running).path.holdLimit = 250 := by
  decide +kernel

theorem test_runs_noticeMaskWrite :
    QueueEntry.maskRead ∈ (after (.noticeMaskWrite ⟨4, .four, 0⟩) State.reset).ctl.queue := by
  decide +kernel

theorem test_runs_maskReadComplete :
    (after .maskReadComplete (onPort .control .maskRead 4 [0xFE, 0x0F, 0, 0] running)).ctl.mask = 0xFFE := by
  decide +kernel

theorem test_runs_windowTableWrite :
    ((after (.windowTableWrite ⟨0x10C, .four, 1⟩) (after (.windowTableWrite ⟨0x100, .four, 0x800080⟩) running)).window 0).active =
      ⟨0x800000, 1⟩ := by
  decide +kernel

theorem test_runs_tailWordWrite :
    QueueEntry.tailRead ∈ (after (.tailWordWrite ⟨0x400, .four, 1⟩) State.reset).ctl.queue := by
  decide +kernel

theorem test_runs_tailReadComplete :
    (after .tailReadComplete (onPort .control .tailRead 0x400 [1, 0, 0, 0] running)).ctl.takenTail = 1 ∧
      (after .tailReadComplete (onPort .control .tailRead 0x400 [33, 0, 0, 0] running)).ctl.ring = .halted := by
  decide +kernel

theorem test_runs_acknowledgeWrite :
    ((after (.acknowledgeWrite ⟨0x40D, .one, 1⟩) (running.raise .guard)).isPending .guard) = false ∧
      ((after (.acknowledgeWrite ⟨0x40C, .one, 1⟩) (running.raise .guard)).isPending .guard) = true := by
  decide +kernel

theorem test_runs_controlAreaDrop :
    let s := after (.controlAreaDrop ⟨0x404, .four, 7⟩) running
    s.path.controlDrops = 1 ∧ s.isPending .guard = true ∧ Memory.read s.mem 0x404 = 0 := by
  decide +kernel

theorem test_runs_storeLogWriteDrop :
    (after (.storeLogWriteDrop ⟨0x400000, .four, 7⟩) running).path.storeDrops = 1 ∧
      (after (.storeLogWriteDrop ⟨0x50FFFC, .four, 7⟩) running).path.logDrops = 1 := by
  decide +kernel

theorem test_runs_closedWindowAccess :
    (after (.closedWindowAccess (.write (windowWrite .two 7))) (withWindow 2 running)).streams.get 0 =
      { LineStream.powerOn with dropped := 1 } := by
  decide +kernel

theorem test_runs_wrongDirectionWindowAccess :
    (after (.wrongDirectionWindowAccess (.read (windowRead .two))) (withWindow 0 (running.setScan (scanIn .open)))).path.answer =
      some (.read [0, 0]) := by
  decide +kernel

theorem test_runs_scanWindowWrite :
    let s := after (.scanWindowWrite (windowWrite .two 0x0201)) (withWindow 0 ((running.setDoc 0 building).setScan (scanIn .open)))
    s.scan.bufferA = .filling [1, 2] ∧ (s.page 0).state = .writing ∧ s.pageList 0 = [0] ∧ s.freeBlocks = 63 := by
  decide +kernel

theorem test_runs_receiveWindowWrite :
    ((after (.receiveWindowWrite (windowWrite .one 5)) (withWindow 2 (lineWrites (running.setStream 0 receiving)))).stream
      0).collecting.bytes = [5] := by
  decide +kernel

theorem test_runs_printWindowRead :
    (after (.printWindowRead (windowRead .one)) (withWindow 1 (running.setPrint
      { printIn .open with bufferA := .ready [7, 8] 0, lineCount := 1 }))).path.answer = some (.read [7]) := by
  decide +kernel

theorem test_runs_sendWindowRead :
    let s := after (.sendWindowRead (windowRead .two)) (withWindow 2 ((running.setPage 0 closedPage).setStream 0
      { sending .open with readAhead := [5], readPos := 1 }))
    s.path.answer = some (.read [5, 0xF2]) ∧ (s.stream 0).fillCount = 1 := by
  decide +kernel

theorem test_runs_holdExpiry :
    let s := after .holdExpiry (withHeld (.read (windowRead .two)) 1 .printNotDecoded (running.setPrint (printIn .open)))
    s.path.answer = some (.read [0, 0]) ∧ s.now = 40 ∧ s.print.expiries = 1 ∧ s.isPending .hold = true := by
  decide +kernel

theorem test_runs_storeWriteComplete :
    let s := after .storeWriteComplete (onPort .scan (.storeWrite .scan 0 true) 0x400003 [0xF3]
      (((running.setPage 0 { writtenPage with closing := true }).setDoc 0 building).setSlot .scan ⟨none, none, some ⟨0, [], 0x5348⟩⟩))
    (s.page 0).state = .closed ∧ (s.page 0).check = 0x5348 ∧ Memory.read s.mem 0x400003 = 0xF3 := by
  decide +kernel

theorem test_runs_storeReadComplete :
    (after .storeReadComplete (onPort .print (.storeRead true) 0x400000 [9] (running.setPrint (printIn .open)))).print.readAhead =
      [9] := by
  decide +kernel

theorem test_runs_mirrorWriteComplete :
    let s := after .mirrorWriteComplete (onPort .control (.recordWrite .counters) 0x5A00 [9] running)
    Memory.read s.mem 0x5A00 = 9 ∧ s.path.port = none := by
  decide +kernel

theorem test_runs_slotReadComplete :
    let s := after .slotReadComplete (onPort .control (.slotRead true) 0x800 [0x00]
      { running with ctl := { running.ctl with inProgress := some ⟨0, .reading⟩ } })
    s.ctl.inProgress = some ⟨0, .executed⟩ ∧ s.ctl.lastResult = answers .badArg := by
  decide +kernel

theorem test_runs_resultWriteComplete :
    let s := after .resultWriteComplete (onPort .control .resultWrite 0x830 [2]
      { running with ctl := { running.ctl with inProgress := some ⟨0, .executed⟩, takenTail := 1 } })
    s.ctl.head = 1 ∧ s.ctl.inProgress = none ∧ s.isPending .command = true ∧ Memory.read s.mem 0x830 = 2 := by
  decide +kernel

theorem test_runs_chargeRecordWriteComplete :
    let s := after .chargeRecordWriteComplete (onPort .charge .chargeWrite 0x500000 [9]
      { running with charge := { running.charge with recordQueue := [record], allotIndex := 1 } })
    s.charge.writeIndex = 1 ∧ s.charge.recordQueue = [] ∧ Memory.read s.mem 0x500000 = 9 := by
  decide +kernel

theorem test_runs_unknownCommand : resultOf (.unknownCommand 0x09) running = answers .badArg := by decide +kernel

theorem test_runs_storeSetup :
    let s := after (.storeSetup 0x400000 64 0x500000 65535) State.reset
    s.ctl.lastResult = some ⟨.ok, [64, 0, 32, 0]⟩ ∧ s.ctl.engine = .running ∧ s.freeBlocks = 64 := by
  decide +kernel

theorem test_runs_timeSet :
    let s := after (.timeSet 65535 6 86399) running
    s.ctl.lastResult = some ⟨.ok, [0]⟩ ∧ s.charge.clock = ⟨65535, 86399⟩ ∧ s.charge.clockSet = true := by
  decide +kernel

theorem test_runs_periodSet :
    let s := after (.periodSet 7 127 3 86399) running
    s.charge.calendar.get 7 = ⟨127, 86399, 3⟩ ∧ s.charge.period = 0 ∧
      resultOf (.periodSet 7 127 3 86399) (after (.timeSet 0 6 86399) running) = some ⟨.ok, [3]⟩ := by
  decide +kernel

theorem test_runs_tariffSet : ((after (.tariffSet 7 0 1 2 3600) running).charge.grid.get 7).get 3 = 3600 := by decide +kernel

theorem test_runs_prefixSet :
    (after (.prefixSet 31 2 4 7 0x0100) running).charge.prefixes.get 31 = ⟨[0, 1], 4, 7⟩ := by
  decide +kernel

theorem test_runs_accountSet :
    let s := after (.accountSet 31 4 1 9999 1000000) running
    s.ctl.lastResult = some ⟨.ok, [0]⟩ ∧ (s.account 31).policy = .cut ∧ (s.account 31).budget = 1000000 := by
  decide +kernel

theorem test_runs_accountClear :
    let s := after (.accountClear 1) (running.setAccount 1 { Account.powerOn 2 with charged := 7, calls := 3 })
    (s.account 1).charged = 0 ∧ (s.account 1).calls = 0 ∧ (s.account 1).cls = 2 := by
  decide +kernel

theorem test_runs_lineSetup :
    ((after (.lineSetup 3 ⟨3, 1, 1, 9, 8, 180, 10, 10, 200, 200⟩) running).lineUnit 3).record.state = .idle ∧
      resultOf (.lineSetup 3 ⟨3, 1, 1, 9, 8, 180, 10, 10, 200, 200⟩) running = some ⟨.ok, [1]⟩ := by
  decide +kernel

theorem test_runs_docCreate :
    let s := after (.docCreate 0 0 31 0 0 1 9 ⟨0, 0, 0⟩) (running.setDoc 0 building)
    s.ctl.lastResult = some ⟨.ok, [1]⟩ ∧ (s.doc 1).attemptLimit = 3 ∧ (s.doc 1).obligation = .pending := by
  decide +kernel

theorem test_runs_destAdd :
    let s := after (.destAdd 0 ⟨2, 0xA5⟩) (running.setDoc 0 building)
    s.ctl.lastResult = some ⟨.ok, [0, 0, 1]⟩ ∧ (s.dest 0).number = [.digit 5, .star] ∧ (s.dest 0).blockReason = .unreleased := by
  decide +kernel

theorem test_runs_docRelease :
    let s := after (.docRelease 0) (running.setDoc 0 building)
    s.ctl.lastResult = some ⟨.ok, [0, 0, 0, 0]⟩ ∧ (s.doc 0).released = true ∧ s.dispatch.releaseCounter = 1 := by
  decide +kernel

theorem test_runs_docCancel :
    let s := after (.docCancel 0) ((running.setDoc 0 { built with dests := [3] }).setDest 3 (dest .pending))
    (s.dest 3).state = .cancelled ∧ (s.doc 0).complete = true ∧ s.isPending .dispatch = true := by
  decide +kernel

theorem test_runs_destCancel :
    ((after (.destCancel 3) ((running.setDoc 0 { building with dests := [3] }).setDest 3 (dest .waiting))).dest 3).state =
      .cancelled := by
  decide +kernel

theorem test_runs_docDelete :
    (after (.docDelete 0) (running.setDoc 0 completed)).doc 0 = DocRecord.empty := by
  decide +kernel

theorem test_runs_printFirst :
    (after (.printFirst 2) ((running.setPrintQueue [0, 1, 2]).setDoc 0
      { built with obligation := .printing })).dispatch.printQueue = [0, 2, 1] := by
  decide +kernel

theorem test_runs_scanOpen :
    let s := after (.scanOpen 0 2 16) (running.setDoc 0 building)
    s.scan.state = .open ∧ s.scan.width = .wide ∧ s.scan.k = 16 := by
  decide +kernel

theorem test_runs_pageCut :
    let s := after .pageCut (scanWrites (running.setScan { scanIn .open with bufferA := .filling [1, 2, 3] }))
    s.ctl.lastResult = some ⟨.ok, [3, 0]⟩ ∧ s.scan.state = .cutting := by
  decide +kernel

theorem test_runs_scanResume :
    (after .scanResume (running.setScan { scanIn .starved with cause := .block })).scan.state = .open ∧
      resultOf .scanResume (running.setScan { scanIn .starved with cause := .pages }) = answers .badArg := by
  decide +kernel

theorem test_runs_scanClose :
    let s := after .scanClose ((running.setDoc 0 building).setScan { scanIn .open with bufferA := .filling [1] })
    s.ctl.lastResult = some ⟨.ok, [1, 0]⟩ ∧ s.scan.state = .closed := by
  decide +kernel

theorem test_runs_printOpen :
    let s := after .printOpen ((((running.setPage 0 closedPage).setPageList 0 [0]).setPrintQueue [0]).setDoc 0 built)
    s.ctl.lastResult = some ⟨.ok, [0, 1, 1]⟩ ∧ s.print.state = .open ∧ (s.doc 0).obligation = .printing := by
  decide +kernel

theorem test_runs_printNext :
    let s := after .printNext ((((running.setPageList 0 [0]).setPrintQueue [0]).setDoc 0
      { built with obligation := .printing, localCopy := true }).setPrint (printIn .pageEnd))
    s.ctl.lastResult = some ⟨.ok, [1, 1, 1]⟩ ∧ s.print.state = .docEnd ∧ s.dispatch.printQueue = [] := by
  decide +kernel

theorem test_runs_printClose :
    let s := after .printClose (((running.setPrintQueue [0]).setDoc 0 { built with obligation := .printing }).setPrint
      (printIn .pageEnd))
    s.print.state = .closed ∧ (s.doc 0).obligation = .queued := by
  decide +kernel

theorem test_runs_sendOpen :
    let s := after (.sendOpen 0 1 40) ((((running.setLine 0 (calling .connected)).setDest 3 (dest .dialling)).setPage 0
      closedPage).setPageList 0 [0])
    s.ctl.lastResult = some ⟨.ok, [1]⟩ ∧ (s.stream 0).state = .open ∧ (s.dest 3).state = .sending := by
  decide +kernel

theorem test_runs_pageResult :
    let s := after (.pageResult 0 0) ((((running.setLine 0 (calling .connected)).setDest 3 (dest .sending)).setDoc 0
      built).setStream 0 (sending .pageEnd))
    s.ctl.lastResult = some ⟨.ok, [1]⟩ ∧ (s.stream 0).state = .docEnd ∧ (s.dest 3).confirmed = 1 := by
  decide +kernel

theorem test_runs_receiveOpen :
    let s := after (.receiveOpen 0 0 0) (running.setLine 0 { line .connected .both with
      record := { (line .connected .both).record with callDirection := .incoming } })
    s.ctl.lastResult = some ⟨.ok, [0]⟩ ∧ (s.stream 0).state = .open ∧ (s.doc 0).kind = .incoming := by
  decide +kernel

theorem test_runs_streamClose :
    let s := after (.streamClose 0) (lineWrites (running.setStream 0 receiving))
    (s.stream 0).state = .closed ∧ (s.page 0).closing = true ∧ (s.page 0).truncated = true := by
  decide +kernel

theorem test_runs_callAnswer :
    let s := after (.callAnswer 0) (running.setLine 0 { line .ringing .both with record := { (line .ringing .both).record with
      active := { (line .ringing .both).record.active with rings := 0 } } })
    (s.lineUnit 0).record.state = .connected ∧ (s.lineUnit 0).offHook = true ∧ s.charge.reservations = 1 := by
  decide +kernel

theorem test_runs_answerSeen :
    let s := after (.answerSeen 0) ((running.setLine 0 (calling .awaiting)).setContext 0
      (some { context with method := .time, phase := .unanswered }))
    (s.lineUnit 0).record.answerSource = .host ∧ (s.account 1).charged = 1 := by
  decide +kernel

theorem test_runs_callEnd :
    let s := after (.callEnd 0 2) (((running.setLine 0 (calling .connected)).setDest 3 (dest .dialling)).setContext 0
      (some context))
    (s.lineUnit 0).record.state = .clearing ∧ (s.lineUnit 0).record.lastCause = .busy ∧ s.charge.allotIndex = 1 := by
  decide +kernel

theorem test_runs_logRelease :
    let s : State := { running with charge := { running.charge with writeIndex := 3 } }
    resultOf (.logRelease 2) s = some ⟨.ok, [2, 0, 1, 0]⟩ ∧ resultOf (.logRelease 4) s = answers .badArg := by
  decide +kernel

theorem test_runs_encodeComplete :
    let s := after .encodeComplete (withJob .scan .encode (scanWrites (running.setScan
      { scanIn .open with bufferA := .full (List.replicate 192 0) })))
    (s.page 0).lineCount = 2 ∧ s.scan.bufferA = .empty := by
  decide +kernel

theorem test_runs_decodeComplete :
    let s := after .decodeComplete (withJob .print .decode (running.setPrint
      { printIn .open with bufferA := .decoding, readAhead := [0xC6, 0, 0xF1] }))
    s.print.bufferA = .ready (List.replicate 192 0) 0 ∧ s.print.codeErrors = 0 := by
  decide +kernel

theorem test_runs_checkComplete :
    let s := after .checkComplete (withJob (.line 0) .check (lineWrites (running.setStream 0
      { receiving with checkBuffer := some ⟨[5, 0xF1], false, false⟩ })))
    (s.page 0).badLines = 1 ∧ (s.page 0).lineCount = 2 ∧ (s.stream 0).badRun = 1 := by
  decide +kernel

theorem test_runs_expandComplete :
    let s := after .expandComplete (withJob (.line 0) .expand ((running.setPage 0 closedPage).setStream 0
      { sending .open with takesRepeat := false, minLine := 4, readAhead := [0xF0, 0xF1, 0xF3], readPos := 3 }))
    (s.stream 0).ready = [⟨[0xC6, 0, 0xF2, 0xF1], 2⟩] := by
  decide +kernel

theorem test_runs_retryTimerExpiry :
    let s := after (.retryTimerExpiry 3) (((running.setRetryTimer 3 (some 9)).setDoc 0 { building with dests := [3] }).setDest 3
      (dest .waiting))
    (s.dest 3).state = .pending ∧ s.now = 9 := by
  decide +kernel

theorem test_runs_secondEvent :
    let s := after .secondEvent (after (.timeSet 65535 6 86399) running)
    s.charge.clock = ⟨0, 0⟩ ∧ s.charge.dayOfWeek = 0 ∧ s.now = 1000000 := by
  decide +kernel

theorem test_runs_ringBurstCounted :
    let s := after (.ringBurstCounted 0) (running.setLine 0 { line .idle .incoming with ring := .timing 150000 })
    (s.lineUnit 0).record.state = .ringing ∧ (s.lineUnit 0).record.ringCount = 1 ∧ s.isPending .line = true := by
  decide +kernel

theorem test_runs_ringCycleEnd :
    ((after (.ringCycleEnd 0) (running.setLine 0 { line .ringing .both with ringCycle := some 8 })).lineUnit 0).record.state =
      .idle := by
  decide +kernel

theorem test_runs_meterPulseJudged :
    let s := after (.meterPulseJudged 0 30000) ((running.setLine 0 { calling .connected with meterStart := some 0 }).setContext 0
      (some context))
    (s.account 1).charged = 1 ∧ (s.context 0).map (fun c => c.qualified) = some 1 := by
  decide +kernel

theorem test_runs_reversal :
    ((after (.reversal 0) (running.setLine 0 (calling .awaiting))).lineUnit 0).record.answerSource = .reversal := by
  decide +kernel

theorem test_runs_loopSensePresent :
    ((after (.loopSensePresent 0) (running.setLine 0 { calling .seizing with loopLoss := some 5 })).lineUnit 0).loopSeen = true ∧
      ((after (.loopSensePresent 0) (running.setLine 0 { calling .seizing with loopLoss := some 5 })).lineUnit 0).loopLoss = none := by
  decide +kernel

theorem test_runs_loopSenseAbsent :
    ((after (.loopSenseAbsent 0) (running.setLine 0 (calling .connected))).lineUnit 0).loopLoss = some 400000 := by
  decide +kernel

theorem test_runs_loopLoss :
    ((after (.loopLoss 0) (running.setLine 0 { calling .connected with loopLoss := some 5 })).lineUnit 0).record.lastCause =
      .loopDrop := by
  decide +kernel

theorem test_runs_loopCheckExpiry :
    let u := (after (.loopCheckExpiry 0) (running.setLine 0 { calling .seizing with loopCheck := some 5 })).lineUnit 0
    u.record.lastCause = .noLoop ∧ u.record.noLoopRun = 1 ∧ u.clearGuard = some 3000005 := by
  decide +kernel

theorem test_runs_seizeDelayExpiry :
    let u := (after (.seizeDelayExpiry 0) (running.setLine 0
      { calling .seizing with seizeDelay := some 5, loopSeen := true, number := [.digit 0] })).lineUnit 0
    u.record.state = .dialling ∧ u.toneCode = 10 ∧ u.element = some ⟨.toneOn, 90005⟩ := by
  decide +kernel

theorem test_runs_dialElementEnd :
    let u := (after (.dialElementEnd 0) (running.setLine 0
      { calling .dialling with element := some ⟨.toneGap, 5⟩, number := [.digit 0] })).lineUnit 0
    u.record.state = .awaiting ∧ u.record.charsSent = 1 ∧ u.noAnswer = some 60000005 := by
  decide +kernel

theorem test_runs_noAnswerExpiry :
    ((after (.noAnswerExpiry 0) (running.setLine 0 { calling .awaiting with noAnswer := some 5 })).lineUnit 0).record.lastCause =
      .noAnswer := by
  decide +kernel

theorem test_runs_clearGuardExpiry :
    let s := after (.clearGuardExpiry 0) (running.setLine 0 { line .clearing .both with clearGuard := some 5 })
    (s.lineUnit 0).record.state = .idle ∧ s.isPending .line = true := by
  decide +kernel

theorem test_runs_unitTimerExpiry :
    let s := after (.unitTimerExpiry 0) ((after (.tariffSet 0 3600 0 0 0) running).setContext 0
      (some { context with method := .time, unitTimer := some 5 }))
    (s.account 1).charged = 1 ∧ (s.context 0).map (fun c => c.unitTimer) = some (some 3600000005) := by
  decide +kernel

theorem test_runs_graceExpiry :
    ((after (.graceExpiry 0) ((running.setLine 0 (calling .connected)).setContext 0
      (some { context with phase := .grace, graceTimer := some 5 }))).lineUnit 0).record.lastCause = .budget := by
  decide +kernel

theorem test_runs_ringInputActive :
    ((after (.ringInputActive 0) (running.setLine 0 (line .idle .both))).lineUnit 0).ring = .timing 150000 := by
  decide +kernel

theorem test_runs_ringInputInactive :
    ((after (.ringInputInactive 0) (running.setLine 0 { line .idle .both with ring := .counted })).lineUnit 0).ring =
      .inactive := by
  decide +kernel

theorem test_runs_meterInputActive :
    ((after (.meterInputActive 0) (running.setLine 0 (calling .connected))).lineUnit 0).meterStart = some 0 := by
  decide +kernel

theorem test_runs_dialElementPhaseEnd :
    let u := (after (.dialElementPhaseEnd 0) (running.setLine 0
      { calling .dialling with element := some ⟨.pulseMake 1, 5⟩, offHook := true })).lineUnit 0
    u.offHook = false ∧ u.element = some ⟨.pulseBreak 0, 60005⟩ := by
  decide +kernel

end Sys2Proof.Tests
end

/-! PROOF. The notice flags (section 2.4): what a raise makes of each flag and of the mirror write queue, and the notice
output in terms of the flags and the mask. -/

namespace Sys2Proof.Machine

/-! ## Places in the notice word -/

/-- The flag at each place of the notice word. -/
def Notice.ofPosition (i : Fin 12) : Notice :=
  #v[.command, .stream, .line, .dispatch, .printQ, .storeLow, .log, .budget, .guard, .hold, .clock, .reset][i]

@[simp] theorem Notice.position_ofPosition (i : Fin 12) : (Notice.ofPosition i).position = i := by
  revert i
  decide

theorem Notice.position_lt (f : Notice) : f.position < 12 := by
  cases f <;> decide

theorem Notice.ofPosition_position (f : Notice) : Notice.ofPosition ⟨f.position, f.position_lt⟩ = f := by
  cases f <;> rfl

/-- No two flags share a place. -/
@[simp] theorem Notice.position_inj {f g : Notice} : f.position = g.position ↔ f = g := by
  refine ⟨fun h => ?_, congrArg Notice.position⟩
  rw [← f.ofPosition_position, ← g.ofPosition_position]
  simp only [h]

/-- The 12 places of the notice word are those of the flags: to look for a bit is to look for a flag. -/
theorem Notice.exists_position_iff (p : Nat → Prop) : (∃ i, i < 12 ∧ p i) ↔ ∃ f : Notice, p f.position := by
  constructor
  · rintro ⟨i, hi, h⟩
    exact ⟨Notice.ofPosition ⟨i, hi⟩, by simpa using h⟩
  · rintro ⟨f, h⟩
    exact ⟨f.position, f.position_lt, h⟩

/-! ## A raise (R30) -/

/-- The mask bit has no part in it (R30): a raise makes its own flag pending and leaves the others as they are. -/
@[simp] theorem State.raise_isPending (f g : Notice) (s : State) :
    (s.raise f).isPending g = (s.isPending g || decide (g = f)) := by
  simp [State.isPending, Notice.bit_getLsbD f g.position_lt]

theorem State.raise_of_isPending {f : Notice} {s : State} (h : s.isPending f = true) : s.raise f = s :=
  if_pos h

/-- Whether or not it was queued before, an entry adds no other entry to the queue. -/
theorem State.mem_enqueue_iff (e x : QueueEntry) (s : State) :
    e ∈ (s.enqueue x).ctl.queue ↔ e ∈ s.ctl.queue ∨ e = x := by
  unfold State.enqueue
  split
  · next hx => exact ⟨.inl, fun h => h.elim id fun hex => hex ▸ hx⟩
  · simp

/-- A raise of a clear flag queues the status words beside what was queued. -/
theorem State.mem_raise_iff {f : Notice} {s : State} (h : s.isPending f = false) (e : QueueEntry) :
    e ∈ (s.raise f).ctl.queue ↔ e ∈ s.ctl.queue ∨ e = .record .statusWords := by
  rw [State.raise, if_neg (by simp [h]), State.rewrite, State.mem_enqueue_iff]

/-! ## The notice output (R33) -/

/-- The output is asserted exactly when some flag is pending with its mask bit clear. -/
theorem State.noticeOutput_iff (s : State) :
    s.noticeOutput = true ↔ ∃ g, s.isPending g = true ∧ s.ctl.mask.getLsbD g.position = false := by
  have bit (i : Nat) (hi : i < 12) : (s.ctl.notices &&& ~~~s.ctl.mask).getLsbD i = true ↔
      s.ctl.notices.getLsbD i = true ∧ s.ctl.mask.getLsbD i = false := by
    simp [hi]
  calc s.noticeOutput = true
    _ ↔ ∃ i, i < 12 ∧ (s.ctl.notices &&& ~~~s.ctl.mask).getLsbD i = true := by
        simp [State.noticeOutput, BitVec.eq_of_getLsbD_eq_iff]
    _ ↔ ∃ g : Notice, (s.ctl.notices &&& ~~~s.ctl.mask).getLsbD g.position = true := Notice.exists_position_iff _
    _ ↔ ∃ g, s.isPending g = true ∧ s.ctl.mask.getLsbD g.position = false :=
        exists_congr fun g => bit g.position g.position_lt

/-! ## The obligation -/

/-- Settles O7, from what a raise makes of the flags, of the queue and of the output. -/
theorem raiseSetsAFlag : Obligations.RaiseSetsAFlag := by
  intro f s
  refine ⟨?pending, ?others, State.raise_of_isPending, ?queued, ?mask, ?frame, ?output⟩
  case pending => simp
  case others =>
    intro g hg
    simp [hg]
  case queued =>
    intro hclear
    exact ⟨(State.mem_raise_iff hclear _).mpr (.inr rfl), State.mem_raise_iff hclear⟩
  case mask => exact State.raise_ctl_mask s f
  case frame =>
    rw [State.raise_notices]
    exact State.raise_eq f s
  case output => rw [State.noticeOutput_iff, State.raise_ctl_mask]

end Sys2Proof.Machine

/-! PROOF. DOC DELETE and PRINT FIRST (R106, R115): what freeing a list of pool entries comes to as one equation, what a
deleted document leaves, and where a document that is printed first comes to stand. -/

namespace Sys2Proof

/-! ## A table with many records replaced -/

namespace Table

variable {α : Type} {n : Nat}

/-- The table with the record at each index of a list replaced by the same one. -/
def setAll (t : Table α n) (l : List (Fin n)) (x : α) : Table α n := l.foldl (fun u i => u.set i x) t

theorem get_setAll (t : Table α n) (l : List (Fin n)) (x : α) (i : Fin n) :
    (t.setAll l x).get i = if i ∈ l then x else t.get i := by
  induction l generalizing t with
  | nil => simp [setAll]
  | cons j l ih =>
    have hrest : ((t.set j x).setAll l x).get i = if i ∈ l then x else (t.set j x).get i := ih _
    rw [setAll, List.foldl_cons, ← setAll, hrest, get_set]
    by_cases hij : i = j
    · simp [hij]
    · simp [hij, Ne.symm hij]

end Table

namespace Machine

/-! ## Freeing pool entries -/

/-- The state with the pool entries of a list at the values of free entries and their retry timers stopped; no rewrite is
queued. -/
def State.withFreed (l : List (Fin 512)) (s : State) : State :=
  { s with dispatch := { s.dispatch with
      dests := s.dispatch.dests.setAll l DestRecord.empty, retryTimers := s.dispatch.retryTimers.setAll l none } }

theorem State.withFreed_dest (l : List (Fin 512)) (s : State) (x : Fin 512) :
    (s.withFreed l).dest x = if x ∈ l then DestRecord.empty else s.dest x := Table.get_setAll _ _ _ _

theorem State.freeDest_form (s : State) (x : Fin 512) :
    ∃ q, s.freeDest x = (s.withFreed [x]).withQueue q ∧ Keeps s.ctl.queue q ∧
      (s.dest x ≠ DestRecord.empty → QueueEntry.record (.destination x) ∈ q) := by
  obtain ⟨q, hset, hkeeps, hqueued⟩ := State.setDest_form x DestRecord.empty s
  refine ⟨q, ?_, hkeeps, fun h => hqueued h.symm⟩
  rw [State.freeDest, hset]
  rfl

/-- An entry that stands twice in the list is free when its second turn comes; its rewrite is queued from the first. -/
theorem State.freeDests_form (l : List (Fin 512)) (s : State) :
    ∃ q, l.foldl State.freeDest s = (s.withFreed l).withQueue q ∧ Keeps s.ctl.queue q ∧
      ∀ x, x ∈ l → s.dest x ≠ DestRecord.empty → QueueEntry.record (.destination x) ∈ q := by
  induction l generalizing s with
  | nil => exact ⟨s.ctl.queue, rfl, Keeps.refl _, by simp⟩
  | cons y l ih =>
    obtain ⟨q, hfree, hkeeps, hqueued⟩ := s.freeDest_form y
    obtain ⟨r, hrest, hkeeps', hqueued'⟩ := ih ((s.withFreed [y]).withQueue q)
    refine ⟨r, ?_, hkeeps.trans hkeeps', fun x hx hne => ?_⟩
    · rw [List.foldl_cons, hfree, hrest]
      rfl
    · by_cases hxy : x = y
      · subst hxy
        exact hkeeps' _ (hqueued hne)
      · have hxl : x ∈ l := List.mem_of_ne_of_mem hxy hx
        exact hqueued' x hxl (by simpa [State.withFreed_dest, hxy] using hne)

/-! ## DOC DELETE (R106) -/

/-- A document's entry and its pool entries freed, its page list emptied. -/
def State.deleteDoc (d : Fin 64) (s : State) : State :=
  (((s.doc d).dests.foldl State.freeDest s).setDoc d DocRecord.empty).setPageList d []

theorem State.cmdDocDelete_of_le {document : BitVec 8} {s : State} (hrun : s.ctl.engine = .running)
    (h : 64 ≤ document.toNat) : State.cmdDocDelete document s = s.not .badArg := by
  rw [State.cmdDocDelete, State.inRunning_taken _ hrun, indexBelow_of_le h]

theorem State.cmdDocDelete_of_eq {document : BitVec 8} {d : Fin 64} {s : State} (hrun : s.ctl.engine = .running)
    (h : document.toNat = d.val) :
    State.cmdDocDelete document s =
      if (s.doc d).inUse = false then s.not .notFound
      else if (s.doc d).complete = false then s.not .busy
      else (s.deleteDoc d).okay [] := by
  rw [State.cmdDocDelete, State.inRunning_taken _ hrun, indexBelow_of_eq d h]
  rfl

/-- The document's rewrite is queued because an entry in use is not a free one. -/
theorem State.deleteDoc_form {d : Fin 64} {s : State} (huse : (s.doc d).inUse = true) :
    ∃ q, s.deleteDoc d = ({ s with dispatch := { s.dispatch with
          docs := s.dispatch.docs.set d DocRecord.empty, pageLists := s.dispatch.pageLists.set d [],
          dests := s.dispatch.dests.setAll (s.doc d).dests DestRecord.empty,
          retryTimers := s.dispatch.retryTimers.setAll (s.doc d).dests none } } : State).withQueue q ∧
      QueueEntry.record (.document d) ∈ q ∧
      ∀ x, x ∈ (s.doc d).dests → s.dest x ≠ DestRecord.empty → QueueEntry.record (.destination x) ∈ q := by
  have hne : DocRecord.empty ≠ s.doc d := fun e => by
    rw [← e] at huse
    cases huse
  obtain ⟨q₁, hdests, -, hqueued⟩ := State.freeDests_form (s.doc d).dests s
  obtain ⟨q₂, hdoc, hkeeps₂, hdocQueued⟩ :=
    State.setDoc_form d DocRecord.empty ((s.withFreed (s.doc d).dests).withQueue q₁)
  obtain ⟨q, hlist, hkeeps, -⟩ := State.setPageList_form d []
    (((s.withFreed (s.doc d).dests).withQueue q₁).setDoc d DocRecord.empty)
  rw [hdoc] at hlist hkeeps
  refine ⟨q, ?_, hkeeps _ (hdocQueued hne), fun x hx hxne => hkeeps _ (hkeeps₂ _ (hqueued x hx hxne))⟩
  rw [State.deleteDoc, hdests, hdoc, hlist]
  rfl

theorem exec_docDelete (document : BitVec 8) (s : State) :
    exec (.docDelete document) s = s.after (State.runCommand (State.cmdDocDelete document)) := rfl

/-- Settles O47, from the command's four answers and from what a deleted document leaves. -/
theorem docDelete : Obligations.DocDelete := by
  intro document s hup hrun
  refine ⟨fun hle => ?_, fun d hd => ⟨fun hfree => ?_, fun huse hcomplete => ?_, fun huse hcomplete => ?_⟩⟩
  · exact State.ring_command_answers hup (exec_docDelete _ _) (State.cmdDocDelete_of_le hrun hle)
  · refine State.ring_command_answers hup (exec_docDelete _ _) ((State.cmdDocDelete_of_eq hrun hd).trans ?_)
    exact if_pos hfree
  · refine State.ring_command_answers hup (exec_docDelete _ _) ((State.cmdDocDelete_of_eq hrun hd).trans ?_)
    rw [huse, hcomplete]
    rfl
  · have hcmd : State.cmdDocDelete document s = (s.deleteDoc d).okay [] := by
      simp [State.cmdDocDelete_of_eq hrun hd, huse, hcomplete]
    refine State.ring_command_leaves _ hup (exec_docDelete _ _) hcmd ?_
    obtain ⟨q, hform, hdoc, hdests⟩ := State.deleteDoc_form huse
    rw [State.okay, hform]
    exact ⟨rfl, Table.get_setAll _ _ _, Table.get_setAll _ _ _, hdoc, hdests⟩

/-! ## PRINT FIRST (R115) -/

/-- A head that is PRINTING stands before the document; any other head, the document itself too, comes after it. -/
theorem State.printFirst_eq {d h : Fin 64} {rest : List (Fin 64)} {s : State}
    (hqueue : s.dispatch.printQueue = h :: rest) (hd : (s.doc d).obligation ≠ .printing) :
    s.printFirst d = s.setPrintQueue
      (if (s.doc h).obligation = .printing then h :: d :: rest.filter (fun e => decide (e ≠ d))
       else d :: (h :: rest).filter (fun e => decide (e ≠ d))) := by
  unfold State.printFirst
  rw [hqueue]
  by_cases hhd : h = d
  · subst hhd
    rw [if_neg hd, List.filter_cons_of_neg (by simp)]
    cases hothers : rest.filter (fun e => decide (e ≠ h)) with
    | nil => rfl
    | cons k others =>
      have hk : k ≠ h := by
        have hmem : k ∈ rest.filter (fun e => decide (e ≠ h)) := hothers ▸ List.mem_cons_self
        simpa using (List.mem_filter.mp hmem).2
      have hhead : ¬((s.doc k).obligation = .printing ∧ (h :: rest).head? = some k) := by
        simp [hk.symm]
      exact if_neg hhead
  · rw [List.filter_cons_of_pos (by simpa using hhd)]
    by_cases hprinting : (s.doc h).obligation = .printing <;> simp [hprinting]

theorem State.cmdPrintFirst_of_le {document : BitVec 8} {s : State} (hrun : s.ctl.engine = .running)
    (h : 64 ≤ document.toNat) : State.cmdPrintFirst document s = s.not .badArg := by
  rw [State.cmdPrintFirst, State.inRunning_taken _ hrun, indexBelow_of_le h]

theorem State.cmdPrintFirst_of_eq {document : BitVec 8} {d : Fin 64} {s : State} (hrun : s.ctl.engine = .running)
    (h : document.toNat = d.val) :
    State.cmdPrintFirst document s =
      if d ∉ s.dispatch.printQueue then s.not .notFound
      else if (s.doc d).obligation = .printing then s.okay []
      else (s.printFirst d).okay [] := by
  rw [State.cmdPrintFirst, State.inRunning_taken _ hrun, indexBelow_of_eq d h]

theorem exec_printFirst (document : BitVec 8) (s : State) :
    exec (.printFirst document) s = s.after (State.runCommand (State.cmdPrintFirst document)) := rfl

/-- Settles O48, from the command's answers and from the queue that a document printed first leaves. -/
theorem printFirst : Obligations.PrintFirst := by
  intro document s hup hrun
  refine ⟨fun hle => ?_, fun d hd => ⟨fun hout => ?_, fun hin hprinting => ?_, fun h rest hqueue hin hqueued => ?_⟩⟩
  · exact State.ring_command_answers hup (exec_printFirst _ _) (State.cmdPrintFirst_of_le hrun hle)
  · refine State.ring_command_answers hup (exec_printFirst _ _) ((State.cmdPrintFirst_of_eq hrun hd).trans ?_)
    exact if_pos hout
  · refine State.ring_command_answers hup (exec_printFirst _ _) ((State.cmdPrintFirst_of_eq hrun hd).trans ?_)
    rw [if_neg (not_not_intro hin), if_pos hprinting]
    rfl
  · rw [← hqueue] at hin
    have hcmd : State.cmdPrintFirst document s = (s.printFirst d).okay [] := by
      rw [State.cmdPrintFirst_of_eq hrun hd, if_neg (not_not_intro hin), if_neg hqueued]
    rw [State.ring_command_runs hup (exec_printFirst _ _), hcmd, State.printFirst_eq hqueue hqueued]
    rfl

end Machine

end Sys2Proof

/-! PROOF. What a step can do to the parts that the memory port touches: each command has an effect, the work at the end of
a step follows it, and of the waiting commands, page memory, the hold limit, the queue of requests and the port they change
only what is said here. The invariants of page memory, of the path unit's bounds and of the requesters follow. -/

namespace Sys2Proof.Machine

/-! ## Effects of the commands -/

/-- A command's own effect, before the work that every step ends with. -/
def effect (c : Instr) : State → State :=
  match c with
  | .powerOn straps => fun s =>
    { State.powerOn straps s.mem s.resetInput with pending := s.pending, freeCount := s.freeCount }
  | .resetInputAssert => State.resetAsserted
  | .resetInputRelease => State.resetReleased
  | .maskReadComplete => State.maskReadDone
  | .tailReadComplete => State.tailReadDone
  | .holdExpiry => State.holdExpired
  | .storeWriteComplete => State.storeWriteDone
  | .storeReadComplete => State.storeReadDone
  | .mirrorWriteComplete => State.mirrorWriteDone
  | .slotReadComplete => State.slotReadDone
  | .resultWriteComplete => State.resultWriteDone
  | .chargeRecordWriteComplete => State.chargeWriteDone
  | .encodeComplete => State.encodeCompleted
  | .decodeComplete => State.decodeCompleted
  | .checkComplete => State.checkCompleted
  | .expandComplete => State.expandCompleted
  | .retryTimerExpiry t => State.retryEnded t
  | .secondEvent => State.secondPassed
  | .ringBurstCounted n => State.burstCounted n
  | .ringCycleEnd n => State.ringCycleEnded n
  | .meterPulseJudged n width => State.pulseEnded n width
  | .reversal n => State.reversed n
  | .loopSensePresent n => State.loopPresent n
  | .loopSenseAbsent n => State.loopAbsent n
  | .loopLoss n => State.loopLost n
  | .loopCheckExpiry n => State.loopChecked n
  | .seizeDelayExpiry n => State.seizeDelayEnded n
  | .dialElementEnd n => State.elementEnded n
  | .noAnswerExpiry n => State.notAnswered n
  | .clearGuardExpiry n => State.guardEnded n
  | .unitTimerExpiry n => State.unitExpired n
  | .graceExpiry n => State.graceEnded n
  | .ringInputActive n => State.ringActive n
  | .ringInputInactive n => State.ringInactive n
  | .meterInputActive n => State.meterActive n
  | .dialElementPhaseEnd n => State.phaseEnded n
  | c =>
    match c.access with
    | some a => State.hostAccess a
    | none => State.runCommand (State.ringCommand c)

theorem exec_eq_effect (c : Instr) (s : State) : exec c s = s.after (effect c) := by
  cases c <;> rfl

theorem exec_ringCommand {c : Instr} (h : c.isRingCommand = true) (s : State) :
    exec c s = s.after (State.runCommand (State.ringCommand c)) := by
  cases c <;> first | contradiction | rfl

theorem exec_access {c : Instr} {a : HostAccess} (h : c.access = some a) (s : State) :
    exec c s = s.after (State.hostAccess a) := by
  cases c <;> cases h <;> rfl

/-- What a step is: a microsecond of the crystal with no command waiting, else the front command's effect. -/
theorem step_cases {s u : State} (h : step s = .next u) :
    (s.pending = [] ∧ u = ({ s with now := s.now + 1 } : State).settleStep) ∨
      ∃ c rest, s.pending = c :: rest ∧ u = (effect c { s with pending := rest }).settleStep := by
  unfold step at h
  split at h
  · next hp =>
    exact .inl ⟨hp, (Host.Outcome.next.inj h).symm⟩
  · next c rest hp =>
    rw [exec_eq_effect] at h
    exact .inr ⟨c, rest, hp, (Host.Outcome.next.inj h).symm⟩

/-- An invariant that the time, the queue of commands, every effect and the end of a step keep is kept by every step. -/
theorem step_keeps {P : State → Prop} (time : ∀ s, P s → P { s with now := s.now + 1 })
    (queue : ∀ s rest, P s → P { s with pending := rest }) (effects : ∀ c s, P s → P (effect c s))
    (settles : ∀ s, P s → P s.settleStep) {s u : State} (hs : P s) (h : step s = .next u) : P u := by
  obtain ⟨-, rfl⟩ | ⟨c, rest, -, rfl⟩ := step_cases h
  · exact settles _ (time _ hs)
  · exact settles _ (effects _ _ (queue _ rest hs))

/-! ## Ring commands and the plant -/

@[simp] theorem State.not_state (code : ResultCode) (s : State) : (s.not code).state = s := rfl
@[simp] theorem State.okay_state (data : List Byte) (s : State) : (s.okay data).state = s := rfl
@[simp] theorem State.okPeriod_state (s : State) : s.okPeriod.state = s := rfl
@[simp] theorem State.okLog_state (s : State) : s.okLog.state = s := rfl
@[simp] theorem State.okOrder_state (d : Fin 64) (s : State) : (s.okOrder d).state = s := rfl
@[simp] theorem State.okTrailing_state (s : State) : s.okTrailing.state = s := rfl
@[simp] theorem State.okPosition_state (docEnd : Bool) (s : State) : (s.okPosition docEnd).state = s := rfl
@[simp] theorem State.answerRefused_state (n : Fin 4) (why : AnswerRefusal) (code : ResultCode) (s : State) :
    (s.answerRefused n why code).state = s.modRecord n fun r => { r with answerRefusal := why } := rfl

/-- A command that only RUNNING takes keeps what its execution in RUNNING keeps. -/
theorem State.inRunning_keeps {α : Type} (V : State → α) {f : State → Done} {s : State} (h : V (f s).state = V s) :
    V (s.inRunning f).state = V s := by
  unfold State.inRunning
  split
  · exact h
  · rfl

theorem State.cmdAccountClear_plant (account : BitVec 8) (s : State) :
    (State.cmdAccountClear account s).state.plant = s.plant := by
  refine State.inRunning_keeps State.plant ?_
  dsimp only
  (repeat' split) <;> simp

theorem State.cmdLogRelease_plant (count : BitVec 16) (s : State) : (State.cmdLogRelease count s).state.plant = s.plant := by
  refine State.inRunning_keeps State.plant ?_
  split
  · rfl
  · split
    · rfl
    · simp
      rfl

theorem State.cmdDocCreate_plant (kind priority account retryInterval attemptLimit localCopy copies : BitVec 8)
    (notBefore : ClockField) (s : State) :
    (State.cmdDocCreate kind priority account retryInterval attemptLimit localCopy copies notBefore s).state.plant = s.plant := by
  refine State.inRunning_keeps State.plant ?_
  (repeat' split) <;> simp

theorem State.cmdDestAdd_plant (document : BitVec 8) (number : NumberField) (s : State) :
    (State.cmdDestAdd document number s).state.plant = s.plant := by
  refine State.inRunning_keeps State.plant ?_
  dsimp only
  (repeat' split) <;> simp

theorem State.cmdDocRelease_plant (document : BitVec 8) (s : State) : (State.cmdDocRelease document s).state.plant = s.plant := by
  refine State.inRunning_keeps State.plant ?_
  dsimp only
  (repeat' split) <;> simp

theorem State.cmdDocCancel_plant (document : BitVec 8) (s : State) : (State.cmdDocCancel document s).state.plant = s.plant := by
  refine State.inRunning_keeps State.plant ?_
  dsimp only
  (repeat' split) <;> simp

theorem State.cmdDestCancel_plant (destination : BitVec 16) (s : State) :
    (State.cmdDestCancel destination s).state.plant = s.plant := by
  refine State.inRunning_keeps State.plant ?_
  (repeat' split) <;> simp

theorem State.cmdDocDelete_plant (document : BitVec 8) (s : State) : (State.cmdDocDelete document s).state.plant = s.plant := by
  refine State.inRunning_keeps State.plant ?_
  dsimp only
  (repeat' split) <;> simp

theorem State.cmdPrintFirst_plant (document : BitVec 8) (s : State) : (State.cmdPrintFirst document s).state.plant = s.plant := by
  refine State.inRunning_keeps State.plant ?_
  (repeat' split) <;> simp

theorem State.cmdScanOpen_plant (document width k : BitVec 8) (s : State) :
    (State.cmdScanOpen document width k s).state.plant = s.plant := by
  refine State.inRunning_keeps State.plant ?_
  dsimp only
  (repeat' split) <;> simp

theorem State.cmdPageCut_plant (s : State) : (State.cmdPageCut s).state.plant = s.plant := by
  refine State.inRunning_keeps State.plant ?_
  dsimp only
  (repeat' split) <;> simp

theorem State.cmdScanResume_plant (s : State) : (State.cmdScanResume s).state.plant = s.plant := by
  refine State.inRunning_keeps State.plant ?_
  (repeat' split) <;> simp

theorem State.cmdScanClose_plant (s : State) : (State.cmdScanClose s).state.plant = s.plant := by
  refine State.inRunning_keeps State.plant ?_
  dsimp only
  (repeat' split) <;> simp

theorem State.cmdPrintOpen_plant (s : State) : (State.cmdPrintOpen s).state.plant = s.plant := by
  refine State.inRunning_keeps State.plant ?_
  (repeat' split) <;> simp

theorem State.cmdPrintNext_plant (s : State) : (State.cmdPrintNext s).state.plant = s.plant := by
  refine State.inRunning_keeps State.plant ?_
  dsimp only
  (repeat' split) <;> simp

theorem State.cmdPrintClose_plant (s : State) : (State.cmdPrintClose s).state.plant = s.plant := by
  refine State.inRunning_keeps State.plant ?_
  (repeat' split) <;> simp

theorem State.cmdSendOpen_plant (line takesRepeat least : BitVec 8) (s : State) :
    (State.cmdSendOpen line takesRepeat least s).state.plant = s.plant := by
  refine State.inRunning_keeps State.plant ?_
  (repeat' split) <;> simp

theorem State.cmdPageResult_plant (line verdict : BitVec 8) (s : State) :
    (State.cmdPageResult line verdict s).state.plant = s.plant := by
  refine State.inRunning_keeps State.plant ?_
  (repeat' split) <;> first | (simp; done) | exact State.takeVerdict_plant ‹_›

theorem State.cmdReceiveOpen_plant (line width k : BitVec 8) (s : State) :
    (State.cmdReceiveOpen line width k s).state.plant = s.plant := by
  refine State.inRunning_keeps State.plant ?_
  (repeat' split) <;> simp

theorem State.cmdStreamClose_plant (line : BitVec 8) (s : State) : (State.cmdStreamClose line s).state.plant = s.plant := by
  refine State.inRunning_keeps State.plant ?_
  (repeat' split) <;> simp

theorem State.cmdCallAnswer_plant (line : BitVec 8) (s : State) : (State.cmdCallAnswer line s).state.plant = s.plant := by
  refine State.inRunning_keeps State.plant ?_
  dsimp only
  (repeat' split) <;> simp

theorem State.cmdAnswerSeen_plant (line : BitVec 8) (s : State) : (State.cmdAnswerSeen line s).state.plant = s.plant := by
  refine State.inRunning_keeps State.plant ?_
  (repeat' split) <;> simp

theorem State.cmdCallEnd_plant (line cause : BitVec 8) (s : State) : (State.cmdCallEnd line cause s).state.plant = s.plant := by
  refine State.inRunning_keeps State.plant ?_
  (repeat' split) <;> simp

theorem State.cmdAccountSet_plant (account cls policy : BitVec 8) (code : BitVec 16) (budget : BitVec 32) (s : State) :
    (s.cmdAccountSet account cls policy code budget).state.plant = s.plant := by
  unfold State.cmdAccountSet
  dsimp only
  (repeat' split) <;> simp

theorem State.cmdLineSetup_plant (line : BitVec 8) (settings : SettingsField) (s : State) :
    (s.cmdLineSetup line settings).state.plant = s.plant := by
  unfold State.cmdLineSetup
  dsimp only
  (repeat' split) <;> simp

/-! ## The port's side of the state -/

/-- The waiting commands, page memory and what the path unit's bounds and requests are about. -/
structure PortSide where
  pending : List Instr
  mem : List Host.Cell
  holdLimit : Nat
  requests : List Requester
  holder : Option Requester
  passedOver : Nat

/-- The port's side of a plant. -/
def Plant.portSide (p : Plant) : PortSide :=
  { pending := p.pending, mem := p.mem, holdLimit := p.holdLimit, requests := p.requests, holder := p.holder,
    passedOver := p.passedOver }

/-- The port's side of a state. -/
def State.portSide (s : State) : PortSide := s.plant.portSide

theorem State.portSide_of_plant {s t : State} (h : s.plant = t.plant) : s.portSide = t.portSide :=
  congrArg Plant.portSide h

theorem State.cmdStoreSetup_portSide (base : BitVec 32) (count : BitVec 16) (log : BitVec 32) (reserve : BitVec 16)
    (s : State) : (s.cmdStoreSetup base count log reserve).state.portSide = s.portSide := by
  unfold State.cmdStoreSetup
  split
  · rfl
  · split
    · simp only [State.okay_state, State.enterRunning, State.portSide]
      rw [foldl_plant _ State.recheckWindow_plant, State.fullRewrite_plant]
      rfl
    · rfl

theorem State.judgePeriod_portSide (s : State) : s.judgePeriod.portSide = s.portSide := by
  obtain ⟨q, h, -⟩ := State.judgePeriod_form s
  unfold State.judgePeriod
  split
  · rfl
  · simp only [State.portSide, State.raise_plant, State.rewrite_plant]
    rfl

theorem State.cmdTimeSet_portSide (day : BitVec 16) (dayOfWeek : BitVec 8) (second : BitVec 32) (s : State) :
    (s.cmdTimeSet day dayOfWeek second).state.portSide = s.portSide := by
  unfold State.cmdTimeSet
  split
  · simp only [State.okPeriod_state, State.setClock]
    rw [State.portSide_of_plant (State.askArbiter_plant _), State.portSide_of_plant (State.judgeNotBefore_plant _ _),
      State.judgePeriod_portSide, State.portSide_of_plant (State.rewrite_plant _ _)]
    rfl
  · rfl

theorem State.cmdPeriodSet_portSide (entry daySet period : BitVec 8) (start : BitVec 32) (s : State) :
    (s.cmdPeriodSet entry daySet period start).state.portSide = s.portSide := by
  unfold State.cmdPeriodSet
  split
  · split
    · simp only [State.okPeriod_state]
      rw [State.judgePeriod_portSide, State.portSide_of_plant (State.rewrite_plant _ _)]
      rfl
    · rfl
  · rfl

theorem State.cmdTariffSet_portSide (band : BitVec 8) (v0 v1 v2 v3 : BitVec 16) (s : State) :
    (s.cmdTariffSet band v0 v1 v2 v3).state.portSide = s.portSide := by
  unfold State.cmdTariffSet
  split
  · split
    · rw [State.okay_state, State.portSide_of_plant (State.rewrite_plant _ _)]
      rfl
    · rfl
  · rfl

theorem State.cmdPrefixSet_portSide (entry count cls band : BitVec 8) (digits : BitVec 64) (s : State) :
    (s.cmdPrefixSet entry count cls band digits).state.portSide = s.portSide := by
  unfold State.cmdPrefixSet
  split
  · rw [State.okay_state, State.portSide_of_plant (State.rewrite_plant _ _)]
    rfl
  · rfl

/-- No ring command changes the port's side. -/
theorem State.ringCommand_portSide (c : Instr) (s : State) : (State.ringCommand c s).state.portSide = s.portSide := by
  cases c with
  | storeSetup => exact State.cmdStoreSetup_portSide ..
  | timeSet => exact State.cmdTimeSet_portSide ..
  | periodSet => exact State.cmdPeriodSet_portSide ..
  | tariffSet => exact State.cmdTariffSet_portSide ..
  | prefixSet => exact State.cmdPrefixSet_portSide ..
  | accountSet => exact State.portSide_of_plant (State.cmdAccountSet_plant ..)
  | accountClear => exact State.portSide_of_plant (State.cmdAccountClear_plant ..)
  | lineSetup => exact State.portSide_of_plant (State.cmdLineSetup_plant ..)
  | docCreate => exact State.portSide_of_plant (State.cmdDocCreate_plant ..)
  | destAdd => exact State.portSide_of_plant (State.cmdDestAdd_plant ..)
  | docRelease => exact State.portSide_of_plant (State.cmdDocRelease_plant ..)
  | docCancel => exact State.portSide_of_plant (State.cmdDocCancel_plant ..)
  | destCancel => exact State.portSide_of_plant (State.cmdDestCancel_plant ..)
  | docDelete => exact State.portSide_of_plant (State.cmdDocDelete_plant ..)
  | printFirst => exact State.portSide_of_plant (State.cmdPrintFirst_plant ..)
  | scanOpen => exact State.portSide_of_plant (State.cmdScanOpen_plant ..)
  | pageCut => exact State.portSide_of_plant (State.cmdPageCut_plant ..)
  | scanResume => exact State.portSide_of_plant (State.cmdScanResume_plant ..)
  | scanClose => exact State.portSide_of_plant (State.cmdScanClose_plant ..)
  | printOpen => exact State.portSide_of_plant (State.cmdPrintOpen_plant ..)
  | printNext => exact State.portSide_of_plant (State.cmdPrintNext_plant ..)
  | printClose => exact State.portSide_of_plant (State.cmdPrintClose_plant ..)
  | sendOpen => exact State.portSide_of_plant (State.cmdSendOpen_plant ..)
  | pageResult => exact State.portSide_of_plant (State.cmdPageResult_plant ..)
  | receiveOpen => exact State.portSide_of_plant (State.cmdReceiveOpen_plant ..)
  | streamClose => exact State.portSide_of_plant (State.cmdStreamClose_plant ..)
  | callAnswer => exact State.portSide_of_plant (State.cmdCallAnswer_plant ..)
  | answerSeen => exact State.portSide_of_plant (State.cmdAnswerSeen_plant ..)
  | callEnd => exact State.portSide_of_plant (State.cmdCallEnd_plant ..)
  | logRelease => exact State.portSide_of_plant (State.cmdLogRelease_plant ..)
  | _ => rfl

theorem State.runCommand_portSide (c : Instr) (s : State) :
    (s.runCommand (State.ringCommand c)).portSide = s.portSide := by
  unfold State.runCommand
  split
  · exact State.ringCommand_portSide c s
  · rfl

/-! ## Effects on the port's side -/

/-- The port's side with the port free. -/
def PortSide.freed (a : PortSide) : PortSide := { a with holder := none }

/-- The port's side with a request's bytes stored and the port free. -/
def PortSide.written (a : PortSide) (p : PortRequest) : PortSide :=
  { a with mem := Memory.writeBytes a.mem p.addr p.bytes, holder := none }

/-- What a command can do to the port's side. -/
inductive PortSide.Change (s : State) : PortSide → Prop
  | none : PortSide.Change s s.portSide
  | freed (p : PortRequest) : s.path.port = some p → PortSide.Change s s.portSide.freed
  | written (p : PortRequest) : s.path.port = some p → PortSide.Change s (s.portSide.written p)
  | powerOn : PortSide.Change s
      { s.portSide with holdLimit := Config.powerOnHoldLimit, requests := [], holder := .none, passedOver := 0 }

theorem PortSide.Change.of_eq {s t : State} (h : t.portSide = s.portSide) : PortSide.Change s t.portSide := h ▸ .none

theorem State.hostAccess_plant (a : HostAccess) (s : State) : (s.hostAccess a).plant = s.plant := by
  unfold State.hostAccess
  (repeat' split) <;> simp

theorem State.resetAsserted_portSide (s : State) : s.resetAsserted.portSide = s.portSide := by
  have stop (t : State) : t.stopCommands.dropStoreWrites.portSide = t.portSide := by
    have h : t.stopCommands.dropStoreWrites.plant = { t.stopCommands.plant with
        storeWrites := Table.replicate 5 none } := rfl
    unfold State.portSide
    rw [h, State.stopCommands, State.dropSlotRead_plant]
    rfl
  unfold State.resetAsserted State.startTeardown
  dsimp only
  split
  · simp only [State.portSide, foldl_plant _ State.resetDoc_plant, foldl_plant _ State.resetLine_plant,
      foldl_plant _ State.resetPage_plant, foldl_plant _ State.resetStream_plant, State.resetPrint_plant,
      State.resetScan_plant, foldl_plant _ State.clearWindow_plant]
    exact stop _
  · rfl

theorem State.secondPassed_portSide (s : State) : s.secondPassed.portSide = s.portSide := by
  unfold State.secondPassed
  dsimp only
  split
  · rw [State.advanceClock, State.portSide_of_plant (State.judgeNotBefore_plant ..), State.judgePeriod_portSide,
      State.portSide_of_plant (State.rewrite_plant ..)]
    rfl
  · rfl

theorem State.takeCommand_portSide (s : State) : s.takeCommand.portSide = s.portSide := by
  unfold State.takeCommand
  dsimp only
  split
  · rw [State.portSide_of_plant (State.enqueue_plant ..)]
    rfl
  · rfl

theorem State.takeTail_portSide (v : Nat) (s : State) : (s.takeTail v).portSide = s.portSide := by
  unfold State.takeTail
  split
  · rw [State.takeCommand_portSide]
    rfl
  · rw [State.ringError, State.portSide_of_plant (State.raise_plant ..), State.portSide_of_plant (State.rewrite_plant ..)]
    rfl

theorem State.tailReadDone_change (s : State) : PortSide.Change s s.tailReadDone.portSide := by
  unfold State.tailReadDone
  split
  · next p hp =>
    split
    · split
      · rw [State.takeTail_portSide]
        exact .freed p hp
      · exact .freed p hp
    · exact .none
  · exact .none

theorem State.maskReadDone_change (s : State) : PortSide.Change s s.maskReadDone.portSide := by
  unfold State.maskReadDone
  split
  · next p hp =>
    split
    · exact .freed p hp
    · exact .none
  · exact .none

theorem State.pageStored_plant (w : Writer) (p : Fin 512) (s : State) : (s.pageStored w p).plant = s.plant := by
  unfold State.pageStored
  dsimp only
  (repeat' split) <;> simp

theorem State.storeWriteDone_change (s : State) : PortSide.Change s s.storeWriteDone.portSide := by
  unfold State.storeWriteDone
  split
  · next p hp =>
    split
    · split
      · rw [State.portSide_of_plant (State.pageStored_plant ..)]
        exact .written p hp
      · exact .written p hp
    · exact .none
  · exact .none

theorem State.storeReadDone_change (s : State) : PortSide.Change s s.storeReadDone.portSide := by
  unfold State.storeReadDone
  split
  · next p hp =>
    split
    · split
      · rw [State.portSide_of_plant (State.deliverRead_plant ..)]
        exact .freed p hp
      · exact .freed p hp
    · exact .none
  · exact .none

theorem State.mirrorWriteDone_change (s : State) : PortSide.Change s s.mirrorWriteDone.portSide := by
  unfold State.mirrorWriteDone
  split
  · next p hp =>
    split
    · exact .written p hp
    · exact .none
  · exact .none

theorem State.executeSlot_portSide (bytes : List Byte) (s : State) : (s.executeSlot bytes).portSide = s.portSide := by
  unfold State.executeSlot
  split
  · dsimp only
    rw [State.queueResult, State.portSide_of_plant (State.enqueue_plant ..)]
    calc (State.runDueArbiter (State.ringCommand (slotCommand bytes) s).state).portSide
      _ = (State.ringCommand (slotCommand bytes) s).state.portSide := State.portSide_of_plant (State.runDueArbiter_plant _)
      _ = s.portSide := State.ringCommand_portSide ..
  · rfl

theorem State.slotReadDone_change (s : State) : PortSide.Change s s.slotReadDone.portSide := by
  unfold State.slotReadDone
  split
  · next p hp =>
    split
    · split
      · rw [State.executeSlot_portSide]
        exact .freed p hp
      · exact .freed p hp
    · exact .none
  · exact .none

theorem State.completeCommand_portSide (s : State) : s.completeCommand.portSide = s.portSide := by
  unfold State.completeCommand
  split
  · dsimp only
    rw [State.takeCommand_portSide, State.portSide_of_plant (State.rewrite_plant ..),
      State.portSide_of_plant (State.raise_plant ..)]
    rfl
  · rfl

theorem State.resultWriteDone_change (s : State) : PortSide.Change s s.resultWriteDone.portSide := by
  unfold State.resultWriteDone
  split
  · next p hp =>
    split
    · rw [State.completeCommand_portSide]
      exact .written p hp
    · exact .none
  · exact .none

theorem State.chargeWriteDone_change (s : State) : PortSide.Change s s.chargeWriteDone.portSide := by
  unfold State.chargeWriteDone
  split
  · next p hp =>
    split
    · rw [State.portSide_of_plant (State.rewrite_plant ..)]
      exact .written p hp
    · exact .none
  · exact .none

/-- What the completion of a job keeps of the plant, its result does. -/
theorem State.jobCompleted_plant (kind : JobKind) {f : StreamId → State → State} (hf : ∀ i s, (f i s).plant = s.plant)
    (s : State) : (s.jobCompleted kind f).plant = s.plant := by
  unfold State.jobCompleted
  (repeat' split) <;> simp [hf]

theorem StreamId.onLine_plant {f : Fin 4 → State → State} (hf : ∀ n s, (f n s).plant = s.plant) (i : StreamId) (s : State) :
    (StreamId.onLine f i s).plant = s.plant := by
  cases i <;> simp [StreamId.onLine, hf]

/-- What each command can do to the port's side: nothing, the completion of a request, or POWER_ON's values. -/
theorem effect_change (c : Instr) (s : State) : PortSide.Change s (effect c s).portSide := by
  have plant {t : State} (h : t.plant = s.plant) : PortSide.Change s t.portSide := .of_eq (State.portSide_of_plant h)
  cases c with
  | powerOn => exact .powerOn
  | resetInputAssert => exact .of_eq s.resetAsserted_portSide
  | resetInputRelease => exact .none
  | maskReadComplete => exact s.maskReadDone_change
  | tailReadComplete => exact s.tailReadDone_change
  | storeWriteComplete => exact s.storeWriteDone_change
  | storeReadComplete => exact s.storeReadDone_change
  | mirrorWriteComplete => exact s.mirrorWriteDone_change
  | slotReadComplete => exact s.slotReadDone_change
  | resultWriteComplete => exact s.resultWriteDone_change
  | chargeRecordWriteComplete => exact s.chargeWriteDone_change
  | holdExpiry => exact plant (State.holdExpired_plant s)
  | encodeComplete => exact plant (State.jobCompleted_plant _ (by simp) s)
  | decodeComplete => exact plant (State.jobCompleted_plant _ (by simp) s)
  | checkComplete => exact plant (State.jobCompleted_plant _ (StreamId.onLine_plant (by simp)) s)
  | expandComplete => exact plant (State.jobCompleted_plant _ (StreamId.onLine_plant (by simp)) s)
  | secondEvent => exact .of_eq s.secondPassed_portSide
  | retryTimerExpiry => exact plant (State.retryEnded_plant ..)
  | ringBurstCounted => exact plant (State.burstCounted_plant ..)
  | ringCycleEnd => exact plant (State.ringCycleEnded_plant ..)
  | meterPulseJudged => exact plant (State.pulseEnded_plant ..)
  | reversal => exact plant (State.reversed_plant ..)
  | loopSensePresent => exact plant (State.loopPresent_plant ..)
  | loopSenseAbsent => exact plant (State.loopAbsent_plant ..)
  | loopLoss => exact plant (State.loopLost_plant ..)
  | loopCheckExpiry => exact plant (State.loopChecked_plant ..)
  | seizeDelayExpiry => exact plant (State.seizeDelayEnded_plant ..)
  | dialElementEnd => exact plant (State.elementEnded_plant ..)
  | noAnswerExpiry => exact plant (State.notAnswered_plant ..)
  | clearGuardExpiry => exact plant (State.guardEnded_plant ..)
  | unitTimerExpiry => exact plant (State.unitExpired_plant ..)
  | graceExpiry => exact plant (State.graceEnded_plant ..)
  | ringInputActive => exact plant (State.ringActive_plant ..)
  | ringInputInactive => exact plant (State.ringInactive_plant ..)
  | meterInputActive => exact plant (State.meterActive_plant ..)
  | dialElementPhaseEnd => exact plant (State.phaseEnded_plant ..)
  | hostForwardedAccess | holdLimitWrite | noticeMaskWrite | windowTableWrite | tailWordWrite | acknowledgeWrite
  | controlAreaDrop | storeLogWriteDrop | closedWindowAccess | wrongDirectionWindowAccess | scanWindowWrite
  | receiveWindowWrite | printWindowRead | sendWindowRead => exact plant (State.hostAccess_plant ..)
  | _ => exact .of_eq (State.runCommand_portSide ..)

/-! ## The end of a step and the port's side -/

theorem State.ringReset_portSide (s : State) : s.ringReset.portSide = s.portSide := by
  unfold State.ringReset
  dsimp only
  rw [State.portSide_of_plant (State.fullRewrite_plant _), State.portSide_of_plant (State.rewrite_plant ..),
    State.portSide_of_plant (State.clearNotices_plant ..)]
  rfl

theorem State.teardownAdvance_portSide (s : State) : s.teardownAdvance.portSide = s.portSide := by
  unfold State.teardownAdvance
  split
  · rfl
  · split
    · calc s.runDueArbiter.teardownRewrite.portSide
        _ = s.runDueArbiter.ringReset.portSide := rfl
        _ = s.portSide := by
          rw [State.ringReset_portSide, State.portSide_of_plant (State.runDueArbiter_plant s)]
    · rfl
  · split
    · rw [State.endTeardown, State.portSide_of_plant (State.askArbiter_plant _),
        State.portSide_of_plant (State.raise_plant ..)]
      rfl
    · rfl

/-- A property of the port's side that issuing requests and a grant keep is kept by the end of a step. -/
theorem State.settleStep_keeps {P : PortSide → Prop} (issue : ∀ s : State, P s.portSide → P s.issueRequests.portSide)
    (grant : ∀ s : State, P s.portSide → P s.grantPort.portSide) {s : State} (h : P s.portSide) :
    P s.settleStep.portSide := by
  have served : P s.teardownAdvance.runDueArbiter.serviceStreams.portSide := by
    rw [State.portSide_of_plant (State.serviceStreams_plant _), State.portSide_of_plant (State.runDueArbiter_plant _),
      State.teardownAdvance_portSide]
    exact h
  unfold State.settleStep
  refine issue _ ?_
  rw [State.portSide_of_plant (State.serviceStreams_plant _)]
  exact grant _ (issue _ served)

theorem State.issueRequests_portSide (s : State) :
    s.issueRequests.portSide = { s.portSide with requests := s.issueRequests.path.requests } := rfl

/-! ## What a grant can do to the port's side -/

theorem holdLimitMin_le_holdLimitOf (copy : BitVec 32) : Config.holdLimitMin ≤ holdLimitOf copy := le_max_left _ _

theorem holdLimitOf_le_holdLimitMax (copy : BitVec 32) : holdLimitOf copy ≤ Config.holdLimitMax :=
  max_le (by decide) (min_le_left _ _)

/-- A snooped write changes the hold limit alone, to a limit that a copy gives. -/
theorem State.snoop_portSide (w : HostWrite) (s : State) :
    ∃ limit, (s.snoop w).portSide = { s.portSide with holdLimit := limit } ∧
      (limit = s.path.holdLimit ∨ ∃ copy, limit = holdLimitOf copy) := by
  have same {t : State} (h : t.plant = s.plant) : ∃ limit, t.portSide = { s.portSide with holdLimit := limit } ∧
      (limit = s.path.holdLimit ∨ ∃ copy, limit = holdLimitOf copy) :=
    ⟨_, State.portSide_of_plant h, .inl rfl⟩
  unfold State.snoop
  dsimp only
  split
  · rw [State.portSide_of_plant (State.snoopMask_plant ..)]
    unfold State.snoopHoldLimit
    dsimp only
    split
    · exact same rfl
    · exact ⟨_, rfl, .inr ⟨_, rfl⟩⟩
  · split
    · exact same (foldl_plant _ (State.snoopEntry_plant _) _ _)
    · split
      · exact same (State.snoopTail_plant _)
      · split
        · exact same (State.clearNotices_plant ..)
        · exact same rfl

/-- A forwarded access changes page memory by a write, and the hold limit by a snooped one. -/
theorem State.forwardAccess_portSide (acc : HostAccess) (s : State) :
    ∃ mem limit, (s.forwardAccess acc).portSide = { s.portSide with mem := mem, holdLimit := limit } ∧
      (mem = s.mem ∨ ∃ a l, mem = Memory.writeBytes s.mem a l) ∧
      (limit = s.path.holdLimit ∨ ∃ copy, limit = holdLimitOf copy) := by
  unfold State.forwardAccess
  split
  · exact ⟨_, _, rfl, .inl rfl, .inl rfl⟩
  · dsimp only
    split
    · obtain ⟨limit, h, hlimit⟩ := State.snoop_portSide _ _
      exact ⟨_, limit, h, .inr ⟨_, _, rfl⟩, hlimit⟩
    · exact ⟨_, _, rfl, .inr ⟨_, _, rfl⟩, .inl rfl⟩

/-- The port's side once a requester's request has the port. -/
def PortSide.granted (a : PortSide) (q : Requester) : PortSide :=
  { a with holder := some q, passedOver := 0, requests := a.requests.filter (· ≠ q) }

theorem State.startRequest_portSide (q : Requester) (kind : PortKind) (addr : Nat) (bytes : List Byte) (s : State) :
    (s.startRequest q kind addr bytes).portSide = s.portSide.granted q := rfl

theorem State.grantStoreWrite_portSide (w : Writer) (h : PageInHand) (closing : Bool) (s : State) :
    (s.grantStoreWrite w h closing).portSide = s.portSide.granted w.requester := by
  unfold State.grantStoreWrite
  rw [State.startRequest_portSide, State.portSide_of_plant (State.setSlot_plant ..)]

theorem State.grantControl_portSide (e : QueueEntry) (rest : List QueueEntry) (s : State) :
    (s.grantControl e rest).portSide = s.portSide.granted .control := by
  cases e <;> rfl

/-- A requester's request takes the port, or its work has gone and nothing changes. -/
theorem State.grantRequest_portSide (q : Requester) (s : State) :
    (s.grantRequest q).portSide = s.portSide ∨ (s.grantRequest q).portSide = s.portSide.granted q := by
  unfold State.grantRequest
  split
  · split
    · exact .inr (State.grantStoreWrite_portSide ..)
    · exact .inl rfl
  · exact .inr rfl
  · split
    · exact .inr (State.grantStoreWrite_portSide ..)
    · exact .inr rfl
  · split
    · exact .inr (State.grantControl_portSide ..)
    · exact .inl rfl
  · split
    · exact .inr rfl
    · exact .inl rfl

/-- What a grant can do: nothing while a request has the port or with work gone; the oldest request takes the port; or the
access that waits is carried out, or none does, with the passed-over count at most 8. -/
theorem State.grantPort_cases (s : State) :
    s.grantPort.portSide = s.portSide ∨ (∃ q, s.grantPort.portSide = s.portSide.granted q) ∨
      ∃ mem limit count, s.grantPort.portSide = { s.portSide with mem := mem, holdLimit := limit, passedOver := count } ∧
        (mem = s.mem ∨ ∃ a l, mem = Memory.writeBytes s.mem a l) ∧
        (limit = s.path.holdLimit ∨ ∃ copy, limit = holdLimitOf copy) ∧ count ≤ Config.passedOverLimit := by
  unfold State.grantPort
  split
  · exact .inl rfl
  · split
    · exact .inr (.inr ⟨_, _, 0, rfl, .inl rfl, .inl rfl, Nat.zero_le _⟩)
    · next acc _ _ =>
      obtain ⟨mem, limit, h, hmem, hlimit⟩ := (s.setPassedOver 0).forwardAccess_portSide acc
      exact .inr (.inr ⟨mem, limit, 0, h, hmem, hlimit, Nat.zero_le _⟩)
    · next q _ _ _ => exact (s.grantRequest_portSide q).imp id fun h => .inl ⟨q, h⟩
    · next acc q _ _ _ =>
      split
      · next hlt =>
        obtain ⟨mem, limit, h, hmem, hlimit⟩ := (s.setPassedOver (s.path.passedOver + 1)).forwardAccess_portSide acc
        exact .inr (.inr ⟨mem, limit, _, h, hmem, hlimit, hlt⟩)
      · exact (s.grantRequest_portSide q).imp id fun h => .inl ⟨q, h⟩

/-! ## The invariants (O8 to O10) -/

/-- An invariant of the port's side without the waiting commands is kept by every step, when what a command can do keeps it,
and what the requests' issue and a grant do. -/
theorem step_keeps_portSide {P : PortSide → Prop} (queue : ∀ a rest, P a → P { a with pending := rest })
    (change : ∀ (s : State) (b : PortSide), P s.portSide → PortSide.Change s b → P b)
    (issue : ∀ s : State, P s.portSide → P s.issueRequests.portSide)
    (grant : ∀ s : State, P s.portSide → P s.grantPort.portSide) {s u : State} (hs : P s.portSide) (h : step s = .next u) :
    P u.portSide :=
  step_keeps (P := fun s => P s.portSide) (fun _ hs => hs) (fun _ _ hs => queue _ _ hs)
    (fun c s hs => change s _ hs (effect_change c s)) (fun _ hs => State.settleStep_keeps issue grant hs) hs h

/-- Settles O8: every change of page memory is a run of byte writes, and those keep the canonical form. -/
theorem memoryStaysCanonical : Obligations.MemoryStaysCanonical := by
  intro s u
  refine step_keeps_portSide (P := fun a => Memory.wf a.mem = true) (fun _ _ h => h) (fun s b h hb => ?change)
    (fun _ h => h) (fun s h => ?grant)
  case change =>
    cases hb with
    | none => exact h
    | freed => exact h
    | written p => exact Memory.wf_writeBytes h _ _
    | powerOn => exact h
  case grant =>
    obtain e | ⟨q, e⟩ | ⟨mem, limit, count, e, hmem, -, -⟩ := s.grantPort_cases
    · exact e ▸ h
    · exact e ▸ h
    · rw [e]
      obtain rfl | ⟨a, l, rfl⟩ := hmem
      · exact h
      · exact Memory.wf_writeBytes h _ _

/-- The bounds of O9, on the port's side. -/
def PortSide.bounded (a : PortSide) : Prop :=
  Config.holdLimitMin ≤ a.holdLimit ∧ a.holdLimit ≤ Config.holdLimitMax ∧ a.passedOver ≤ Config.passedOverLimit

/-- Settles O9: a copy's limit is within 2 to 250 by its definition, and the count gains 1 only below 8. -/
theorem pathStaysBounded : Obligations.PathStaysBounded := by
  intro s u
  refine step_keeps_portSide (P := PortSide.bounded) (fun _ _ h => h) (fun s b h hb => ?change) (fun _ h => h)
    (fun s h => ?grant)
  case change =>
    cases hb with
    | none => exact h
    | freed => exact h
    | written p => exact h
    | powerOn =>
      exact ⟨(by decide : Config.holdLimitMin ≤ Config.powerOnHoldLimit),
        (by decide : Config.powerOnHoldLimit ≤ Config.holdLimitMax), Nat.zero_le _⟩
  case grant =>
    obtain ⟨hmin, hmax, hcount⟩ := h
    obtain e | ⟨q, e⟩ | ⟨mem, limit, count, e, -, hlimit, hle⟩ := s.grantPort_cases
    · exact e ▸ ⟨hmin, hmax, hcount⟩
    · exact e ▸ ⟨hmin, hmax, Nat.zero_le _⟩
    · rw [e]
      obtain rfl | ⟨copy, rfl⟩ := hlimit
      · exact ⟨hmin, hmax, hle⟩
      · exact ⟨holdLimitMin_le_holdLimitOf _, holdLimitOf_le_holdLimitMax _, hle⟩

/-- O10's requesters, on the port's side. -/
def PortSide.oneEach (a : PortSide) : Prop := a.requests.Nodup ∧ ∀ q, a.holder = some q → q ∉ a.requests

theorem State.oneRequestEach_iff (s : State) : s.oneRequestEach ↔ s.portSide.oneEach := by
  refine and_congr_right fun _ => ?_
  constructor
  · intro h q hq
    obtain ⟨p, hp, rfl⟩ := Option.map_eq_some_iff.mp hq
    exact h p hp
  · exact fun h p hp => h _ (Option.map_eq_some_iff.mpr ⟨p, hp, rfl⟩)

theorem State.onPort_iff (s : State) (q : Requester) : s.onPort q = true ↔ s.portSide.holder = some q := by
  have hholder : s.portSide.holder = s.path.port.map (·.requester) := rfl
  unfold State.onPort
  rw [hholder]
  cases s.path.port <;> simp

/-- The requests issued are those kept, and each requester's that has none in the queue or on the port. -/
theorem State.issueRequests_oneEach {s : State} (h : s.portSide.oneEach) : s.issueRequests.portSide.oneEach := by
  obtain ⟨hnodup, hholder⟩ := h
  have hall : allRequesters.Nodup := by decide
  rw [State.issueRequests_portSide]
  refine ⟨?_, fun q hq => ?_⟩
  · refine List.Nodup.append (hnodup.filter _) (hall.filter _) fun q hkept hadded => ?_
    simp only [List.mem_filter, Bool.and_eq_true, decide_eq_true_eq] at hadded
    exact hadded.2.2 (List.mem_filter.mp hkept)
  · simp only [State.issueRequests, List.mem_append, List.mem_filter, Bool.and_eq_true, not_or]
    refine ⟨fun hkept => hholder q hq hkept.1, fun hadded => ?_⟩
    have hon := (s.onPort_iff q).mpr hq
    simp [hon] at hadded

theorem PortSide.granted_oneEach {a : PortSide} (q : Requester) (h : a.oneEach) : (a.granted q).oneEach := by
  refine ⟨h.1.filter _, fun r hr => ?_⟩
  cases hr
  simp [PortSide.granted]

/-- Settles O10: a request is issued for a requester that has none, and leaves the queue as it takes the port. -/
theorem oneRequestOfEachRequester : Obligations.OneRequestOfEachRequester := by
  intro s u
  rw [State.oneRequestEach_iff, State.oneRequestEach_iff]
  refine step_keeps_portSide (P := PortSide.oneEach) (fun _ _ h => h) (fun s b h hb => ?change)
    (fun _ => State.issueRequests_oneEach) (fun s h => ?grant)
  case change =>
    cases hb with
    | none => exact h
    | freed => exact ⟨h.1, fun _ hq => nomatch hq⟩
    | written => exact ⟨h.1, fun _ hq => nomatch hq⟩
    | powerOn => exact ⟨List.nodup_nil, fun _ hq => nomatch hq⟩
  case grant =>
    obtain e | ⟨q, e⟩ | ⟨mem, limit, count, e, -⟩ := s.grantPort_cases
    · exact e ▸ h
    · exact e ▸ PortSide.granted_oneEach q h
    · exact e ▸ h

/-! ## Steps and commands (O1 to O5) -/

/-- Settles O1. -/
theorem stepRunsTheFrontCommand : Obligations.StepRunsTheFrontCommand := fun _ _ _ => rfl

/-- Settles O2, from what the end of a step keeps; the idle step is that work after one microsecond. -/
theorem endOfStepKeeps : Obligations.EndOfStepKeeps := by
  refine ⟨fun s => ⟨s.settleStep_setting, s.settleStep_books, s.settleStep_mem, fun h => ?ring⟩, fun s h => ?idle⟩
  case ring => exact ⟨s.settleStep_teardown h, s.settleStep_head h, s.settleStep_takenTail h, s.settleStep_ring h⟩
  case idle =>
    let t : State := { s with now := s.now + 1 }
    have hstep : step s = .next t.settleStep := by rw [step, h, State.tick]
    exact ⟨t.settleStep, hstep, t.settleStep_now, t.settleStep_setting, t.settleStep_accounts, t.settleStep_recordQueue,
      t.settleStep_mem⟩

theorem PortSide.Change.pending {s : State} {b : PortSide} (h : PortSide.Change s b) : b.pending = s.pending := by
  cases h <;> rfl

/-- Settles O3: each command has an effect, and neither an effect nor the end of a step touches the queue. -/
theorem everyCommandCompletes : Obligations.EveryCommandCompletes := by
  intro c s
  refine ⟨_, exec_eq_effect c s, ?_⟩
  rw [State.settleStep_pending]
  exact (effect_change c s).pending

theorem allRecords_length : allRecords.length = 1165 := by
  simp [allRecords]

theorem powerOn_controlBase (straps : BitVec 4) :
    (PathUnit.powerOn straps).controlBase.toNat = straps.toNat * 4194304 := by
  simp only [PathUnit.powerOn, BitVec.truncate_eq_setWidth, BitVec.toNat_shiftLeft, BitVec.toNat_setWidth, Nat.shiftLeft_eq]
  omega

/-- Settles O5. -/
theorem powerOnTakesThePowerOnValues : Obligations.PowerOnTakesThePowerOnValues := fun straps _ =>
  ⟨_, rfl, rfl, powerOn_controlBase straps, rfl, rfl, rfl, rfl, allRecords_length⟩

/-! ## Right after reset (O4, O11) -/

@[simp] theorem State.reset_window (w : Fin 6) : State.reset.window w = WindowShadow.powerOn := Table.get_replicate _ _
@[simp] theorem State.reset_page (p : Fin 512) : State.reset.page p = PageRecord.empty := Table.get_replicate _ _
@[simp] theorem State.reset_slot (w : Writer) : State.reset.slot w = ⟨none, none, none⟩ := Table.get_replicate _ _
@[simp] theorem State.reset_stream (n : Fin 4) : State.reset.stream n = LineStream.powerOn := Table.get_replicate _ _
@[simp] theorem State.reset_doc (d : Fin 64) : State.reset.doc d = DocRecord.empty := Table.get_replicate _ _
@[simp] theorem State.reset_dest (t : Fin 512) : State.reset.dest t = DestRecord.empty := Table.get_replicate _ _
@[simp] theorem State.reset_lineUnit (n : Fin 4) : State.reset.lineUnit n = LineUnit.powerOn := Table.get_replicate _ _
@[simp] theorem State.reset_context (n : Fin 4) : State.reset.context n = none := Table.get_replicate _ _

theorem State.reset_account_zero : State.reset.account 0 = Account.powerOn 4 := Table.get_set_self _ _ _

theorem State.reset_account_of_ne {a : Fin 32} (h : a ≠ 0) : State.reset.account a = Account.powerOn 0 := by
  have : State.reset.account a = (Table.replicate 32 (Account.powerOn 0)).get a := Table.get_set_of_ne _ _ h.symm
  rw [this, Table.get_replicate]

/-- Settles O4, field by field. -/
theorem resetValues : Obligations.ResetValues := by
  refine ⟨rfl, rfl, rfl, rfl, rfl, rfl, rfl, rfl, rfl, rfl, rfl, rfl, rfl, rfl, fun w => Table.get_replicate _ w, rfl, rfl,
    fun w => ?window, rfl, rfl, rfl, rfl, State.reset_page, rfl, rfl, fun n => ?stream, rfl, State.reset_doc,
    State.reset_dest, rfl, rfl, fun n => ?line, rfl, rfl, ?account, fun a h => ?accounts, State.reset_context, rfl, rfl, rfl⟩
  case window => simp [WindowShadow.powerOn]
  case stream => simp [LineStream.powerOn]
  case line => simp [LineUnit.powerOn, LineRecord.powerOn]
  case account => rw [State.reset_account_zero, Account.powerOn]
  case accounts => rw [State.reset_account_of_ne h, Account.powerOn]

theorem State.reset_storeWhole : State.reset.storeWhole := by
  refine ⟨?blocks, fun p _ => ?chain, ?nodup, fun p hp => ?writing, fun _ => rfl⟩
  case blocks =>
    have hchains : State.reset.store.pages.cells.flatMap (·.chain) = [] :=
      List.flatMap_eq_nil_iff.mpr fun r hr => by rw [List.eq_of_mem_replicate hr, PageRecord.empty]
    rw [hchains]
    exact .refl _
  case chain => rw [State.reset_page, PageRecord.empty]
  case nodup => simp [State.slotPages, allWriters]
  case writing => simp [State.slotPages, allWriters] at hp

theorem State.reset_callsWhole : State.reset.callsWhole := by
  refine ⟨by decide, rfl, fun n => ?hasCall, rfl, Nat.zero_le _, fun p hp => (nomatch (show none = some p from hp)), fun n => ?timers⟩
  case hasCall => rw [State.reset_context, State.reset_lineUnit]; rfl
  case timers => simp [LineUnit.powerOn]

theorem State.reset_printWhole : State.reset.printWhole := by
  refine ⟨List.nodup_nil, fun d => ?queue, fun d => ?printing, fun d _ => ?free, fun d hd => ?building, fun d hd => ?complete,
    fun h => absurd rfl h, fun n d hd => ?call, fun n m d hd => ?share⟩
  case queue => simp [State.reset, State.powerOn, DispatchUnit.powerOn, DocRecord.empty, State.doc]
  case printing => simp [DocRecord.empty, State.reset, State.powerOn, PrintStream.powerOn, DispatchUnit.powerOn, State.doc]
  case free => rw [State.reset_doc, DocRecord.empty]
  case building => rw [State.reset_doc] at hd; cases hd
  case complete => rw [State.reset_doc] at hd; cases hd
  case call => rw [State.reset_stream] at hd; cases hd
  case share => rw [State.reset_stream] at hd; cases hd

/-- Settles O11, invariant by invariant. -/
theorem invariantsHoldAtReset : Obligations.InvariantsHoldAtReset :=
  ⟨⟨State.reset_memoryCanonical, ⟨by decide, by decide, Nat.zero_le _⟩,
    ⟨List.nodup_nil, fun p hp => nomatch (show none = some p from hp)⟩⟩,
    State.reset_storeWhole, State.reset_callsWhole, State.reset_printWhole, fun h => absurd rfl h⟩

end Sys2Proof.Machine

/-! PROOF. Host accesses (chapter 1): sorting by address, dropped writes, void accesses, and which commands change page
memory. -/

namespace Sys2Proof.Machine

/-! ## Sorting (R1 to R3) -/

theorem State.inControl_iff (a : Nat) (s : State) :
    s.inControl a = true ↔ s.path.controlBase.toNat ≤ a ∧ a < s.path.controlBase.toNat + 65536 := by
  rw [State.inControl, Bool.and_eq_true, decide_eq_true_eq, decide_eq_true_eq, Config.controlBytes]

theorem State.inStore_iff (a : Nat) (s : State) :
    s.inStore a = true ↔ s.ctl.engine = .running ∧ s.store.base ≤ a ∧ a < s.store.base + s.store.blockCount * 1024 := by
  rw [State.inStore, Bool.and_eq_true, Bool.and_eq_true, decide_eq_true_eq, decide_eq_true_eq, decide_eq_true_eq, and_assoc,
    Config.blockBytes]

theorem State.inLog_iff (a : Nat) (s : State) :
    s.inLog a = true ↔ s.ctl.engine = .running ∧ s.store.logBase ≤ a ∧ a < s.store.logBase + 65536 := by
  rw [State.inLog, Bool.and_eq_true, Bool.and_eq_true, decide_eq_true_eq, decide_eq_true_eq, decide_eq_true_eq, and_assoc,
    Config.logBytes]

theorem State.windowHolds_iff (a : Nat) (s : State) (w : Fin 6) :
    s.windowHolds a w = true ↔ (s.window w).active.base.toNat ≤ a ∧
      a < (s.window w).active.base.toNat + windowBytes (s.window w).active.sizeCode := by
  simp [State.windowHolds]

theorem mem_allWindows (w : Fin 6) : w ∈ allWindows := by
  revert w
  decide

theorem allWindows_pairwise : allWindows.Pairwise (· < ·) := by
  decide

/-- Of the windows that hold an address, the lowest is the one found. -/
theorem find?_allWindows_of_lowest {p : Fin 6 → Bool} {w : Fin 6} (hw : p w = true) (hlow : ∀ v, v < w → p v = false) :
    allWindows.find? p = some w := by
  obtain ⟨before, after, hsplit⟩ := List.append_of_mem (mem_allWindows w)
  rw [List.find?_eq_some_iff_append]
  refine ⟨hw, before, after, hsplit, fun v hv => ?_⟩
  have hlt : v < w := (List.pairwise_append.mp (hsplit ▸ allWindows_pairwise)).2.2 v hv w List.mem_cons_self
  simp [hlow v hlt]

theorem find?_allWindows_of_none {p : Fin 6 → Bool} (h : ∀ w, p w = false) : allWindows.find? p = none := by
  simp [List.find?_eq_none, h]

theorem State.sortAccess_control {acc : HostAccess} {s : State} (h : s.inControl (accessAddr acc).toNat = true) :
    s.sortAccess acc = if isWrite acc = true ∧ partWritten ((accessAddr acc).toNat - s.path.controlBase.toNat) = true
      then .controlDrop else .forward := by
  simp [State.sortAccess, h]

theorem State.sortAccess_store {acc : HostAccess} {s : State} (hc : s.inControl (accessAddr acc).toNat = false)
    (h : s.inStore (accessAddr acc).toNat = true) :
    s.sortAccess acc = if isWrite acc = true then .storeDrop else .forward := by
  simp [State.sortAccess, hc, h]

theorem State.sortAccess_log {acc : HostAccess} {s : State} (hc : s.inControl (accessAddr acc).toNat = false)
    (hs : s.inStore (accessAddr acc).toNat = false) (h : s.inLog (accessAddr acc).toNat = true) :
    s.sortAccess acc = if isWrite acc = true then .logDrop else .forward := by
  simp [State.sortAccess, hc, hs, h]

theorem State.sortAccess_window {acc : HostAccess} {s : State} (hc : s.inControl (accessAddr acc).toNat = false)
    (hs : s.inStore (accessAddr acc).toNat = false) (hl : s.inLog (accessAddr acc).toNat = false) :
    s.sortAccess acc = match allWindows.find? (s.windowHolds (accessAddr acc).toNat) with
      | some w => .window w
      | none => .forward := by
  simp [State.sortAccess, hc, hs, hl] <;> rfl

theorem partWritten_iff (o : Nat) : partWritten o = true ↔
    (0x0404 ≤ o ∧ o < 0x040C) ∨ (0x0800 ≤ o ∧ o < 0x1000 ∧ 48 ≤ o % 64) ∨ (0x2000 ≤ o ∧ o < 0x5980) ∨
      (0x5A00 ≤ o ∧ o < 0x5A80) ∨ (0x6000 ≤ o ∧ o < 0x6500) ∨ (0x8000 ≤ o ∧ o < 0x10000) := by
  simp only [partWritten, Bool.or_eq_true, Bool.and_eq_true, decide_eq_true_eq]
  omega

/-- Settles O13: the classes are judged in their order, and of the windows that hold the address the lowest is found. -/
theorem accessesAreSortedByAddress : Obligations.AccessesAreSortedByAddress := by
  rintro acc s _ _ rfl rfl
  simp only [← State.inControl_iff, ← State.inStore_iff, ← State.inLog_iff, Bool.not_eq_true]
  refine ⟨State.sortAccess_control, fun hc => ⟨State.sortAccess_store hc, fun hs => ⟨State.sortAccess_log hc hs, fun hl =>
    ⟨fun w hw hlow => ?window, fun hnone => ?forward⟩⟩⟩, fun w => State.windowHolds_iff _ s w, partWritten_iff⟩
  case window => rw [State.sortAccess_window hc hs hl, find?_allWindows_of_lowest hw hlow]
  case forward => rw [State.sortAccess_window hc hs hl, find?_allWindows_of_none hnone]

/-! ## Accesses that arrive -/

theorem exec_access_next {c : Instr} {acc : HostAccess} (h : c.access = some acc) (s : State) :
    exec c s = .next (s.hostAccess acc).settleStep := exec_access h s

/-- An access that arrives while none is held is treated as it is sorted. -/
theorem State.hostAccess_arrives {acc : HostAccess} {s : State} (h : s.path.held = none) :
    s.hostAccess acc = match s.sortAccess acc with
      | .forward => s.hold acc none .memoryPort
      | .controlDrop => s.dropControl
      | .storeDrop => s.dropStore
      | .logDrop => s.dropLog
      | .window w => s.windowAccess w acc := by
  simp [State.hostAccess, h] <;> rfl

/-! ## Dropped writes (R2, R3) -/

/-- A dropped write whose count has been gained: the counters' rewrite and GUARD, and the access is answered. -/
theorem State.guarded_form (s : State) : ∃ q, s.guarded = { s with
      path := { s.path with held := none, answer := some .written },
      ctl := { s.ctl with queue := q, notices := s.ctl.notices ||| Notice.guard.bit } } ∧
    QueueEntry.record .counters ∈ q := by
  obtain ⟨q, hrewrite, -, hmem⟩ := State.rewrite_form .counters s
  refine ⟨(State.raise .guard (s.withQueue q)).ctl.queue, ?_, State.mem_raise_of_mem .guard hmem⟩
  rw [State.guarded, hrewrite, State.raise_eq]
  rfl

/-- One whose count stands at its maximum: GUARD alone. -/
theorem State.raise_guard_answered (s : State) : ∃ q, (s.raise .guard).answerHost .written = { s with
      path := { s.path with held := none, answer := some .written },
      ctl := { s.ctl with queue := q, notices := s.ctl.notices ||| Notice.guard.bit } } := by
  refine ⟨(s.raise .guard).ctl.queue, ?_⟩
  rw [State.raise_eq]
  rfl

theorem saturate_ne_self {top n : Nat} (h : n < top) : saturate top n ≠ n := by
  rw [saturate, if_pos h]
  omega

theorem State.dropControl_form {s : State} (h : s.path.held = none) : ∃ q, s.dropControl = { s with
      path := { s.path with controlDrops := saturate dropTop s.path.controlDrops, answer := some .written },
      ctl := { s.ctl with queue := q, notices := s.ctl.notices ||| Notice.guard.bit } } ∧
    (s.path.controlDrops < dropTop → QueueEntry.record .counters ∈ q) := by
  unfold State.dropControl
  dsimp only
  split
  · next hsat =>
    obtain ⟨q, hq⟩ := s.raise_guard_answered
    exact ⟨q, by rw [hq, hsat, ← h], fun hlt => absurd hsat (saturate_ne_self hlt)⟩
  · obtain ⟨q, hq, hmem⟩ := State.guarded_form { s with path := { s.path with
      controlDrops := saturate dropTop s.path.controlDrops } }
    exact ⟨q, by rw [hq, ← h], fun _ => hmem⟩

theorem State.dropStore_form {s : State} (h : s.path.held = none) : ∃ q, s.dropStore = { s with
      path := { s.path with storeDrops := saturate dropTop s.path.storeDrops, answer := some .written },
      ctl := { s.ctl with queue := q, notices := s.ctl.notices ||| Notice.guard.bit } } ∧
    (s.path.storeDrops < dropTop → QueueEntry.record .counters ∈ q) := by
  unfold State.dropStore
  dsimp only
  split
  · next hsat =>
    obtain ⟨q, hq⟩ := s.raise_guard_answered
    exact ⟨q, by rw [hq, hsat, ← h], fun hlt => absurd hsat (saturate_ne_self hlt)⟩
  · obtain ⟨q, hq, hmem⟩ := State.guarded_form { s with path := { s.path with
      storeDrops := saturate dropTop s.path.storeDrops } }
    exact ⟨q, by rw [hq, ← h], fun _ => hmem⟩

theorem State.dropLog_form {s : State} (h : s.path.held = none) : ∃ q, s.dropLog = { s with
      path := { s.path with logDrops := saturate dropTop s.path.logDrops, answer := some .written },
      ctl := { s.ctl with queue := q, notices := s.ctl.notices ||| Notice.guard.bit } } ∧
    (s.path.logDrops < dropTop → QueueEntry.record .counters ∈ q) := by
  unfold State.dropLog
  dsimp only
  split
  · next hsat =>
    obtain ⟨q, hq⟩ := s.raise_guard_answered
    exact ⟨q, by rw [hq, hsat, ← h], fun hlt => absurd hsat (saturate_ne_self hlt)⟩
  · obtain ⟨q, hq, hmem⟩ := State.guarded_form { s with path := { s.path with
      logDrops := saturate dropTop s.path.logDrops } }
    exact ⟨q, by rw [hq, ← h], fun _ => hmem⟩

/-- Settles O17: a dropped write by the class it is sorted into. -/
theorem droppedWritesAreCounted : Obligations.DroppedWritesAreCounted := by
  intro c w s hc hheld
  have row {t : State} (h : s.hostAccess (.write w) = t) : exec c s = .next t.settleStep := h ▸ exec_access_next hc s
  have arrives := State.hostAccess_arrives (acc := .write w) hheld
  refine ⟨fun hsort => ?control, fun hsort => ?store, fun hsort => ?log⟩
  case control =>
    obtain ⟨q, hq, hmem⟩ := State.dropControl_form hheld
    rw [hsort] at arrives
    exact ⟨_, row (arrives.trans hq), rfl, hmem⟩
  case store =>
    obtain ⟨q, hq, hmem⟩ := State.dropStore_form hheld
    rw [hsort] at arrives
    exact ⟨_, row (arrives.trans hq), rfl, hmem⟩
  case log =>
    obtain ⟨q, hq, hmem⟩ := State.dropLog_form hheld
    rw [hsort] at arrives
    exact ⟨_, row (arrives.trans hq), rfl, hmem⟩

/-! ## Void accesses (R7, R9) -/

/-- A void read answers 0x00 in every byte; a void write is answered once its stream has counted it. -/
theorem State.voidAccess_read {acc : HostAccess} (w : Fin 6) (s : State) (h : isWrite acc = false) :
    s.voidAccess w acc = s.answerHost (.read (List.replicate (accessBytes acc) 0)) := by
  cases acc with
  | read r => rfl
  | write x => cases h

theorem State.voidAccess_write {acc : HostAccess} (w : Fin 6) (s : State) (h : isWrite acc = true) :
    s.voidAccess w acc = (s.countDropped w).answerHost .written := by
  cases acc with
  | read r => cases h
  | write x => rfl

/-- A dropped write is counted by its window's stream alone. -/
theorem State.countDropped_form (w : Fin 6) (s : State) : ∃ q, s.countDropped w =
    ({ s with
      scan := { s.scan with
        dropped := if windowStream w = .scan then saturate 65535 s.scan.dropped else s.scan.dropped },
      print := { s.print with
        dropped := if windowStream w = .print then saturate 65535 s.print.dropped else s.print.dropped },
      streams := match windowStream w with
        | .line n => s.streams.set n { s.stream n with dropped := saturate 65535 (s.stream n).dropped }
        | _ => s.streams } : State).withQueue q := by
  unfold State.countDropped
  split
  · next h =>
    obtain ⟨q, hq, -⟩ := State.setScan_form { s.scan with dropped := saturate 65535 s.scan.dropped } s
    exact ⟨q, by rw [hq, h]; rfl⟩
  · next h =>
    obtain ⟨q, hq, -⟩ := State.setPrint_form { s.print with dropped := saturate 65535 s.print.dropped } s
    exact ⟨q, by rw [hq, h]; rfl⟩
  · next n h =>
    obtain ⟨q, hq, -⟩ := State.setStream_form n { s.stream n with dropped := saturate 65535 (s.stream n).dropped } s
    exact ⟨q, by rw [State.modStream, hq, h]; rfl⟩

/-- An open stream's window voids an access against its direction (R9). -/
theorem State.openWindowAccess_against {acc : HostAccess} {w : Fin 6} {s : State}
    (h : (windowStream w = .scan ∧ isWrite acc = false) ∨ (windowStream w = .print ∧ isWrite acc = true) ∨
      ∃ n, windowStream w = .line n ∧ (isWrite acc = true ↔ (s.stream n).direction ≠ .receive)) :
    s.openWindowAccess w acc = s.voidAccess w acc := by
  obtain ⟨hw, hacc⟩ | ⟨hw, hacc⟩ | ⟨n, hw, hacc⟩ := h
  · cases acc with
    | read r => simp only [State.openWindowAccess, hw]; rfl
    | write x => cases hacc
  · cases acc with
    | read r => cases hacc
    | write x => simp only [State.openWindowAccess, hw]
  · cases acc with
    | read r =>
      have hdir : (s.stream n).direction = .receive := by simpa [isWrite] using hacc
      simp only [State.openWindowAccess, hw, hdir, if_true]
      rfl
    | write x =>
      have hdir : (s.stream n).direction ≠ .receive := by simpa [isWrite] using hacc
      simp only [State.openWindowAccess, hw, if_neg hdir]

/-- Settles O18: both kinds of access are voided; what a voided read and write leave. -/
theorem voidWindowAccess : Obligations.VoidWindowAccess := by
  intro c acc w s hc hheld hsort hvoid
  have hvoided : s.hostAccess acc = s.voidAccess w acc := by
    rw [State.hostAccess_arrives hheld, hsort]
    dsimp only
    rw [State.windowAccess]
    obtain hclosed | hagainst := hvoid
    · rw [if_pos hclosed]
    · rw [State.openWindowAccess_against hagainst, ite_self]
  rw [exec_access_next hc, hvoided]
  refine ⟨fun hread => ?read, fun hwrite => ?write⟩
  case read => rw [State.voidAccess_read w s hread, State.answerHost, ← hheld]
  case write =>
    obtain ⟨q, hq⟩ := s.countDropped_form w
    refine ⟨_, rfl, ?_, ?_, ?_, fun n => ?_⟩
    · rw [State.voidAccess_write w s hwrite, hq, State.answerHost, ← hheld]
      rfl
    · rw [State.voidAccess_write w s hwrite, hq]
      rfl
    · rw [State.voidAccess_write w s hwrite, hq]
      rfl
    · rw [State.voidAccess_write w s hwrite, hq]
      cases hstream : windowStream w with
      | scan => simp [State.stream, State.answerHost]
      | print => simp [State.stream, State.answerHost]
      | line m =>
        by_cases hmn : m = n
        · subst hmn
          simp [State.stream, State.answerHost]
        · simp [State.stream, State.answerHost, hmn, Table.get_set_of_ne]

/-! ## Forwarded accesses (R12, R15) -/

/-- While no access is held, serving the streams holds none and answers none. -/
theorem State.serviceStreams_held_none {s : State} (h : s.path.held = none) :
    s.serviceStreams.path.held = none ∧ s.serviceStreams.path.answer = s.path.answer := by
  have hreceived : (allLines.foldl State.receiveService s).path.held = none :=
    (foldl_held _ State.receiveService_held allLines s).trans h
  have hretry : (allLines.foldl State.receiveService s).retryHeld = allLines.foldl State.receiveService s := by
    rw [State.retryHeld, hreceived]
  unfold State.serviceStreams
  dsimp only
  rw [hretry, State.arbitrateCoder_held, State.arbitrateCoder_answer, foldl_held _ State.sendService_held,
    foldl_answer _ State.sendService_answer, State.printService_held, State.printService_answer, State.scanService_held,
    State.scanService_answer, foldl_answer _ State.receiveService_answer]
  exact ⟨hreceived, rfl⟩

/-- A snooped write neither holds nor answers an access. -/
theorem State.snoop_held_answer (w : HostWrite) (s : State) :
    (s.snoop w).path.held = s.path.held ∧ (s.snoop w).path.answer = s.path.answer := by
  unfold State.snoop
  dsimp only
  split
  · unfold State.snoopMask State.snoopHoldLimit
    dsimp only
    split <;> split <;> simp
  · split
    · have held (t : State) (l : List (Nat × Byte)) (n : Fin 6) : (t.snoopEntry l n).path.held = t.path.held := by
        unfold State.snoopEntry State.takeWindow
        dsimp only
        (repeat' split) <;> simp
      have answer (t : State) (l : List (Nat × Byte)) (n : Fin 6) : (t.snoopEntry l n).path.answer = t.path.answer := by
        unfold State.snoopEntry State.takeWindow
        dsimp only
        (repeat' split) <;> simp
      exact ⟨foldl_held _ (fun t n => held t _ n) _ _, foldl_answer _ (fun t n => answer t _ n) _ _⟩
    · split
      · unfold State.snoopTail
        split <;> simp
      · split <;> simp

/-- What carrying out a forwarded access answers. -/
def State.forwardedAnswer (s : State) : HostAccess → HostAnswer
  | .read r => .read (Memory.readBytes s.mem r.addr.toNat r.size.bytes)
  | .write _ => .written

/-- What carrying out a forwarded access makes of page memory. -/
def State.forwardedMem (s : State) : HostAccess → List Host.Cell
  | .read _ => s.mem
  | .write w => Memory.writeBytes s.mem w.addr.toNat (hostWriteBytes w)

theorem State.forwardAccess_path (acc : HostAccess) (s : State) :
    (s.forwardAccess acc).path.held = none ∧ (s.forwardAccess acc).path.answer = some (s.forwardedAnswer acc) := by
  cases acc with
  | read r => exact ⟨rfl, rfl⟩
  | write w =>
    unfold State.forwardAccess
    dsimp only
    split
    · exact State.snoop_held_answer w _
    · exact ⟨rfl, rfl⟩

theorem State.snoop_mem (w : HostWrite) (s : State) : (s.snoop w).mem = s.mem := by
  obtain ⟨limit, h, -⟩ := s.snoop_portSide w
  exact congrArg PortSide.mem h

theorem State.forwardAccess_mem (acc : HostAccess) (s : State) : (s.forwardAccess acc).mem = s.forwardedMem acc := by
  cases acc with
  | read r => rfl
  | write w =>
    unfold State.forwardAccess
    dsimp only
    split
    · exact State.snoop_mem w _
    · rfl

/-- The state whose port the end of a step grants. -/
def State.beforeGrant (s : State) : State := s.teardownAdvance.runDueArbiter.serviceStreams.issueRequests

theorem State.settleStep_eq (s : State) : s.settleStep = s.beforeGrant.grantPort.serviceStreams.issueRequests := rfl

theorem State.beforeGrant_portSide (s : State) :
    s.beforeGrant.portSide = { s.portSide with requests := s.beforeGrant.path.requests } := by
  have served : s.teardownAdvance.runDueArbiter.serviceStreams.portSide = s.portSide := by
    rw [State.portSide_of_plant (State.serviceStreams_plant _), State.portSide_of_plant (State.runDueArbiter_plant _),
      State.teardownAdvance_portSide]
  rw [State.beforeGrant, State.issueRequests_portSide, served]

theorem State.fields_of_portSide {s t : State} {requests : List Requester}
    (h : t.portSide = { s.portSide with requests := requests }) :
    t.mem = s.mem ∧ t.path.passedOver = s.path.passedOver ∧
      t.path.port.map (·.requester) = s.path.port.map (·.requester) :=
  ⟨congrArg PortSide.mem h, congrArg PortSide.passedOver h, congrArg PortSide.holder h⟩

theorem State.beforeGrant_mem (s : State) : s.beforeGrant.mem = s.mem := (State.fields_of_portSide s.beforeGrant_portSide).1

theorem State.beforeGrant_passedOver (s : State) : s.beforeGrant.path.passedOver = s.path.passedOver :=
  (State.fields_of_portSide s.beforeGrant_portSide).2.1

theorem State.beforeGrant_holder (s : State) :
    s.beforeGrant.path.port.map (·.requester) = s.path.port.map (·.requester) :=
  (State.fields_of_portSide s.beforeGrant_portSide).2.2

/-- While an access waits for the port, the work before the grant keeps the held access and the last answer. -/
theorem State.beforeGrant_waiting {s : State} {acc : HostAccess} (h : s.path.waitingAccess = some acc) :
    s.beforeGrant.path.held = s.path.held ∧ s.beforeGrant.path.answer = s.path.answer := by
  have hheld : (allLines.foldl State.receiveService s.teardownAdvance.runDueArbiter).path.held = s.path.held := by
    rw [foldl_held _ State.receiveService_held, State.runDueArbiter_held, State.teardownAdvance_held]
  have hretry := State.retryHeld_of_waiting ((PathUnit.waitingAccess_of_held hheld).trans h)
  unfold State.beforeGrant State.serviceStreams
  dsimp only
  rw [hretry, State.issueRequests_held, State.issueRequests_answer, State.arbitrateCoder_held, State.arbitrateCoder_answer,
    foldl_held _ State.sendService_held, foldl_answer _ State.sendService_answer, State.printService_held,
    State.printService_answer, State.scanService_held, State.scanService_answer, hheld,
    foldl_answer _ State.receiveService_answer, State.runDueArbiter_answer, State.teardownAdvance_answer]
  exact ⟨rfl, rfl⟩

/-- The access that waits is carried out at a grant of the free port below 8 grants past waiting requests. -/
theorem State.grantPort_forwards {s : State} {acc : HostAccess} (hport : s.path.port = none)
    (hwait : s.path.waitingAccess = some acc) (hcount : s.path.passedOver < Config.passedOverLimit) :
    ∃ n, s.grantPort = (s.setPassedOver n).forwardAccess acc := by
  unfold State.grantPort
  rw [hport, hwait]
  cases s.path.requests with
  | nil => exact ⟨0, rfl⟩
  | cons q rest =>
    refine ⟨s.path.passedOver + 1, ?_⟩
    dsimp only
    rw [if_pos hcount]

theorem State.beforeGrant_port_none {s : State} (h : s.path.port = none) : s.beforeGrant.path.port = none := by
  have := s.beforeGrant_holder
  rw [h] at this
  simpa using this

/-- The end of a step carries out the access that waits, the port being free. -/
theorem State.settleStep_forwards {s : State} {acc : HostAccess} (hport : s.path.port = none)
    (hwait : s.path.waitingAccess = some acc) (hcount : s.path.passedOver < Config.passedOverLimit) :
    s.settleStep.path.held = none ∧ s.settleStep.path.answer = some (s.forwardedAnswer acc) ∧
      s.settleStep.mem = s.forwardedMem acc := by
  have hwait' : s.beforeGrant.path.waitingAccess = some acc :=
    (PathUnit.waitingAccess_of_held (State.beforeGrant_waiting hwait).1).trans hwait
  obtain ⟨n, hgrant⟩ := State.grantPort_forwards (State.beforeGrant_port_none hport) hwait'
    (by rw [State.beforeGrant_passedOver]; exact hcount)
  obtain ⟨hheld, hanswer⟩ := (s.beforeGrant.setPassedOver n).forwardAccess_path acc
  obtain ⟨hheld', hanswer'⟩ := State.serviceStreams_held_none hheld
  have hmem : (s.beforeGrant.setPassedOver n).mem = s.mem := by rw [State.setPassedOver_mem, State.beforeGrant_mem]
  rw [State.settleStep_eq, hgrant]
  refine ⟨?_, ?_, ?_⟩
  · rw [State.issueRequests_held, hheld']
  · rw [State.issueRequests_answer, hanswer', hanswer]
    cases acc <;> simp only [State.forwardedAnswer, hmem]
  · rw [State.issueRequests_mem, State.mem_of_plant (State.serviceStreams_plant _), State.forwardAccess_mem]
    cases acc <;> simp only [State.forwardedMem, hmem]

theorem State.hold_waiting (acc : HostAccess) (s : State) : (s.hold acc none .memoryPort).path.waitingAccess = some acc := rfl

/-- While a request has the port, the end of a step leaves a waiting access held. -/
theorem State.settleStep_port_taken {s : State} {acc : HostAccess} {p : PortRequest} (hport : s.path.port = some p)
    (hwait : s.path.waitingAccess = some acc) :
    s.settleStep.path.held = s.path.held ∧ s.settleStep.path.answer = s.path.answer ∧ s.settleStep.mem = s.mem := by
  obtain ⟨hheld, hanswer⟩ := State.beforeGrant_waiting hwait
  have hholder := s.beforeGrant_holder
  rw [hport] at hholder
  obtain ⟨p', hp', -⟩ := Option.map_eq_some_iff.mp hholder
  have hgrant : s.beforeGrant.grantPort = s.beforeGrant := by rw [State.grantPort, hp']
  have hretry (t : State) (ht : t.path.waitingAccess = some acc) :
      t.serviceStreams.path.held = t.path.held ∧ t.serviceStreams.path.answer = t.path.answer := by
    have hr : (allLines.foldl State.receiveService t).path.held = t.path.held := foldl_held _ State.receiveService_held ..
    have hkeep := State.retryHeld_of_waiting ((PathUnit.waitingAccess_of_held hr).trans ht)
    unfold State.serviceStreams
    dsimp only
    rw [hkeep, State.arbitrateCoder_held, State.arbitrateCoder_answer, foldl_held _ State.sendService_held,
      foldl_answer _ State.sendService_answer, State.printService_held, State.printService_answer, State.scanService_held,
      State.scanService_answer, hr, foldl_answer _ State.receiveService_answer]
    exact ⟨rfl, rfl⟩
  obtain ⟨hheld', hanswer'⟩ := hretry s.beforeGrant ((PathUnit.waitingAccess_of_held hheld).trans hwait)
  rw [State.settleStep_eq, hgrant, State.issueRequests_held, State.issueRequests_answer, State.issueRequests_mem, hheld', hheld,
    hanswer', hanswer, State.mem_of_plant (State.serviceStreams_plant _), State.beforeGrant_mem]
  exact ⟨rfl, rfl, rfl⟩

theorem hostWriteBytes_length (w : HostWrite) : (hostWriteBytes w).length = w.size.bytes := by
  have le_length : ∀ n v, (le n v).length = n := by
    intro n
    induction n with
    | zero => intro v; rfl
    | succ n ih => intro v; simp [le, ih]
  exact le_length _ _

theorem accessSize_bytes_le (z : AccessSize) : z.bytes ≤ Config.memoryBytes := by
  cases z <;> decide

/-- The request that is granted takes the port; the access that waits stays held. -/
theorem State.grantRequest_taken {s : State} {q : Requester} (h : s.wantsPort q = true) :
    (s.grantRequest q).path.passedOver = 0 ∧ (s.grantRequest q).path.port.map (fun p => p.requester) = some q ∧
      (s.grantRequest q).path.held = s.path.held := by
  have written (w : Writer) (x : PageInHand) (closing : Bool) :
      (s.grantStoreWrite w x closing).path.passedOver = 0 ∧
        (s.grantStoreWrite w x closing).path.port.map (fun p => p.requester) = some w.requester ∧
        (s.grantStoreWrite w x closing).path.held = s.path.held := ⟨rfl, rfl, rfl⟩
  cases q with
  | scan =>
    obtain ⟨⟨x, closing⟩, hnext⟩ := Option.isSome_iff_exists.mp h
    rw [State.grantRequest, hnext]
    exact written .scan x closing
  | print => exact ⟨rfl, rfl, rfl⟩
  | line n =>
    rw [State.grantRequest]
    split
    · exact written (.line n) _ _
    · exact ⟨rfl, rfl, rfl⟩
  | control =>
    have hqueue : s.ctl.queue ≠ [] := of_decide_eq_true h
    rw [State.grantRequest]
    split
    · next e rest _ => cases e <;> exact ⟨rfl, rfl, rfl⟩
    · contradiction
  | charge =>
    have hqueue : s.charge.recordQueue ≠ [] := of_decide_eq_true h
    rw [State.grantRequest]
    split
    · exact ⟨rfl, rfl, rfl⟩
    · contradiction

/-- The arbiter of a free port with requests waiting: past 8 grants, or with no access, the oldest request is granted. -/
theorem State.grantPort_requests {s : State} {q : Requester} {rest : List Requester} (hport : s.path.port = none)
    (hrequests : s.path.requests = q :: rest) (h : s.path.waitingAccess = none ∨ 8 ≤ s.path.passedOver) :
    s.grantPort = s.grantRequest q := by
  unfold State.grantPort
  rw [hport, hrequests]
  cases hwait : s.path.waitingAccess with
  | none => rfl
  | some acc =>
    have hcount : 8 ≤ s.path.passedOver := h.resolve_left (by simp [hwait])
    exact if_neg (Nat.not_lt.mpr hcount)

/-- Settles O14: the access is held for the port, and the end of the step grants it or leaves it held. -/
theorem forwardedAccess : Obligations.ForwardedAccess := by
  refine ⟨fun c acc s hc hheld hport hcount hsort hcanon => ?carried, fun c acc s p hc hheld hport hsort => ?taken,
    fun s => ?arbiter⟩
  case carried =>
    have harrives : s.hostAccess acc = s.hold acc none .memoryPort := by rw [State.hostAccess_arrives hheld, hsort]
    obtain ⟨hheld', hanswer, hmem⟩ := State.settleStep_forwards (s := s.hold acc none .memoryPort) hport (s.hold_waiting acc) hcount
    refine ⟨(s.hold acc none .memoryPort).settleStep, by rw [exec_access_next hc, harrives], hheld', ?_, ?_, ?_, ?_⟩
    · exact State.settleStep_setting _
    · exact State.settleStep_books _
    · rintro r rfl
      exact ⟨hanswer, hmem⟩
    · rintro w rfl
      have hmem' : (s.hold (.write w) none .memoryPort).settleStep.mem =
          Memory.writeBytes s.mem w.addr.toNat (hostWriteBytes w) := hmem
      refine ⟨hanswer, fun i hi => ?_, fun a ha => ?_⟩
      · rw [hmem']
        exact Memory.read_writeBytes hcanon (by rw [hostWriteBytes_length]; exact accessSize_bytes_le _) hi
      · rw [hmem']
        exact Memory.read_writeBytes_of_ne hcanon fun i hi => ha i (hostWriteBytes_length w ▸ hi)
  case taken =>
    have harrives : s.hostAccess acc = s.hold acc none .memoryPort := by rw [State.hostAccess_arrives hheld, hsort]
    obtain ⟨hheld', hanswer, hmem⟩ := State.settleStep_port_taken (s := s.hold acc none .memoryPort) hport (s.hold_waiting acc)
    exact ⟨_, by rw [exec_access_next hc, harrives], hmem, hanswer, hheld'⟩
  case arbiter =>
    refine ⟨fun p hp => ?_, fun hport hrequests => ⟨fun hwait => ?_, fun acc hwait => ?_⟩, fun q rest hport hrequests =>
      ⟨fun acc hwait hcount => ?_, fun hnone hwants => ?_⟩, fun r => rfl, fun w => ?_⟩
    · rw [State.grantPort, hp]
    · rw [State.grantPort, hport, hwait, hrequests]
      rfl
    · rw [State.grantPort, hport, hwait, hrequests]
      rfl
    · rw [State.grantPort, hport, hwait, hrequests]
      exact if_pos hcount
    · obtain ⟨hover, hholder, hheld⟩ := State.grantRequest_taken hwants
      exact ⟨State.grantPort_requests hport hrequests hnone, hover, hholder, hheld, State.grantRequest_mem q s⟩
    · obtain ⟨hheld, hanswer⟩ := s.forwardAccess_path (.write w)
      exact ⟨s.forwardAccess_mem (.write w), hheld, hanswer⟩

/-! ## Bytes of words -/

theorem le_length (n v : Nat) : (le n v).length = n := by
  induction n generalizing v with
  | zero => rfl
  | succ n ih => simp [le, ih]

/-- One byte of a word replaced: that byte, and every other as it was. -/
theorem extractLsb'_setWordByte (x : BitVec 32) (b : Byte) {i k : Nat} (hi : i < 4) (hk : k < 4) :
    (setWordByte x k b).extractLsb' (8 * i) 8 = if i = k then b else x.extractLsb' (8 * i) 8 := by
  apply BitVec.eq_of_getLsbD_eq
  intro m hm
  have mask : ∀ (k : Nat) (h : k < 32), (255#32)[k] = decide (k < 8) := by decide
  have hlt : 8 * i + m < 32 := by omega
  by_cases hik : i = k
  · subst hik
    simp [setWordByte, hm, hlt, mask]
  · by_cases h : 8 * i + m < 8 * k
    · simp [setWordByte, hm, hlt, hik, h]
    · have h8 : ¬8 * i + m - 8 * k < 8 := by omega
      have hb : b.getLsbD (8 * i + m - 8 * k) = false := BitVec.getLsbD_of_ge _ _ (by omega)
      simp [setWordByte, hm, hlt, hik, h, h8, hb, mask]

/-- The bytes of a write that lie in a word, put into it: each byte of the word is the written one, where one was. -/
theorem extractLsb'_foldl_setWordByte (l : List Byte) (o : Nat) (x : BitVec 32) {i : Nat} (hi : i < 4) :
    (((offsetsFrom o l).filter fun p => decide (p.1 < 4)).foldl (fun x p => setWordByte x p.1 p.2) x).extractLsb' (8 * i) 8 =
      if o ≤ i ∧ i < o + l.length then l.getD (i - o) 0 else x.extractLsb' (8 * i) 8 := by
  induction l generalizing o x with
  | nil =>
    have : ¬(o ≤ i ∧ i < o) := by omega
    simp [offsetsFrom, this]
  | cons b rest ih =>
    simp only [offsetsFrom, List.length_cons]
    by_cases ho : o < 4
    · rw [List.filter_cons_of_pos (by simpa using ho), List.foldl_cons, ih, extractLsb'_setWordByte _ _ hi ho]
      by_cases hio : i = o
      · subst hio
        simp
      · by_cases hlt : o + 1 ≤ i ∧ i < o + 1 + rest.length
        · have hle : o ≤ i ∧ i < o + (rest.length + 1) := by omega
          have hsub : i - o = (i - (o + 1)) + 1 := by omega
          rw [if_pos hlt, if_pos hle, hsub, List.getD_cons_succ]
        · have hle : ¬(o ≤ i ∧ i < o + (rest.length + 1)) := by omega
          rw [if_neg hlt, if_neg hle, if_neg hio]
    · rw [List.filter_cons_of_neg (by simpa using ho), ih]
      have h1 : ¬(o + 1 ≤ i ∧ i < o + 1 + rest.length) := by omega
      have h2 : ¬(o ≤ i ∧ i < o + (rest.length + 1)) := by omega
      rw [if_neg h1, if_neg h2]

/-- A 32-bit word is its four bytes. -/
theorem eq_of_bytes {x y : BitVec 32} (h : ∀ i, i < 4 → x.extractLsb' (8 * i) 8 = y.extractLsb' (8 * i) 8) : x = y := by
  apply BitVec.eq_of_getLsbD_eq
  intro m hm
  have hbyte := congrArg (fun b => b.getLsbD (m % 8)) (h (m / 8) (by omega))
  have hm8 : m % 8 < 8 := Nat.mod_lt _ (by decide)
  simpa [hm8, Nat.div_add_mod] using hbyte

theorem extractLsb'_eq_ofNat (x : BitVec 32) (i : Nat) : x.extractLsb' (8 * i) 8 = BitVec.ofNat 8 (x.toNat / 256 ^ i) := by
  apply BitVec.eq_of_toNat_eq
  have h256 : 256 ^ i = 2 ^ (8 * i) := by rw [show 256 = 2 ^ 8 from rfl, ← Nat.pow_mul]
  simp [h256, Nat.shiftRight_eq_div_pow]

/-! ## Snooped writes (R12, R22, R25, R31) -/

theorem State.inControl_of_offset {a o : Nat} {s : State} (h : a = s.path.controlBase.toNat + o) (ho : o < 65536) :
    s.inControl a = true := by
  rw [State.inControl_iff]
  omega

/-- A write to an offset of the control region that no part area holds is forwarded. -/
theorem State.sortAccess_of_offset {w : HostWrite} {o : Nat} {s : State}
    (h : w.addr.toNat = s.path.controlBase.toNat + o) (ho : o < 65536) (hpart : partWritten o = false) :
    s.sortAccess (.write w) = .forward := by
  have hsub : w.addr.toNat - s.path.controlBase.toNat = o := by omega
  have hcontrol : s.inControl (accessAddr (.write w)).toNat = true := State.inControl_of_offset h ho
  rw [State.sortAccess_control hcontrol, accessAddr, hsub, hpart, if_neg]
  simp

/-- A forwarded write to an offset of the control region is stored, answered and snooped. -/
theorem State.forwardAccess_snoops {w : HostWrite} {o : Nat} {s : State}
    (h : w.addr.toNat = s.path.controlBase.toNat + o) (ho : o < 65536) :
    s.forwardAccess (.write w) = (({ s with mem := Memory.writeBytes s.mem w.addr.toNat (hostWriteBytes w) } : State).answerHost
      .written).snoop w := by
  rw [State.forwardAccess, if_pos (State.inControl_of_offset h ho)]

theorem partWritten_of_lt {o : Nat} (h : o < 0x0404) : partWritten o = false := by
  rw [← Bool.not_eq_true, partWritten_iff]
  omega

theorem accessSize_bytes_pos (z : AccessSize) : 0 < z.bytes := by
  cases z <;> decide

/-- The offsets of a write's bytes. -/
theorem mem_offsetsFrom {o : Nat} {l : List Byte} {p : Nat × Byte} (h : p ∈ offsetsFrom o l) :
    o ≤ p.1 ∧ p.1 < o + l.length := by
  induction l generalizing o with
  | nil => cases h
  | cons b rest ih =>
    rw [offsetsFrom, List.mem_cons] at h
    obtain rfl | h := h
    · simp
    · have := ih h
      simp only [List.length_cons]
      omega

theorem exists_mem_offsetsFrom {o k : Nat} {l : List Byte} (h : o ≤ k ∧ k < o + l.length) : ∃ b, (k, b) ∈ offsetsFrom o l := by
  induction l generalizing o with
  | nil =>
    simp only [List.length_nil] at h
    omega
  | cons b rest ih =>
    simp only [List.length_cons] at h
    by_cases hk : k = o
    · exact ⟨b, by simp [offsetsFrom, hk]⟩
    · obtain ⟨b', hb'⟩ := ih (o := o + 1) (by omega)
      exact ⟨b', List.mem_cons_of_mem _ hb'⟩

/-- The hold limit field's copy after a write at its offset `j`, and the limit it gives. -/
theorem State.snoop_holdLimit {w : HostWrite} {j : Nat} {s : State} (h : w.addr.toNat = s.path.controlBase.toNat + j)
    (hj : j < 4) :
    (s.snoop w).path.holdLimit = holdLimitOf (s.snoop w).path.holdCopy ∧
      ∀ i, i < 4 → (s.snoop w).path.holdCopy.extractLsb' (8 * i) 8 =
        if j ≤ i ∧ i < j + w.size.bytes then (hostWriteBytes w).getD (i - j) 0 else s.path.holdCopy.extractLsb' (8 * i) 8 := by
  have hsub : w.addr.toNat - s.path.controlBase.toNat = j := by omega
  have hmask (l : List (Nat × Byte)) (t : State) : (t.snoopMask l).path = t.path := by
    unfold State.snoopMask
    split <;> simp
  obtain ⟨b, hb⟩ := exists_mem_offsetsFrom (o := j) (k := j) (l := hostWriteBytes w)
    (by rw [hostWriteBytes_length]; exact ⟨Nat.le_refl _, Nat.lt_add_of_pos_right (accessSize_bytes_pos _)⟩)
  have hmine : (offsetsFrom j (hostWriteBytes w)).filter (fun p => decide (p.1 < 4)) ≠ [] :=
    List.ne_nil_of_mem (List.mem_filter.mpr ⟨hb, by simpa using hj⟩)
  have hpath : (s.snoop w).path = (s.snoopHoldLimit (offsetsFrom j (hostWriteBytes w))).path := by
    rw [State.snoop, hsub]
    rw [if_pos (by omega), hmask]
  rw [hpath, State.snoopHoldLimit]
  dsimp only
  rw [if_neg hmine]
  refine ⟨rfl, fun i hi => ?_⟩
  rw [extractLsb'_foldl_setWordByte _ _ _ hi, hostWriteBytes_length]

/-- What the end of a step leaves of the hold limit and its copy: what the access that it carries out makes of them. -/
theorem State.settleStep_holdCopy {s : State} {acc : HostAccess} (hport : s.path.port = none)
    (hwait : s.path.waitingAccess = some acc) (hcount : s.path.passedOver < Config.passedOverLimit) :
    ∃ t : State, t.path.controlBase = s.path.controlBase ∧ t.path.holdCopy = s.path.holdCopy ∧
      s.settleStep.path.holdLimit = (t.forwardAccess acc).path.holdLimit ∧
      s.settleStep.path.holdCopy = (t.forwardAccess acc).path.holdCopy := by
  have hwait' : s.beforeGrant.path.waitingAccess = some acc :=
    (PathUnit.waitingAccess_of_held (State.beforeGrant_waiting hwait).1).trans hwait
  obtain ⟨n, hgrant⟩ := State.grantPort_forwards (State.beforeGrant_port_none hport) hwait'
    (by rw [State.beforeGrant_passedOver]; exact hcount)
  have copy_of_plant {a b : State} (h : a.plant = b.plant) : a.path.holdCopy = b.path.holdCopy := congrArg Plant.holdCopy h
  have limit_of_plant {a b : State} (h : a.plant = b.plant) : a.path.holdLimit = b.path.holdLimit :=
    congrArg Plant.holdLimit h
  have base_of_plant {a b : State} (h : a.plant = b.plant) : a.path.controlBase = b.path.controlBase :=
    congrArg Plant.controlBase h
  have hissue (a : State) : a.issueRequests.path.holdCopy = a.path.holdCopy ∧
      a.issueRequests.path.holdLimit = a.path.holdLimit ∧ a.issueRequests.path.controlBase = a.path.controlBase :=
    ⟨rfl, rfl, rfl⟩
  have hadvance : s.teardownAdvance.path.holdCopy = s.path.holdCopy ∧
      s.teardownAdvance.path.controlBase = s.path.controlBase := by
    unfold State.teardownAdvance
    split
    · exact ⟨rfl, rfl⟩
    · split
      · rw [State.teardownRewrite, State.ringReset]
        dsimp only
        rw [State.fullRewrite_path, State.rewrite_path, State.clearNotices_path]
        constructor
        · exact copy_of_plant (a := s.runDueArbiter) (State.runDueArbiter_plant s)
        · exact base_of_plant (a := s.runDueArbiter) (State.runDueArbiter_plant s)
      · exact ⟨rfl, rfl⟩
    · split
      · rw [State.endTeardown, State.askArbiter_path, State.raise_path]
        exact ⟨rfl, rfl⟩
      · exact ⟨rfl, rfl⟩
  refine ⟨s.beforeGrant.setPassedOver n, ?_, ?_, ?_, ?_⟩
  · rw [State.setPassedOver_path, State.beforeGrant, (hissue _).2.2, base_of_plant (State.serviceStreams_plant _),
      base_of_plant (State.runDueArbiter_plant _), hadvance.2]
  · rw [State.setPassedOver_path, State.beforeGrant, (hissue _).1, copy_of_plant (State.serviceStreams_plant _),
      copy_of_plant (State.runDueArbiter_plant _), hadvance.1]
  · rw [State.settleStep_eq, hgrant, (hissue _).2.1, limit_of_plant (State.serviceStreams_plant _)]
  · rw [State.settleStep_eq, hgrant, (hissue _).1, copy_of_plant (State.serviceStreams_plant _)]

/-! ### At rest -/

/-- At rest a write to an offset of the control region is snooped, and its step does no more to the control unit, the
windows and the answer. -/
theorem State.snooped_atRest {c : Instr} {w : HostWrite} {o : Nat} {s : State} (hrest : s.atRest)
    (hc : c.access = some (.write w)) (h : w.addr.toNat = s.path.controlBase.toNat + o) (ho : o < 65536)
    (hpart : partWritten o = false) :
    ∃ t u : State, t.ctl = s.ctl ∧ t.path.controlBase = s.path.controlBase ∧ t.path.windows = s.path.windows ∧
      t.store = s.store ∧ t.scan = s.scan ∧ t.print = s.print ∧ t.streams = s.streams ∧
      exec c s = .next u ∧ u.ctl = (t.snoop w).ctl ∧ u.path.windows = (t.snoop w).path.windows ∧
      u.path.answer = some .written := by
  obtain ⟨t, k, l, l', q, q', ht, hstep⟩ := State.forwarded_atRest hrest (State.sortAccess_of_offset h ho hpart)
  obtain ⟨t₀, ht₀, hctl, hbase, hwindows, hstore, hscan, hprint, hstreams⟩ : ∃ t₀ : State,
      t = t₀.forwardAccess (.write w) ∧ t₀.ctl = s.ctl ∧ t₀.path.controlBase = s.path.controlBase ∧
        t₀.path.windows = s.path.windows ∧ t₀.store = s.store ∧ t₀.scan = s.scan ∧ t₀.print = s.print ∧
        t₀.streams = s.streams :=
    ⟨_, ht, rfl, rfl, rfl, rfl, rfl, rfl, rfl⟩
  rw [State.forwardAccess_snoops (hbase ▸ h) ho] at ht₀
  obtain ⟨t₁, ht₁⟩ : ∃ t₁ : State, t₁ =
      ({ t₀ with mem := Memory.writeBytes t₀.mem w.addr.toNat (hostWriteBytes w) } : State).answerHost .written := ⟨_, rfl⟩
  rw [← ht₁] at ht₀
  obtain ⟨-, hanswer⟩ := State.snoop_held_answer w t₁
  refine ⟨t₁, (s.hostAccess (.write w)).settleStep, ?_, ?_, ?_, ?_, ?_, ?_, ?_, exec_access_next hc s, ?_, ?_, ?_⟩
  · rw [ht₁, ← hctl]
    rfl
  · rw [ht₁, ← hbase]
    rfl
  · rw [ht₁, ← hwindows]
    rfl
  · rw [ht₁, ← hstore]
    rfl
  · rw [ht₁, ← hscan]
    rfl
  · rw [ht₁, ← hprint]
    rfl
  · rw [ht₁, ← hstreams]
    rfl
  · rw [hstep, ht₀]
  · rw [hstep, ht₀]
  · rw [hstep, ht₀]
    exact hanswer.trans (ht₁ ▸ rfl)

theorem State.snoop_ctl_below {w : HostWrite} {j : Nat} {s : State} (h : w.addr.toNat = s.path.controlBase.toNat + j)
    (hj : j < 0x0100) :
    (s.snoop w).ctl = ((s.snoopHoldLimit (offsetsFrom j (hostWriteBytes w))).snoopMask (offsetsFrom j (hostWriteBytes w))).ctl := by
  have hsub : w.addr.toNat - s.path.controlBase.toNat = j := by omega
  rw [State.snoop, hsub]
  rw [if_pos hj]

/-- A write that touches the mask field queues its read, and changes nothing else of the control unit. -/
theorem State.snoop_maskField {w : HostWrite} {j : Nat} {s : State} (h : w.addr.toNat = s.path.controlBase.toNat + j)
    (hj : j < 8) (hend : 4 < j + w.size.bytes) :
    QueueEntry.maskRead ∈ (s.snoop w).ctl.queue ∧ (s.snoop w).ctl = { s.ctl with queue := (s.snoop w).ctl.queue } := by
  obtain ⟨b, hb⟩ := exists_mem_offsetsFrom (o := j) (k := max 4 j) (l := hostWriteBytes w) (by
    rw [hostWriteBytes_length]
    have := accessSize_bytes_pos w.size
    omega)
  have hany : ((offsetsFrom j (hostWriteBytes w)).any fun p => decide (4 ≤ p.1) && decide (p.1 < 8)) = true :=
    List.any_eq_true.mpr ⟨_, hb, by simp; omega⟩
  have hlimit : (s.snoopHoldLimit (offsetsFrom j (hostWriteBytes w))).ctl = s.ctl := by
    unfold State.snoopHoldLimit
    dsimp only
    split <;> rfl
  rw [State.snoop_ctl_below h (by omega), State.snoopMask, if_pos hany]
  refine ⟨State.mem_enqueue _ _, ?_⟩
  rw [State.enqueue_eq, ← hlimit]

theorem State.snoop_tailWord {w : HostWrite} {j : Nat} {s : State} (h : w.addr.toNat = s.path.controlBase.toNat + (0x0400 + j))
    (hj : j < 4) : s.snoop w = s.snoopTail := by
  have hsub : w.addr.toNat - s.path.controlBase.toNat = 0x0400 + j := by omega
  rw [State.snoop, hsub]
  rw [if_neg (by omega), if_neg (by omega), if_pos (by omega)]

theorem State.snoop_acknowledge {w : HostWrite} {j : Nat} {s : State}
    (h : w.addr.toNat = s.path.controlBase.toNat + (0x040C + j)) (hj : j < 4) :
    s.snoop w = s.clearNotices (ackBits (offsetsFrom (0x040C + j) (hostWriteBytes w))) := by
  have hsub : w.addr.toNat - s.path.controlBase.toNat = 0x040C + j := by omega
  rw [State.snoop, hsub]
  rw [if_neg (by omega), if_neg (by omega), if_neg (by omega), if_pos (by omega)]

/-- The flags that the bytes of a value clear, written from byte `m` of the acknowledge word on. -/
theorem getLsbD_foldl_ackByte (n v m : Nat) (x : BitVec 12) {i : Nat} (hi : i < 12) :
    ((offsetsFrom (0x040C + m) (le n v)).foldl (fun x p => x ||| ackByte p.1 p.2) x).getLsbD i =
      (x.getLsbD i || (decide (8 * m ≤ i ∧ i < 8 * m + 8 * n) && v.testBit (i - 8 * m))) := by
  induction n generalizing v m x with
  | zero =>
    have : ¬(8 * m ≤ i ∧ i < 8 * m) := by omega
    simp [le, offsetsFrom, this]
  | succ n ih =>
    have hbyte : (ackByte (0x040C + m) (BitVec.ofNat 8 v)).getLsbD i =
        (decide (8 * m ≤ i ∧ i < 8 * m + 8) && v.testBit (i - 8 * m)) := by
      unfold ackByte
      by_cases hm : m < 4
      · rw [if_pos (by omega), Nat.add_sub_cancel_left]
        by_cases hle : 8 * m ≤ i
        · by_cases hlt : i - 8 * m < 8
          · simp [hi, hle, hlt, show i < 8 * m + 8 by omega, show i - 8 * m < 12 by omega, show ¬i < 8 * m by omega,
              ← BitVec.getLsbD_eq_getElem, BitVec.getLsbD_ofNat]
          · simp [hi, hle, hlt, show ¬i < 8 * m + 8 by omega, BitVec.getLsbD_ofNat]
        · simp [hi, hle, show i < 8 * m by omega]
      · rw [if_neg (by omega)]
        simp [show ¬8 * m ≤ i by omega]
    have hshift : (v / 256).testBit (i - 8 * (m + 1)) = v.testBit (i - 8 * (m + 1) + 8) := by
      rw [show v / 256 = v >>> 8 from (Nat.shiftRight_eq_div_pow v 8).symm, Nat.testBit_shiftRight, Nat.add_comm]
    rw [le, offsetsFrom, List.foldl_cons, Nat.add_assoc, ih, BitVec.getLsbD_or, hbyte, hshift]
    by_cases h1 : 8 * m ≤ i ∧ i < 8 * m + 8
    · have h2 : ¬(8 * (m + 1) ≤ i ∧ i < 8 * (m + 1) + 8 * n) := by omega
      have h3 : 8 * m ≤ i ∧ i < 8 * m + 8 * (n + 1) := by omega
      rw [decide_eq_true h1, decide_eq_false h2, decide_eq_true h3, Bool.false_and, Bool.or_false]
    · rw [decide_eq_false h1, Bool.false_and, Bool.or_false]
      by_cases h2 : 8 * (m + 1) ≤ i ∧ i < 8 * (m + 1) + 8 * n
      · have h3 : 8 * m ≤ i ∧ i < 8 * m + 8 * (n + 1) := by omega
        rw [decide_eq_true h2, decide_eq_true h3, show i - 8 * (m + 1) + 8 = i - 8 * m by omega]
      · have h3 : ¬(8 * m ≤ i ∧ i < 8 * m + 8 * (n + 1)) := by omega
        rw [decide_eq_false h2, decide_eq_false h3, Bool.false_and, Bool.false_and]

/-- The flags that a well-formed write at byte `j` of the acknowledge word clears. -/
theorem ackBits_eq {w : HostWrite} (hw : HostWrite.wellFormed w = true) (j : Nat) :
    ackBits (offsetsFrom (0x040C + j) (hostWriteBytes w)) = (w.data <<< (8 * j)).truncate 12 := by
  have hdata : w.data.toNat < 2 ^ (8 * w.size.bytes) := by
    rw [Nat.pow_mul]
    exact of_decide_eq_true hw
  apply BitVec.eq_of_getLsbD_eq
  intro i hi
  rw [ackBits, hostWriteBytes, getLsbD_foldl_ackByte _ _ _ _ hi, BitVec.truncate_eq_setWidth, BitVec.getLsbD_setWidth,
    BitVec.getLsbD_shiftLeft]
  have hbit : w.data.getLsbD (i - 8 * j) = w.data.toNat.testBit (i - 8 * j) := BitVec.testBit_toNat _ |>.symm
  rw [hbit]
  by_cases hle : 8 * j ≤ i
  · by_cases hlt : i < 8 * j + 8 * w.size.bytes
    · simp [hi, hle, hlt, show i < 32 by omega, show ¬i < 8 * j by omega]
    · have hzero : w.data.toNat.testBit (i - 8 * j) = false :=
        Nat.testBit_lt_two_pow (hdata.trans_le (Nat.pow_le_pow_right (by decide) (by omega)))
      simp [hzero]
  · simp [hle, show i < 8 * j by omega]

/-- Clearing flags changes the notices and the mirror write queue alone. -/
theorem State.clearNotices_ctl (bits : BitVec 12) (s : State) :
    (s.clearNotices bits).ctl =
      { s.ctl with queue := (s.clearNotices bits).ctl.queue, notices := s.ctl.notices &&& ~~~bits } := by
  unfold State.clearNotices
  split
  · next h =>
    have hkeep : s.ctl.notices &&& ~~~bits = s.ctl.notices := by
      apply BitVec.eq_of_getLsbD_eq
      intro i hi
      have hbit := congrArg (fun b => b.getLsbD i) h
      rw [BitVec.getLsbD_and] at hbit
      rw [BitVec.getLsbD_and, BitVec.getLsbD_not]
      cases hn : s.ctl.notices.getLsbD i
      · rfl
      · rw [hn, Bool.true_and] at hbit
        rw [hbit, decide_eq_true hi]
        simp
    rw [hkeep]
  · obtain ⟨q, hq, -⟩ := State.rewrite_form .statusWords
      ({ s with ctl := { s.ctl with notices := s.ctl.notices &&& ~~~bits } } : State)
    rw [hq]
    rfl

/-- Settles O15: what the end of the step carries out, for the hold limit; at rest it does no more than the write. -/
theorem controlWritesAreSnooped : Obligations.ControlWritesAreSnooped := by
  refine ⟨fun w s j hheld hport hcount hj haddr => ?limit, ⟨fun w s j hrest hj hend haddr => ?mask,
    fun w s j hrest hj haddr => ?tail⟩, fun w s j hrest hw hj haddr => ?acknowledge⟩
  case limit =>
    have hsort : s.sortAccess (.write w) = .forward :=
      State.sortAccess_of_offset haddr (by omega) (partWritten_of_lt (by omega))
    have harrives : s.hostAccess (.write w) = s.hold (.write w) none .memoryPort := by
      rw [State.hostAccess_arrives hheld, hsort]
    obtain ⟨-, hanswer, -⟩ := State.settleStep_forwards (s := s.hold (.write w) none .memoryPort) hport (s.hold_waiting _) hcount
    obtain ⟨t, hbase, hcopy, hlimit', hcopy'⟩ :=
      State.settleStep_holdCopy (s := s.hold (.write w) none .memoryPort) hport (s.hold_waiting _) hcount
    have haddr' : w.addr.toNat = t.path.controlBase.toNat + j := by
      rw [hbase]
      exact haddr
    obtain ⟨hlimit, hbytes⟩ := State.snoop_holdLimit (w := w) (j := j)
      (s := ({ t with mem := Memory.writeBytes t.mem w.addr.toNat (hostWriteBytes w) } : State).answerHost .written) haddr' hj
    rw [State.forwardAccess_snoops haddr' (by omega)] at hlimit' hcopy'
    refine ⟨_, by rw [exec_access_next rfl, harrives], hanswer, ?_, fun i hi => ?_⟩
    · rw [hlimit', hcopy', hlimit]
      rfl
    · rw [hcopy', hbytes i hi]
      exact congrArg _ (congrArg _ hcopy)
  case mask =>
    obtain ⟨t, u, hctl, hbase, -, -, -, -, -, hexec, huctl, -, hanswer⟩ :=
      State.snooped_atRest hrest (c := .noticeMaskWrite w) rfl haddr (by omega) (partWritten_of_lt (by omega))
    obtain ⟨hqueued, hkeep⟩ := State.snoop_maskField (by rw [hbase]; exact haddr) hj hend
    exact ⟨u, hexec, huctl ▸ hqueued, by rw [huctl, ← hctl]; exact hkeep, hanswer⟩
  case tail =>
    rw [Nat.add_assoc] at haddr
    obtain ⟨t, u, hctl, hbase, -, -, -, -, -, hexec, huctl, -, hanswer⟩ :=
      State.snooped_atRest hrest (c := .tailWordWrite w) rfl haddr (by omega) (partWritten_of_lt (by omega))
    have hteardown : t.ctl.teardown = none := hctl ▸ hrest.1
    rw [State.snoop_tailWord (by rw [hbase]; exact haddr) hj, State.snoopTail, if_pos hteardown] at huctl
    exact ⟨u, hexec, huctl ▸ State.mem_enqueue _ _, by rw [huctl, ← hctl, State.enqueue_eq], hanswer⟩
  case acknowledge =>
    rw [Nat.add_assoc] at haddr
    have hpart : partWritten (0x040C + j) = false := by
      rw [← Bool.not_eq_true, partWritten_iff]
      omega
    obtain ⟨t, u, hctl, hbase, -, -, -, -, -, hexec, huctl, -, hanswer⟩ :=
      State.snooped_atRest hrest (c := .acknowledgeWrite w) rfl haddr (by omega) hpart
    rw [State.snoop_acknowledge (by rw [hbase]; exact haddr) hj, ackBits_eq hw] at huctl
    exact ⟨u, hexec, by rw [huctl, ← hctl]; exact State.clearNotices_ctl _ _, hanswer⟩

/-! ## The window table (R3 to R6) -/

theorem State.setWindow_window_same (n : Fin 6) (x : WindowShadow) (s : State) : (s.setWindow n x).window n = x := by
  rw [State.window, State.setWindow_path]
  exact Table.get_set_self _ _ _

theorem State.setWindow_window_of_ne {m n : Fin 6} (h : m ≠ n) (x : WindowShadow) (s : State) :
    (s.setWindow n x).window m = s.window m := by
  rw [State.window, State.setWindow_path]
  exact Table.get_set_of_ne _ _ (Ne.symm h)

/-- A window's shadow replaced by itself. -/
theorem State.setWindow_self (n : Fin 6) (s : State) : s.setWindow n (s.window n) = s := by
  simp [State.setWindow, State.rewriteIf, State.window, Table.set_get]

/-- No byte of a write lies in an entry that its range misses. -/
theorem entryBytes_eq_nil {m : Fin 6} {o : Nat} {l : List Byte}
    (h : o + l.length ≤ 0x0100 + 16 * m.val ∨ 0x0110 + 16 * m.val ≤ o) : entryBytes m (offsetsFrom o l) = [] := by
  rw [entryBytes, List.filterMap_eq_nil_iff]
  intro p hp
  have := mem_offsetsFrom hp
  exact if_neg (by omega)

/-- The bytes of a write that lies in an entry, by their offsets in it. -/
theorem entryBytes_offsetsFrom (n : Fin 6) {k : Nat} {l : List Byte} (h : k + l.length ≤ 16) :
    entryBytes n (offsetsFrom (0x0100 + 16 * n.val + k) l) = offsetsFrom k l := by
  induction l generalizing k with
  | nil => rfl
  | cons b rest ih =>
    simp only [List.length_cons] at h
    rw [offsetsFrom, offsetsFrom, entryBytes, List.filterMap_cons_some (b := (k, b)), Nat.add_assoc _ k 1, ← entryBytes,
      ih (by omega)]
    rw [if_pos (by omega), Nat.add_sub_cancel_left]

/-- An entry that a write does not touch keeps its shadow. -/
theorem State.snoopEntry_eq_self {l : List (Nat × Byte)} {m : Fin 6} (h : entryBytes m l = []) (s : State) :
    s.snoopEntry l m = s := by
  simp [State.snoopEntry, h, State.setWindow_self]

/-- A write within one entry reaches that window alone. -/
theorem State.foldl_snoopEntry (n : Fin 6) {k : Nat} {l : List Byte} (h : k + l.length ≤ 16) (s : State) :
    allWindows.foldl (State.snoopEntry (offsetsFrom (0x0100 + 16 * n.val + k) l)) s =
      s.snoopEntry (offsetsFrom (0x0100 + 16 * n.val + k) l) n := by
  have idle : ∀ m : Fin 6, m ≠ n → ∀ t : State, t.snoopEntry (offsetsFrom (0x0100 + 16 * n.val + k) l) m = t := by
    intro m hm t
    have hval : m.val ≠ n.val := fun e => hm (Fin.ext e)
    exact State.snoopEntry_eq_self (entryBytes_eq_nil (by omega)) t
  have keeps : ∀ (ws : List (Fin 6)), n ∉ ws → ∀ t : State,
      ws.foldl (State.snoopEntry (offsetsFrom (0x0100 + 16 * n.val + k) l)) t = t := by
    intro ws
    induction ws with
    | nil => exact fun _ _ => rfl
    | cons m rest ih =>
      intro hn t
      rw [List.mem_cons, not_or] at hn
      rw [List.foldl_cons, idle m (Ne.symm hn.1), ih hn.2]
  obtain ⟨before, after, hsplit⟩ := List.append_of_mem (mem_allWindows n)
  have hnodup : (before ++ n :: after).Nodup := hsplit ▸ (by decide : allWindows.Nodup)
  rw [List.nodup_append, List.nodup_cons] at hnodup
  obtain ⟨-, ⟨hafter, -⟩, hbefore⟩ := hnodup
  rw [hsplit, List.foldl_append, List.foldl_cons, keeps before (fun hn => hbefore n hn n List.mem_cons_self rfl),
    keeps after hafter]

theorem hostWriteBytes_four {w : HostWrite} (h : w.size = .four) : hostWriteBytes w =
    [BitVec.ofNat 8 w.data.toNat, BitVec.ofNat 8 (w.data.toNat / 256), BitVec.ofNat 8 (w.data.toNat / 256 / 256),
      BitVec.ofNat 8 (w.data.toNat / 256 / 256 / 256)] := by
  rw [hostWriteBytes, h]
  rfl

/-- The four bytes of a word, put into a word. -/
theorem setWordByte_four (x y : BitVec 32) :
    setWordByte (setWordByte (setWordByte (setWordByte x 0 (BitVec.ofNat 8 y.toNat)) 1 (BitVec.ofNat 8 (y.toNat / 256))) 2
      (BitVec.ofNat 8 (y.toNat / 256 / 256))) 3 (BitVec.ofNat 8 (y.toNat / 256 / 256 / 256)) = y := by
  apply eq_of_bytes
  intro i hi
  rw [extractLsb'_setWordByte _ _ hi (by decide), extractLsb'_setWordByte _ _ hi (by decide),
    extractLsb'_setWordByte _ _ hi (by decide), extractLsb'_setWordByte _ _ hi (by decide), extractLsb'_eq_ofNat y i]
  obtain rfl | rfl | rfl | rfl : i = 0 ∨ i = 1 ∨ i = 2 ∨ i = 3 := by omega
  all_goals simp [Nat.div_div_eq_div_mul]

/-- A 32-bit write to an entry's first word reaches its staged base. -/
theorem State.snoop_entryBase {n : Fin 6} {w : HostWrite} {s : State} (hsize : w.size = .four)
    (h : w.addr.toNat = s.path.controlBase.toNat + 0x0100 + 16 * n.val) :
    s.snoop w = s.setWindow n { s.window n with stagingBase := w.data } := by
  have hsub : w.addr.toNat - s.path.controlBase.toNat = 0x0100 + 16 * n.val + 0 := by omega
  have hstage : (offsetsFrom 0 (hostWriteBytes w)).foldl (fun x p => WindowShadow.stage x p.1 p.2) (s.window n) =
      { s.window n with stagingBase := w.data } := by
    rw [hostWriteBytes_four hsize]
    exact congrArg (fun b => { s.window n with stagingBase := b }) (setWordByte_four _ w.data)
  have hfirst : ((offsetsFrom 0 (hostWriteBytes w)).any fun p => decide (12 ≤ p.1)) = false := by
    rw [hostWriteBytes_four hsize]
    rfl
  rw [State.snoop, hsub, if_neg (by omega), if_pos (by omega), State.foldl_snoopEntry n (by
    rw [hostWriteBytes_length, hsize]
    decide), State.snoopEntry, entryBytes_offsetsFrom n (by
    rw [hostWriteBytes_length, hsize]
    decide), hstage]
  dsimp only
  rw [hfirst, if_neg (by simp)]

/-- A 32-bit write to an entry's last word reaches its staged size and, but in reset teardown, takes the entry. -/
theorem State.snoop_entrySize {n : Fin 6} {w : HostWrite} {s : State} (hsize : w.size = .four)
    (h : w.addr.toNat = s.path.controlBase.toNat + 0x010C + 16 * n.val) :
    s.snoop w = if s.ctl.teardown = none
      then (s.setWindow n { s.window n with stagingSize := w.data.truncate 8 }).takeWindow n
      else s.setWindow n { s.window n with stagingSize := w.data.truncate 8 } := by
  have hsub : w.addr.toNat - s.path.controlBase.toNat = 0x0100 + 16 * n.val + 12 := by omega
  have hbyte : BitVec.ofNat 8 w.data.toNat = w.data.truncate 8 := BitVec.eq_of_toNat_eq (by simp)
  have hstage : (offsetsFrom 12 (hostWriteBytes w)).foldl (fun x p => WindowShadow.stage x p.1 p.2) (s.window n) =
      { s.window n with stagingSize := w.data.truncate 8 } := by
    rw [hostWriteBytes_four hsize, ← hbyte]
    rfl
  have hlast : ((offsetsFrom 12 (hostWriteBytes w)).any fun p => decide (12 ≤ p.1)) = true := by
    rw [hostWriteBytes_four hsize]
    rfl
  rw [State.snoop, hsub, if_neg (by omega), if_pos (by omega), State.foldl_snoopEntry n (by
    rw [hostWriteBytes_length, hsize]
    decide), State.snoopEntry, entryBytes_offsetsFrom n (by
    rw [hostWriteBytes_length, hsize]
    decide), hstage]
  dsimp only
  rw [hlast]
  simp

/-- The window's base as an entry gives it: its bits below the size cleared. -/
theorem alignBase_toNat (b : BitVec 32) (size : Nat) :
    (alignBase (b.truncate 26) size).toNat = b.toNat % 67108864 / windowBytes size * windowBytes size := by
  rw [alignBase, BitVec.toNat_ofNat, BitVec.truncate_eq_setWidth, BitVec.toNat_setWidth]
  exact Nat.mod_eq_of_lt ((Nat.div_mul_le_self _ _).trans_lt (Nat.mod_lt _ (by decide)))

theorem State.entryRefused_congr {s t : State} (hbase : t.path.controlBase = s.path.controlBase)
    (hengine : t.ctl.engine = s.ctl.engine) (hstore : t.store = s.store) (base : Addr) (size : Nat) :
    t.entryRefused base size = s.entryRefused base size := by
  simp only [State.entryRefused, State.inPartArea, hbase, hengine, hstore]

theorem State.isClosed_congr {s t : State} (hscan : t.scan = s.scan) (hprint : t.print = s.print)
    (hstreams : t.streams = s.streams) (i : StreamId) : t.isClosed i = s.isClosed i := by
  cases i with
  | scan => simp only [State.isClosed, hscan]
  | print => simp only [State.isClosed, hprint]
  | line n => rw [State.isClosed, State.isClosed, State.stream, State.stream, hstreams]

/-- What taking an entry makes of its window: at once active as the engine runs and the stream is CLOSED, and otherwise
pending. -/
theorem State.takeWindow_window (n : Fin 6) (s : State) :
    ∃ e : PendingWindow, e.sizeCode = (s.window n).stagingSize.toNat ∧
      (1 ≤ e.sizeCode → e.sizeCode ≤ 8 →
        e.base.toNat = (s.window n).stagingBase.toNat % 67108864 / windowBytes e.sizeCode * windowBytes e.sizeCode) ∧
      e.refused = s.entryRefused e.base e.sizeCode ∧
      (s.takeWindow n).window n = (if s.ctl.engine = .running ∧ s.isClosed (windowStream n) = true
        then { s.window n with active := e.entry, pending := none, status := e.status }
        else { s.window n with pending := some e, status := if e.refused then .refused else .pending }) ∧
      ∀ m, m ≠ n → (s.takeWindow n).window m = s.window m := by
  refine ⟨s.takenEntry n, rfl, fun h1 h8 => ?_, rfl, ?_, fun m hm => ?_⟩
  · have hbase : (s.takenEntry n).base = alignBase ((s.window n).stagingBase.truncate 26) (s.takenEntry n).sizeCode := if_pos ⟨h1, h8⟩
    rw [hbase, alignBase_toNat]
  · rw [State.takeWindow]
    dsimp only
    split
    · exact State.setWindow_window_same ..
    · exact State.setWindow_window_same ..
  · rw [State.takeWindow]
    dsimp only
    split
    · exact State.setWindow_window_of_ne hm ..
    · exact State.setWindow_window_of_ne hm ..

/-- The same of the size as just staged, in the terms of the state before. -/
theorem State.takeWindow_staged (n : Fin 6) (z : BitVec 32) (s : State) :
    ∃ e : PendingWindow, e.sizeCode = z.toNat % 256 ∧
      (1 ≤ e.sizeCode → e.sizeCode ≤ 8 →
        e.base.toNat = (s.window n).stagingBase.toNat % 67108864 / windowBytes e.sizeCode * windowBytes e.sizeCode) ∧
      e.refused = s.entryRefused e.base e.sizeCode ∧
      ((s.setWindow n { s.window n with stagingSize := z.truncate 8 }).takeWindow n).window n =
        (if s.ctl.engine = .running ∧ s.isClosed (windowStream n) = true
        then { s.window n with stagingSize := z.truncate 8, active := e.entry, pending := none, status := e.status }
        else { s.window n with
          stagingSize := z.truncate 8, pending := some e, status := if e.refused then .refused else .pending }) ∧
      ∀ m, m ≠ n → ((s.setWindow n { s.window n with stagingSize := z.truncate 8 }).takeWindow n).window m = s.window m := by
  obtain ⟨staged, hstaged⟩ : ∃ x : WindowShadow, x = { s.window n with stagingSize := z.truncate 8 } := ⟨_, rfl⟩
  obtain ⟨e, hsize, hbase, hrefused, hsame, hother⟩ := (s.setWindow n staged).takeWindow_window n
  rw [State.setWindow_window_same] at hsize hbase hsame
  rw [State.entryRefused_congr (s := s) (by simp) (by simp) (by simp)] at hrefused
  rw [State.isClosed_congr (s := s) (by simp) (by simp) (by simp), State.setWindow_ctl_engine] at hsame
  rw [← hstaged]
  refine ⟨e, ?_, ?_, hrefused, ?_, fun m hm => ?_⟩
  · rw [hsize, hstaged]
    simp
  · rw [hstaged] at hbase
    exact hbase
  · rw [hsame, hstaged]
  · rw [hother m hm, State.setWindow_window_of_ne hm]

theorem State.atRest.isClosed {s : State} (h : s.atRest) (i : StreamId) : s.isClosed i = true := by
  cases i with
  | scan => exact decide_eq_true h.quiet.scan
  | print => exact decide_eq_true h.quiet.print
  | line n => exact decide_eq_true (h.quiet.streams n)

theorem overlaps_iff {a n b m : Nat} : overlaps a n b m = true ↔ ∃ i, i < n ∧ b ≤ a + i ∧ a + i < b + m := by
  rw [overlaps, Bool.and_eq_true, Bool.and_eq_true, Bool.and_eq_true, decide_eq_true_eq, decide_eq_true_eq,
    decide_eq_true_eq, decide_eq_true_eq]
  constructor
  · rintro ⟨⟨⟨hn, hm⟩, hab⟩, hba⟩
    exact ⟨b - a, by omega, by omega, by omega⟩
  · rintro ⟨i, hi, hb, hm⟩
    exact ⟨⟨⟨by omega, by omega⟩, by omega⟩, by omega⟩

/-- An entry is refused for its size, or for a byte in one of the part's areas. -/
theorem State.entryRefused_iff (base : Addr) (size : Nat) (s : State) :
    s.entryRefused base size = true ↔ 8 < size ∨ ∃ i, i < windowBytes size ∧
      (s.inControl (base.toNat + i) = true ∨ s.inStore (base.toNat + i) = true ∨ s.inLog (base.toNat + i) = true) := by
  rw [State.entryRefused, State.inPartArea, Bool.or_eq_true, Bool.or_eq_true, Bool.and_eq_true, Bool.or_eq_true,
    decide_eq_true_eq, decide_eq_true_eq, overlaps_iff, overlaps_iff, overlaps_iff, Config.controlBytes, Config.blockBytes,
    Config.logBytes]
  simp only [State.inControl_iff, State.inStore_iff, State.inLog_iff]
  constructor
  · rintro ((h | ⟨i, hi, h⟩) | ⟨hrun, ⟨i, hi, h⟩ | ⟨i, hi, h⟩⟩)
    · exact .inl h
    · exact .inr ⟨i, hi, .inl h⟩
    · exact .inr ⟨i, hi, .inr (.inl ⟨hrun, h⟩)⟩
    · exact .inr ⟨i, hi, .inr (.inr ⟨hrun, h⟩)⟩
  · rintro (h | ⟨i, hi, h | ⟨hrun, h⟩ | ⟨hrun, h⟩⟩)
    · exact .inl (.inl h)
    · exact .inl (.inr ⟨i, hi, h⟩)
    · exact .inr ⟨hrun, .inl ⟨i, hi, h⟩⟩
    · exact .inr ⟨hrun, .inr ⟨i, hi, h⟩⟩

/-- A pending entry becomes active: its window, and the stream mirror's rewrite. -/
theorem State.activatePending_of_some {n : Fin 6} {e : PendingWindow} {s : State} (h : (s.window n).pending = some e) :
    s.activatePending n = { s with
      path := { s.path with windows := s.path.windows.set n { s.window n with
        pending := none, active := e.entry, status := e.status } },
      ctl := s.ctl.rewritten (s.activatePending n) s.ctl.notices } := by
  have hactivate : s.activatePending n = s.activate n e := by rw [State.activatePending, h]
  obtain ⟨q, hq, -⟩ := State.setWindow_form n { s.window n with active := e.entry, pending := none, status := e.status } s
  rw [hactivate, State.activate, hq]
  rfl

/-- A forwarded write to the control region is snooped in the state that has it stored. -/
theorem State.forwardAccess_snooped {w : HostWrite} {o : Nat} {s : State}
    (h : w.addr.toNat = s.path.controlBase.toNat + o) (ho : o < 65536) :
    ∃ t : State, s.forwardAccess (.write w) = t.snoop w ∧ t.ctl = s.ctl ∧ t.path.controlBase = s.path.controlBase ∧
      t.path.windows = s.path.windows ∧ t.store = s.store ∧ t.scan = s.scan ∧ t.print = s.print ∧ t.streams = s.streams :=
  ⟨_, State.forwardAccess_snoops h ho, rfl, rfl, rfl, rfl, rfl, rfl, rfl⟩

/-- Settles O16: what the write does at rest, which entries are refused, what carrying the write out does in every state,
and what a stream's CLOSED does to a pending entry. -/
theorem windowEntryIsTaken : Obligations.WindowEntryIsTaken := by
  refine ⟨fun n w s hrest hsize => ⟨fun haddr => ?restBase, fun haddr => ?restSize⟩, fun base size s => s.entryRefused_iff base size,
    fun n w s hsize => ⟨fun haddr => ?base, fun haddr => ⟨fun hteardown => ?staged, fun hteardown => ?taken, fun m hm => ?other⟩⟩,
    fun n s => ⟨fun h => by rw [State.activatePending, h], fun e h => ?pending⟩⟩
  case restBase =>
    rw [Nat.add_assoc] at haddr
    obtain ⟨t, u, -, hbase, hwindows, -, -, -, -, hexec, -, hu, -⟩ :=
      State.snooped_atRest hrest (c := .windowTableWrite w) rfl haddr (by omega) (partWritten_of_lt (by omega))
    rw [← Nat.add_assoc, ← hbase] at haddr
    have hwindow (m : Fin 6) : u.window m = (t.setWindow n { t.window n with stagingBase := w.data }).window m := by
      rw [← State.snoop_entryBase hsize haddr, State.window, hu, State.window]
    have hsame (m : Fin 6) : t.window m = s.window m := by rw [State.window, hwindows, State.window]
    refine ⟨u, hexec, ?_, fun m hm => ?_⟩
    · rw [hwindow, State.setWindow_window_same, hsame]
    · rw [hwindow, State.setWindow_window_of_ne hm, hsame]
  case restSize =>
    rw [Nat.add_assoc] at haddr
    obtain ⟨t, u, hctl, hbase, hwindows, hstore, hscan, hprint, hstreams, hexec, -, hu, -⟩ :=
      State.snooped_atRest hrest (c := .windowTableWrite w) rfl haddr (by omega) (partWritten_of_lt (by omega))
    rw [← Nat.add_assoc, ← hbase] at haddr
    have hteardown : t.ctl.teardown = none := hctl ▸ hrest.1
    have hwindow (m : Fin 6) :
        u.window m = ((t.setWindow n { t.window n with stagingSize := w.data.truncate 8 }).takeWindow n).window m := by
      have hsnoop := State.snoop_entrySize hsize haddr
      rw [if_pos hteardown] at hsnoop
      rw [← hsnoop, State.window, hu, State.window]
    have hsame (m : Fin 6) : t.window m = s.window m := by rw [State.window, hwindows, State.window]
    have hclosed : t.isClosed (windowStream n) = true :=
      (State.isClosed_congr hscan hprint hstreams _).trans (hrest.isClosed _)
    obtain ⟨e, hcode, halign, hrefused, htaken, hother⟩ := t.takeWindow_staged n w.data
    rw [hsame] at halign
    rw [State.entryRefused_congr hbase (congrArg _ hctl) hstore] at hrefused
    refine ⟨u, e, hexec, hcode, halign, hrefused, ?_, fun m hm => ?_⟩
    · rw [hwindow, htaken, hsame, hctl]
      simp only [hclosed, and_true]
    · rw [hwindow, hother m hm, hsame]
  case base =>
    obtain ⟨t, ht, -, hbase, hwindows, -⟩ := State.forwardAccess_snooped (w := w) (s := s) (o := 0x0100 + 16 * n.val) (by omega) (by omega)
    have hsame (m : Fin 6) : t.window m = s.window m := by rw [State.window, hwindows, State.window]
    rw [ht, State.snoop_entryBase hsize (hbase ▸ haddr), State.setWindow_window_same, hsame]
    exact ⟨rfl, fun m hm => by rw [State.setWindow_window_of_ne hm, hsame]⟩
  case staged =>
    obtain ⟨t, ht, hctl, hbase, hwindows, -⟩ :=
      State.forwardAccess_snooped (w := w) (s := s) (o := 0x010C + 16 * n.val) (by omega) (by omega)
    rw [ht, State.snoop_entrySize hsize (hbase ▸ haddr), if_neg (hctl ▸ hteardown), State.setWindow_window_same, State.window,
      hwindows]
    rfl
  case taken =>
    obtain ⟨t, ht, hctl, hbase, hwindows, hstore, hscan, hprint, hstreams⟩ :=

      State.forwardAccess_snooped (w := w) (s := s) (o := 0x010C + 16 * n.val) (by omega) (by omega)
    have hsame : t.window n = s.window n := by rw [State.window, hwindows, State.window]
    obtain ⟨e, hcode, halign, hrefused, htaken, -⟩ := t.takeWindow_staged n w.data
    rw [hsame] at halign
    rw [State.entryRefused_congr hbase (congrArg _ hctl) hstore] at hrefused
    refine ⟨e, hcode, halign, hrefused, ?_⟩
    rw [ht, State.snoop_entrySize hsize (hbase ▸ haddr), if_pos (hctl ▸ hteardown), htaken, hsame, hctl,
      State.isClosed_congr hscan hprint hstreams]
  case other =>
    obtain ⟨t, ht, -, hbase, hwindows, -⟩ :=
      State.forwardAccess_snooped (w := w) (s := s) (o := 0x010C + 16 * n.val) (by omega) (by omega)
    have hsame : t.window m = s.window m := by rw [State.window, hwindows, State.window]
    rw [ht, State.snoop_entrySize hsize (hbase ▸ haddr), ← hsame]
    split
    · obtain ⟨e, -, -, -, -, hother⟩ := t.takeWindow_staged n w.data
      exact hother m hm
    · exact State.setWindow_window_of_ne hm ..
  case pending => exact State.activatePending_of_some h

end Sys2Proof.Machine

/-! PROOF. Opening pages and the scan stream's window (R53, R59, R65, R69, R84, R92). -/

namespace Sys2Proof.Table

variable {α : Type} {n : Nat}

theorem firstFrom_eq_none {p : α → Bool} {l : List α} {k : Nat} (h : ∀ x ∈ l, p x = false) : firstFrom p l k = none := by
  induction l generalizing k with
  | nil => rfl
  | cons x rest ih =>
    rw [firstFrom, h x List.mem_cons_self, if_neg (by decide)]
    exact ih fun y hy => h y (List.mem_cons_of_mem _ hy)

theorem firstFrom_eq_some {p : α → Bool} {l : List α} {k : Nat} (h : ∃ x ∈ l, p x = true) :
    ∃ i, ∃ hi : i < l.length, firstFrom p l k = some (k + i) ∧ p l[i] = true ∧ ∀ j, ∀ hj : j < i, p (l[j]'(hj.trans hi)) = false := by
  induction l generalizing k with
  | nil =>
    obtain ⟨x, hx, -⟩ := h
    cases hx
  | cons x rest ih =>
    rw [firstFrom]
    cases hx : p x with
    | true => exact ⟨0, by simp, by simp, hx, fun j hj => absurd hj (by omega)⟩
    | false =>
      obtain ⟨y, hy, hp⟩ := h
      have hrest : y ∈ rest := by
        rw [List.mem_cons] at hy
        obtain rfl | hy := hy
        · rw [hx] at hp
          cases hp
        · exact hy
      obtain ⟨i, hi, hfirst, htrue, hfalse⟩ := ih (k := k + 1) ⟨y, hrest, hp⟩
      refine ⟨i + 1, by simpa using hi, ?_, by simpa using htrue, fun j hj => ?_⟩
      · rw [if_neg (by decide), hfirst]
        congr 1
        omega
      · cases j with
        | zero => exact hx
        | succ j => simpa using hfalse j (by omega)

theorem first_eq_none {t : Table α n} {p : α → Bool} (h : ∀ i, p (t.get i) = false) : t.first p = none := by
  rw [first, firstFrom_eq_none]
  intro x hx
  obtain ⟨i, hi, rfl⟩ := List.getElem_of_mem hx
  exact h ⟨i, t.size ▸ hi⟩

theorem first_eq_some {t : Table α n} {p : α → Bool} (h : ∃ i, p (t.get i) = true) :
    ∃ i, t.first p = some i ∧ p (t.get i) = true ∧ ∀ j, j < i → p (t.get j) = false := by
  obtain ⟨i, hp⟩ := h
  obtain ⟨k, hk, hfirst, htrue, hfalse⟩ := firstFrom_eq_some (k := 0) ⟨t.get i, List.get_mem _ _, hp⟩
  have hkn : k < n := t.size ▸ hk
  refine ⟨⟨k, hkn⟩, ?_, htrue, fun j hj => hfalse j.val hj⟩
  rw [first, hfirst, Nat.zero_add]
  exact dif_pos hkn

end Sys2Proof.Table

namespace Sys2Proof.Machine

/-! ## Opening a page (R69) -/

/-- The coding unit with a stream's job discarded and its context replaced. -/
def Coder.restart (i : StreamId) (x : LineContext) (c : Coder) : Coder :=
  { c with
    engine := c.engine.map fun j => if j.stream = i then { j with live := false } else j,
    contexts := c.contexts.set i.index x }

/-- A discarded job leaves the coding unit with the context given, whatever had been written to it between. -/
theorem State.discardJob_setCtx (i : StreamId) (x : LineContext) (s : State) :
    (s.discardJob i).setCtx i x = { s with coder := s.coder.restart i x } := by
  rw [State.discardJob]
  cases he : s.coder.engine with
  | none => simp [State.setCtx, Coder.restart, he, Table.set_set]
  | some j =>
    by_cases hj : j.stream = i
    · simp [State.setCtx, Coder.restart, he, hj, Table.set_set]
    · simp [State.setCtx, Coder.restart, he, hj, Table.set_set]

/-- The context of a page that is opened. -/
def LineContext.opened (w : Width) (k : Nat) : LineContext :=
  { isOpen := true, width := w, k := k, reference := List.replicate w.pixels false, repeatRun := 0, job := .none }

theorem State.openCtx_eq (i : StreamId) (w : Width) (k : Nat) (s : State) :
    s.openCtx i w k = { s with coder := s.coder.restart i (LineContext.opened w k) } := State.discardJob_setCtx _ _ _

/-- A taken block leaves the free list, STORELOW raised as it falls to the reserve. -/
theorem State.takeBlock_of_cons {w : Writer} {b : Nat} {rest : List Nat} {s : State} (h : s.store.freeList = b :: rest)
    (hmay : s.mayTakeBlock w = true) :
    ∃ q, s.takeBlock w = some (b, { s with
      store := { s.store with freeList := rest },
      ctl := { s.ctl with
        queue := q,
        notices := if s.freeBlocks = s.store.reserve + 1 then s.ctl.notices ||| Notice.storeLow.bit else s.ctl.notices } }) := by
  obtain ⟨q, hq, -⟩ := State.setFreeList_form rest s
  rw [State.takeBlock, if_pos hmay, h]
  dsimp only
  rw [hq]
  split
  · obtain ⟨q', hq', -⟩ :=
      State.raise_form .storeLow (({ s with store := { s.store with freeList := rest } } : State).withQueue q)
    exact ⟨q', by rw [hq']; rfl⟩
  · exact ⟨q, rfl⟩

theorem State.takeBlock_refused {w : Writer} {s : State} (h : s.freeBlocks = 0 ∨ (w = .scan ∧ s.freeBlocks ≤ s.store.reserve)) :
    s.takeBlock w = none := by
  have hmay : s.mayTakeBlock w = false := by
    obtain h | ⟨rfl, h⟩ := h
    · cases w <;> simp [State.mayTakeBlock, h]
    · simpa [State.mayTakeBlock] using h
  rw [State.takeBlock, hmay, if_neg (by decide)]

theorem State.mayTakeBlock_of_not {w : Writer} {s : State}
    (h : ¬(s.freeBlocks = 0 ∨ (w = .scan ∧ s.freeBlocks ≤ s.store.reserve))) : s.mayTakeBlock w = true := by
  rw [not_or, not_and, Nat.not_le] at h
  obtain ⟨hpos, hreserve⟩ := h
  cases w with
  | scan => exact decide_eq_true (hreserve rfl)
  | line n => exact decide_eq_true (Nat.pos_of_ne_zero hpos)

/-- The record of a page that is opened. -/
def PageRecord.opened (w : Writer) (d : Fin 64) (width : Width) (k position b : Nat) : PageRecord :=
  { PageRecord.empty with
    state := .writing, document := d, position := position, width := width, k := k, chain := [b], writer := w }

/-- An accepted page open. -/
theorem State.openPage_accepted {w : Writer} {d : Fin 64} {width : Width} {k : Nat} {p : Fin 512} {b : Nat} {rest : List Nat}
    {s : State} (hroom : (s.pageList d).length < 200) (hentry : s.freePageEntry = some p) (hfree : (s.page p).state = .free)
    (hlist : s.store.freeList = b :: rest) (hmay : s.mayTakeBlock w = true) :
    ∃ q, s.openPage w d width k = .ok { s with
      store := { s.store with
        freeList := rest, pages := s.store.pages.set p (PageRecord.opened w d width k ((s.pageList d).length + 1) b),
        slots := s.store.slots.set w.index { s.slot w with
          writing := some { page := p, queued := [], check := checkStart }, asked := none } },
      dispatch := { s.dispatch with pageLists := s.dispatch.pageLists.set d (s.pageList d ++ [p]) },
      coder := s.coder.restart w.stream (LineContext.opened width k),
      ctl := { s.ctl with
        queue := q,
        notices := if s.freeBlocks = s.store.reserve + 1 then s.ctl.notices ||| Notice.storeLow.bit else s.ctl.notices } } ∧
      QueueEntry.record (.page p) ∈ q := by
  obtain ⟨q₁, hblock⟩ := State.takeBlock_of_cons hlist hmay
  obtain ⟨s₁, hs₁⟩ : ∃ s₁ : State, s₁ = { s with
      store := { s.store with freeList := rest },
      ctl := { s.ctl with
        queue := q₁,
        notices := if s.freeBlocks = s.store.reserve + 1 then s.ctl.notices ||| Notice.storeLow.bit else s.ctl.notices } } :=
    ⟨_, rfl⟩
  rw [← hs₁] at hblock
  obtain ⟨r, hr⟩ : ∃ r, r = PageRecord.opened w d width k ((s.pageList d).length + 1) b := ⟨_, rfl⟩
  have hnew : r ≠ s₁.page p := by
    intro e
    have hstate : PageState.writing = (s₁.page p).state := by
      rw [← e, hr]
      rfl
    rw [hs₁] at hstate
    exact absurd (hstate.trans hfree) (by decide)
  obtain ⟨q₂, hpage, -, hqueued⟩ := State.setPage_form p r s₁
  obtain ⟨q₃, hpages, hkeeps, -⟩ := State.setPageList_form d (s.pageList d ++ [p])
    (({ s₁ with store := { s₁.store with pages := s₁.store.pages.set p r } } : State).withQueue q₂)
  refine ⟨q₃, ?_, hkeeps _ (hqueued hnew)⟩
  rw [State.openPage, if_neg (by simp only [Config.documentPages]; omega), hentry]
  dsimp only
  rw [hblock]
  dsimp only
  rw [show ({ PageRecord.empty with
    state := .writing, document := d, position := (s.pageList d).length + 1, width := width, k := k, chain := [b],
    writer := w } : PageRecord) = r from hr.symm, hpage, hpages, State.openCtx_eq, hs₁, hr]
  rfl

/-- Settles O20: the open's checks in their order, then `State.openPage_accepted`. -/
theorem pageOpens : Obligations.PageOpens := by
  intro w d width k s
  refine ⟨fun hfull => ?pages, fun hroom => ⟨fun hused => ?entry, fun hfree => ⟨fun hblock => ?block, fun hblock => ?accepted⟩⟩⟩
  case pages => exact if_pos hfull
  case entry =>
    have hentry : s.freePageEntry = none := Table.first_eq_none fun p => decide_eq_false (hused p)
    rw [State.openPage, if_neg (by simp only [Config.documentPages]; omega), hentry]
  all_goals
    obtain ⟨p, hentry, hp, hlow⟩ := Table.first_eq_some (t := s.store.pages) (p := fun r => decide (r.state = .free))
      (hfree.imp fun p h => decide_eq_true h)
  case block =>
    have hentry' : s.freePageEntry = some p := hentry
    rw [State.openPage, if_neg (by simp only [Config.documentPages]; omega), hentry']
    dsimp only
    rw [State.takeBlock_refused hblock]
  case accepted =>
    obtain ⟨b, rest, hlist⟩ : ∃ b rest, s.store.freeList = b :: rest :=
      List.exists_cons_of_ne_nil fun h => hblock (.inl (by rw [State.freeBlocks, h]; rfl))
    obtain ⟨q, hopen, hqueued⟩ := State.openPage_accepted (width := width) (k := k) hroom hentry (of_decide_eq_true hp) hlist
      (State.mayTakeBlock_of_not hblock)
    exact ⟨_, p, b, hopen, of_decide_eq_true hp, fun q hq => of_decide_eq_false (hlow q hq), hlist, rfl, hqueued⟩

/-- An accepted page open acts on the store, the lists, the coding unit, the notices and the mirror write queue alone. -/
theorem State.openPage_ok {w : Writer} {d : Fin 64} {width : Width} {k : Nat} {s t : State}
    (h : s.openPage w d width k = .ok t) :
    ∃ store dispatch coder ctl, t = { s with store := store, dispatch := dispatch, coder := coder, ctl := ctl } ∧
      t.ctx w.stream = LineContext.opened width k := by
  obtain ⟨hpages, hopens⟩ := pageOpens w d width k s
  have hroom : (s.pageList d).length < 200 := by
    by_contra hfull
    rw [hpages (by omega)] at h
    cases h
  obtain ⟨hentry, hopens⟩ := hopens hroom
  have hfree : ∃ p, (s.page p).state = .free := by
    by_contra hused
    rw [hentry (fun p hp => hused ⟨p, hp⟩)] at h
    cases h
  obtain ⟨hblock, hopens⟩ := hopens hfree
  have hmay : ¬(s.freeBlocks = 0 ∨ (w = .scan ∧ s.freeBlocks ≤ s.store.reserve)) := by
    intro hnone
    rw [hblock hnone] at h
    cases h
  obtain ⟨t', p, b, hok, -, -, -, ht, -⟩ := hopens hmay
  rw [hok] at h
  cases h
  refine ⟨_, _, _, _, ht, ?_⟩
  rw [ht]
  exact Table.get_set_self _ _ _

theorem State.openPage_leaves {w : Writer} {d : Fin 64} {width : Width} {k : Nat} {s t : State}
    (h : s.openPage w d width k = .ok t) :
    ∃ store dispatch coder ctl, t = { s with store := store, dispatch := dispatch, coder := coder, ctl := ctl } := by
  obtain ⟨store, dispatch, coder, ctl, ht, -⟩ := State.openPage_ok h
  exact ⟨store, dispatch, coder, ctl, ht⟩

/-- An accepted page open opens its writer's context. -/
theorem State.openPage_ctx {w : Writer} {d : Fin 64} {width : Width} {k : Nat} {s t : State}
    (h : s.openPage w d width k = .ok t) : t.ctx w.stream = LineContext.opened width k := by
  obtain ⟨-, -, -, -, -, hctx⟩ := State.openPage_ok h
  exact hctx

/-! ## The scan stream's window (R84, R92) -/

theorem State.answerHost_eq {a : HostAnswer} {s : State} (h : s.path.held = none) :
    s.answerHost a = { s with path := { s.path with answer := some a } } := by
  rw [State.answerHost, ← h]

/-- An access to the window of a stream that is not CLOSED. -/
theorem State.hostAccess_window {acc : HostAccess} {w : Fin 6} {s : State} (hheld : s.path.held = none)
    (hsort : s.sortAccess acc = .window w) (hopen : s.isClosed (windowStream w) = false) :
    s.hostAccess acc = s.openWindowAccess w acc := by
  rw [State.hostAccess_arrives hheld, hsort]
  dsimp only
  rw [State.windowAccess, hopen, if_neg (by decide)]

theorem exec_scanWindowWrite {w : HostWrite} {s : State} (hheld : s.path.held = none)
    (hsort : s.sortAccess (.write w) = .window 0) (hopen : s.scan.state ≠ .closed) :
    exec (.scanWindowWrite w) s = .next (s.orHold (.write w) 0 .scanFull (s.scanWrite w)).settleStep := by
  rw [exec_access_next rfl, State.hostAccess_window hheld hsort (decide_eq_false hopen)]
  rfl

theorem ScanStream.takeByte_eq (x : ScanStream) (b : Byte) :
    x.takeByte b = { x with bufferA := (x.takeByte b).bufferA, bufferB := (x.takeByte b).bufferB } := by
  unfold ScanStream.takeByte
  dsimp only
  cases (if (x.buffer x.first).isFull = true then x.first.other else x.first) <;> rfl

theorem ScanStream.foldl_takeByte_eq (l : List Byte) (x : ScanStream) :
    l.foldl ScanStream.takeByte x =
      { x with bufferA := (l.foldl ScanStream.takeByte x).bufferA, bufferB := (l.foldl ScanStream.takeByte x).bufferB } := by
  induction l generalizing x with
  | nil => rfl
  | cons b rest ih =>
    rw [List.foldl_cons, ih, ScanStream.takeByte_eq]

theorem RawBuffer.room_of_full {r : RawBuffer} (h : r.isFull = true) (w : Nat) : r.room w = 0 := by
  cases r with
  | empty => cases h
  | filling l => cases h
  | full l => rfl

/-- A buffer that is not FULL takes a byte: it holds one more and has at most one byte less of room. -/
theorem RawBuffer.push_counts {r : RawBuffer} (h : r.isFull = false) (w : Nat) (b : Byte) :
    (r.push w b).held = r.held + 1 ∧ r.room w ≤ (r.push w b).room w + 1 := by
  cases r with
  | empty =>
    simp only [RawBuffer.push, RawBuffer.held, RawBuffer.room, List.length_singleton, true_and]
    omega
  | filling l =>
    rw [RawBuffer.push]
    split
    · simp only [RawBuffer.held, RawBuffer.room, List.length_append, List.length_singleton, true_and]
      omega
    · simp only [RawBuffer.held, RawBuffer.room, List.length_append, List.length_singleton, true_and]
      omega
  | full l => cases h

/-- A byte taken by a stream with room. -/
theorem ScanStream.takeByte_counts {x : ScanStream} (h : 0 < x.room) (b : Byte) :
    (x.takeByte b).heldBytes = x.heldBytes + 1 ∧ x.room ≤ (x.takeByte b).room + 1 := by
  obtain ⟨i, hi, hpush⟩ : ∃ i, (x.buffer i).isFull = false ∧
      x.takeByte b = x.setBuffer i ((x.buffer i).push x.width.rawBytes b) := by
    refine ⟨_, ?_, rfl⟩
    cases hfull : (x.buffer x.first).isFull with
    | false => simpa using hfull
    | true =>
      rw [if_pos rfl, ← Bool.not_eq_true]
      intro hother
      rw [ScanStream.room] at h
      cases hfirst : x.first with
      | a =>
        rw [hfirst] at hfull hother
        rw [RawBuffer.room_of_full (r := x.bufferA) hfull, RawBuffer.room_of_full (r := x.bufferB) hother] at h
        exact absurd h (by decide)
      | b =>
        rw [hfirst] at hfull hother
        rw [RawBuffer.room_of_full (r := x.bufferB) hfull, RawBuffer.room_of_full (r := x.bufferA) hother] at h
        exact absurd h (by decide)
  obtain ⟨hheld, hroom⟩ := RawBuffer.push_counts hi x.width.rawBytes b
  rw [hpush, ScanStream.heldBytes, ScanStream.heldBytes, ScanStream.room, ScanStream.room]
  cases i with
  | a =>
    simp only [ScanStream.buffer] at hheld hroom
    simp only [ScanStream.setBuffer, ScanStream.buffer]
    omega
  | b =>
    simp only [ScanStream.buffer] at hheld hroom
    simp only [ScanStream.setBuffer, ScanStream.buffer]
    omega

theorem ScanStream.foldl_takeByte_held {l : List Byte} {x : ScanStream} (h : l.length ≤ x.room) :
    (l.foldl ScanStream.takeByte x).heldBytes = x.heldBytes + l.length := by
  induction l generalizing x with
  | nil => rfl
  | cons b rest ih =>
    rw [List.length_cons] at h
    obtain ⟨hheld, hroom⟩ := ScanStream.takeByte_counts (x := x) (by omega) b
    rw [List.foldl_cons, ih (by omega), hheld, List.length_cons]
    omega

theorem State.scanWrite_dropped {w : HostWrite} {s : State} (h : s.scan.state = .starved ∨ s.scan.state = .closing) :
    s.scanWrite w = .done ((s.countDropped 0).answerHost .written) := by
  obtain h | h := h <;> simp only [State.scanWrite, h]

/-- A write to an open stream with a page being written is taken when no close waits and there is room. -/
theorem State.scanWrite_open {w : HostWrite} {x : PageInHand} {s : State} (hopen : s.scan.state = .open)
    (hpage : (s.slot .scan).writing = some x) :
    s.scanWrite w = if (s.slot .scan).asked = none ∧ w.size.bytes ≤ s.scan.room
      then .done ((s.setScan ((hostWriteBytes w).foldl ScanStream.takeByte s.scan)).answerHost .written) else .hold := by
  simp only [State.scanWrite, hopen, hpage]
  by_cases hasked : (s.slot .scan).asked = none
  · simp only [hasked, if_true, true_and]
  · simp only [hasked, if_false, false_and]

theorem State.scanWrite_opened {w : HostWrite} {s t : State} (hopen : s.scan.state = .open)
    (hpage : (s.slot .scan).writing = none)
    (hok : s.openPage .scan s.scan.document s.scan.width s.scan.k = .ok t) (hroom : w.size.bytes ≤ t.scan.room) :
    s.scanWrite w = .done ((t.setScan ((hostWriteBytes w).foldl ScanStream.takeByte t.scan)).answerHost .written) := by
  simp only [State.scanWrite, hopen, hpage, hok, hroom, if_true]

theorem State.scanWrite_openRefused {w : HostWrite} {cause : RoomCause} {s : State} (hopen : s.scan.state = .open)
    (hpage : (s.slot .scan).writing = none)
    (herror : s.openPage .scan s.scan.document s.scan.width s.scan.k = .error cause) :
    s.scanWrite w = .done (((s.countDropped 0).answerHost .written).scanOpenRefused cause) := by
  simp only [State.scanWrite, hopen, hpage, herror]

/-- The taken bytes and the answer are all that an accepted write changes. -/
theorem State.scanTaken_form {x : ScanStream} {s : State} (h : s.path.held = none) : ∃ q,
    (s.setScan x).answerHost .written = { s with
      scan := x, path := { s.path with answer := some .written }, ctl := { s.ctl with queue := q } } := by
  obtain ⟨q, hq, -⟩ := State.setScan_form x s
  exact ⟨q, by rw [hq, State.answerHost_eq (by exact h)]; rfl⟩

/-- A write that the scan stream drops. -/
theorem State.scanDropped_form {s : State} (h : s.path.held = none) : ∃ q, (s.countDropped 0).answerHost .written = { s with
    scan := { s.scan with dropped := saturate 65535 s.scan.dropped },
    path := { s.path with answer := some .written }, ctl := { s.ctl with queue := q } } := by
  obtain ⟨q, hq⟩ := State.countDropped_form 0 s
  exact ⟨q, by rw [hq, State.answerHost_eq (by exact h)]; rfl⟩

/-- A refused page open starves a stream that is not CLOSING, and what the buffers held is discarded. -/
theorem State.scanOpenRefused_form {cause : RoomCause} {s : State} (h : s.scan.state ≠ .closing) : ∃ q,
    s.scanOpenRefused cause = { s with
      scan := { s.scan.emptied with state := .starved, cause := cause.starve, trailing := s.scan.heldBytes },
      ctl := { s.ctl with queue := q, notices := s.ctl.notices ||| Notice.stream.bit } } := by
  obtain ⟨x, hx⟩ : ∃ x, x = { s.scan.emptied with trailing := 0 + s.scan.heldBytes } := ⟨_, rfl⟩
  obtain ⟨q₁, hdiscard, -⟩ := State.setScan_form x s
  obtain ⟨q₂, hstarve, -⟩ := State.setScan_form { x with state := .starved, cause := cause.starve }
    (({ s with scan := x } : State).withQueue q₁)
  obtain ⟨q₃, hraise, -⟩ := State.raise_form .stream
    (({ s with scan := { x with state := .starved, cause := cause.starve } } : State).withQueue q₂)
  have hstate : (s.setScan x).scan.state ≠ .closing := by
    rw [State.setScan_scan, hx]
    exact h
  refine ⟨q₃, ?_⟩
  rw [State.scanOpenRefused, State.scanDiscard, ← hx, State.scanStarved, if_neg hstate, hdiscard]
  refine (congrArg (State.raise .stream) hstarve).trans (hraise.trans ?_)
  rw [hx, Nat.zero_add]
  rfl

/-- Settles O19: by the stream's state, `State.scanWrite` in each. -/
theorem scanWindowWrites : Obligations.ScanWindowWrites := by
  refine ⟨fun w s hheld hsort => ⟨fun hstate => ?dropped, fun hstate => ?cutting, fun hstate hpage hfull => ?held,
    fun hstate hpage hroom => ?taken⟩, fun w s hheld hsort hstate hpage => ⟨fun t hok hroom => ?opened, fun cause herror => ?refused⟩⟩
  case dropped =>
    obtain ⟨q, hq⟩ := State.scanDropped_form hheld
    refine ⟨_, exec_scanWindowWrite hheld hsort ?_, ?_⟩
    · obtain h | h := hstate <;> rw [h] <;> decide
    · rw [State.scanWrite_dropped hstate, State.orHold, hq]
      rfl
  case cutting =>
    rw [exec_scanWindowWrite hheld hsort (by rw [hstate]; decide)]
    simp only [State.scanWrite, hstate, State.orHold, State.hold]
  case held =>
    obtain ⟨x, hx⟩ := Option.ne_none_iff_exists'.mp hpage
    have hnot : ¬((s.slot .scan).asked = none ∧ w.size.bytes ≤ s.scan.room) := by
      rintro ⟨hasked, hle⟩
      exact hfull.elim (fun h => absurd hle (Nat.not_le.mpr h)) fun h => h hasked
    rw [exec_scanWindowWrite hheld hsort (by rw [hstate]; decide), State.scanWrite_open hstate hx, if_neg hnot]
    rfl
  case taken =>
    have hasked : (s.slot .scan).asked = none := by
      by_contra h
      exact hpage (if_neg h)
    obtain ⟨x, hx⟩ : ∃ x, (s.slot .scan).writing = some x := by
      rw [WriterSlot.page, if_pos hasked] at hpage
      exact Option.ne_none_iff_exists'.mp hpage
    obtain ⟨y, hy⟩ : ∃ y, y = (hostWriteBytes w).foldl ScanStream.takeByte s.scan := ⟨_, rfl⟩
    obtain ⟨q, hq⟩ := State.scanTaken_form (x := y) hheld
    have hexec := exec_scanWindowWrite hheld hsort (by rw [hstate]; decide)
    rw [State.scanWrite_open hstate hx, if_pos ⟨hasked, hroom⟩, State.orHold, ← hy] at hexec
    have hscan : ((s.setScan y).answerHost .written).scan = y := by rw [hq]
    refine ⟨_, hexec, ?_, by rw [hscan, hy], ?_⟩
    · rw [hscan, hq]
      have hbuffers := ScanStream.foldl_takeByte_eq (hostWriteBytes w) s.scan
      rw [← hy] at hbuffers
      exact congrArg (fun z => ({ s with
        scan := z, path := { s.path with answer := some .written }, ctl := { s.ctl with queue := q } } : State)) hbuffers
    · rw [hscan, hy, ScanStream.foldl_takeByte_held (by rw [hostWriteBytes_length]; exact hroom), hostWriteBytes_length]
  case opened =>
    obtain ⟨store, dispatch, coder, ctl, ht⟩ := State.openPage_leaves hok
    have hscan : t.scan = s.scan := by rw [ht]
    have hpath : t.path = s.path := by rw [ht]
    obtain ⟨q, hq⟩ := State.scanTaken_form (x := (hostWriteBytes w).foldl ScanStream.takeByte s.scan) (s := t) (hpath ▸ hheld)
    have hexec := exec_scanWindowWrite hheld hsort (by rw [hstate]; decide)
    rw [State.scanWrite_opened hstate hpage hok (hscan ▸ hroom), State.orHold, hscan] at hexec
    refine ⟨_, hexec, ?_⟩
    rw [hq, hpath]
    rfl
  case refused =>
    obtain ⟨q, hq⟩ := State.scanDropped_form hheld
    obtain ⟨u, hu⟩ : ∃ u, u = (s.countDropped 0).answerHost .written := ⟨_, rfl⟩
    obtain ⟨q', hq'⟩ := State.scanOpenRefused_form (cause := cause) (s := u) (by
      rw [hu, hq]
      exact hstate ▸ (by decide))
    have hexec := exec_scanWindowWrite hheld hsort (by rw [hstate]; decide)
    rw [State.scanWrite_openRefused hstate hpage herror, State.orHold, ← hu] at hexec
    refine ⟨_, hexec, ?_⟩
    rw [hq', hu, hq]
    rfl

end Sys2Proof.Machine

/-! PROOF. The receive window's writes (R152, R153, R155). -/

namespace Sys2Proof.Machine

/-! ## What the receive side leaves of the path unit -/

theorem State.closePage_path (w : Writer) (flags : CloseFlags) (s : State) : (s.closePage w flags).path = s.path := by
  unfold State.closePage
  split
  · rfl
  · split
    · simp [State.beginClosing]
    · rfl

theorem State.queueJob_path (i : StreamId) (kind : JobKind) (s : State) : (s.queueJob i kind).path = s.path := by
  unfold State.queueJob
  split <;> rfl

theorem State.frameByte_path (n : Fin 4) (b : Byte) (s : State) : (s.frameByte n b).path = s.path := by
  unfold State.frameByte State.receivePageEnd
  dsimp only
  repeat' split
  all_goals simp

theorem State.collectByte_path (n : Fin 4) (b : Byte) (s : State) : (s.collectByte n b).path = s.path := by
  unfold State.collectByte
  split
  · simp
  · exact State.frameByte_path n b s

theorem foldl_path {α : Type} (F : State → α → State) (hF : ∀ s a, (F s a).path = s.path) (l : List α) (s : State) :
    (l.foldl F s).path = s.path := by
  induction l generalizing s with
  | nil => rfl
  | cons a l ih => rw [List.foldl_cons, ih, hF]

theorem State.handLine_path (n : Fin 4) (l : CollectedLine) (s : State) : (s.handLine n l).path = s.path := by
  rw [State.handLine, State.frameCarried, foldl_path _ fun s b => State.collectByte_path n b s, State.modStream_path,
    State.queueJob_path, State.modStream_path]

theorem State.moveLine_path (n : Fin 4) (s : State) : (s.moveLine n).path = s.path := by
  unfold State.moveLine
  dsimp only
  split
  · rfl
  · split
    · split
      · exact State.handLine_path ..
      · split
        · rfl
        · split
          · rfl
          · split
            · next hok =>
              obtain ⟨_, _, _, _, ht⟩ := State.openPage_leaves hok
              rw [State.handLine_path, ht]
            · simp [State.receiveStall]
    · rfl

theorem State.closeReceivePage_path (n : Fin 4) (s : State) : (s.closeReceivePage n).path = s.path := by
  unfold State.closeReceivePage
  dsimp only
  split
  · rw [State.modStream_path, State.closePage_path]
  · rfl

theorem State.receiveByte_path (n : Fin 4) (s : State) (b : Byte) : (s.receiveByte n b).path = s.path := by
  unfold State.receiveByte State.receiveService
  split
  · split
    · rw [State.moveLine_path, State.closeReceivePage_path, State.collectByte_path]
    · exact State.collectByte_path n b s
  · rfl

/-! ## The operations in their cases -/

theorem State.modStream_form (n : Fin 4) (f : LineStream → LineStream) (s : State) :
    ∃ q, s.modStream n f = ({ s with streams := s.streams.set n (f (s.stream n)) } : State).withQueue q := by
  obtain ⟨q, hq, -⟩ := State.setStream_form n (f (s.stream n)) s
  exact ⟨q, hq⟩

/-- A stream replaced changes the streams and the mirror write queue alone. -/
theorem State.setStream_rewritten (n : Fin 4) (x : LineStream) (s : State) : s.setStream n x = { s with
    streams := s.streams.set n x, ctl := s.ctl.rewritten (s.setStream n x) s.ctl.notices } := by
  obtain ⟨q, hq, -⟩ := State.setStream_form n x s
  rw [hq]
  rfl

theorem Collecting.keep_short {c : Collecting} (b : Byte) (hoverflow : c.overflow = false)
    (h : ¬(c.bytes.length + 1 = 1024 ∧ (b ≠ 0xF1 ∨ c.inExtension = true))) : c.keep b = { c with bytes := c.bytes ++ [b] } := by
  rw [Collecting.keep, hoverflow, if_neg (by decide)]
  exact if_neg fun hor => h (hor.elim (fun h => ⟨h.1, .inl h.2⟩) fun h => ⟨h.1, .inr h.2⟩)

theorem Collecting.keep_last {c : Collecting} {b : Byte} (hoverflow : c.overflow = false) (hlength : c.bytes.length + 1 = 1024)
    (h : b ≠ 0xF1 ∨ c.inExtension = true) : c.keep b = { c with bytes := c.bytes ++ [b], lost := true, overflow := true } := by
  rw [Collecting.keep, hoverflow, if_neg (by decide)]
  exact if_pos (h.imp (fun h => ⟨hlength, h⟩) fun h => ⟨hlength, h⟩)

theorem State.frameByte_ordinary {n : Fin 4} {b : Byte} {s : State} (hext : (s.stream n).collecting.inExtension = false)
    (h1 : b ≠ 0xF1) (h2 : b ≠ 0xF2) (h3 : b ≠ 0xF3) :
    s.frameByte n b = s.setStream n { s.stream n with
      collecting := { (s.stream n).collecting.keep b with inExtension := decide (0xC0 ≤ b.toNat ∧ b.toNat ≤ 0xEF) } } := by
  have hlong : isLongRun b = decide (0xC0 ≤ b.toNat ∧ b.toNat ≤ 0xEF) := (Bool.decide_and _ _).symm
  unfold State.frameByte
  dsimp only
  rw [hext, if_neg (by decide), if_neg (show ¬b = codeFill from h2), if_neg (show ¬b = codeEndOfLine from h1),
    if_neg (show ¬b = codeEndOfPage from h3), hlong]

theorem State.frameByte_endOfLine {n : Fin 4} {s : State} (hext : (s.stream n).collecting.inExtension = false) :
    s.frameByte n 0xF1 = s.setStream n { s.stream n with
      collecting := Collecting.empty, waiting := some (((s.stream n).collecting.keep 0xF1).ended false) } := by
  unfold State.frameByte
  dsimp only
  rw [hext, if_neg (by decide), if_neg (by decide), if_pos (by decide)]

theorem State.frameByte_endOfPage {n : Fin 4} {s : State} (hext : (s.stream n).collecting.inExtension = false) :
    s.frameByte n 0xF3 = if (s.stream n).collecting.bytes = []
      then (s.setStream n { s.stream n with collecting := Collecting.empty }).receivePageEnd n
      else s.setStream n { s.stream n with
        collecting := Collecting.empty, waiting := some ((s.stream n).collecting.ended true) } := by
  unfold State.frameByte
  dsimp only
  rw [hext, if_neg (by decide), if_neg (by decide), if_neg (by decide), if_pos (by decide)]

/-- An END-OF-PAGE with no byte collected. -/
theorem State.receivePageEnd_form (n : Fin 4) (s : State) : ∃ q, s.receivePageEnd n =
    ({ s with streams := s.streams.set n { s.stream n with
        pageEnd := (s.stream n).pageEnd || (s.slot (.line n)).page.isSome } } : State).withQueue q := by
  unfold State.receivePageEnd
  cases hpage : (s.slot (.line n)).page.isSome with
  | true =>
    obtain ⟨q, hq⟩ := State.modStream_form n (fun x => { x with pageEnd := true }) s
    exact ⟨q, by rw [if_pos rfl, hq, Bool.or_true]⟩
  | false =>
    refine ⟨s.ctl.queue, ?_⟩
    rw [if_neg (by decide), Bool.or_false]
    have hself : s.streams.set n (s.stream n) = s.streams := Table.set_get _ _
    exact (congrArg (fun l => ({ s with streams := l } : State)) hself).symm

theorem State.closeReceivePage_idle {n : Fin 4} {s : State}
    (h : ¬((s.stream n).pageEnd = true ∧ (s.stream n).checkBuffer = none)) : s.closeReceivePage n = s := if_neg h

theorem State.moveLine_idle {n : Fin 4} {s : State}
    (h : (s.stream n).waiting = none ∨ (s.stream n).checkBuffer ≠ none ∨ 1024 < s.codedQueue (.line n)) : s.moveLine n = s := by
  unfold State.moveLine
  dsimp only
  split
  · rfl
  · next l hl =>
    rw [if_neg]
    rintro ⟨hcheck, hmark⟩
    obtain h | h | h := h
    · rw [h] at hl
      cases hl
    · exact h hcheck
    · exact absurd hmark (Nat.not_le.mpr h)

/-- A page's close begins: the page's record, and its page in hand closing with END-OF-PAGE. -/
theorem State.closePage_form {w : Writer} {x : PageInHand} {flags : CloseFlags} {s : State} (hpage : (s.slot w).page = some x)
    (hclosing : (s.slot w).closing = none) : ∃ q, s.closePage w flags = ({ s with
      store := { s.store with
        pages := s.store.pages.set x.page { s.page x.page with
          closing := true, byteCount := (s.page x.page).byteCount + 1, short := (s.page x.page).short || flags.short,
          truncated := (s.page x.page).truncated || flags.truncated, poor := (s.page x.page).poor || flags.poor },
        slots := s.store.slots.set w.index
          { writing := none, asked := none, closing := some { x with queued := x.queued ++ [0xF3] } } } } : State).withQueue q := by
  obtain ⟨q, hq, -⟩ := State.setPage_form x.page { s.page x.page with
    closing := true, byteCount := (s.page x.page).byteCount + 1, short := (s.page x.page).short || flags.short,
    truncated := (s.page x.page).truncated || flags.truncated, poor := (s.page x.page).poor || flags.poor } s
  refine ⟨q, ?_⟩
  unfold State.closePage
  rw [hpage]
  dsimp only
  rw [if_pos hclosing]
  exact (congrArg (State.setSlot w _) hq).trans rfl

/-- A line handed to a CHECK job, before the carried bytes are taken. -/
theorem State.handLine_form {n : Fin 4} {l : CollectedLine} {s : State} (hopen : (s.ctx (.line n)).isOpen = true)
    (hjob : (s.ctx (.line n)).job = .none) : ∃ q,
    s.handLine n l = (s.stream n).carried.foldl (State.collectByte n) (({ s with
      streams := s.streams.set n { s.stream n with
        waiting := none, carried := [], checkBuffer := some l, pageEnd := (s.stream n).pageEnd || l.endsPage },
      coder := { s.coder with contexts := s.coder.contexts.set (StreamId.index (.line n)) { s.ctx (.line n) with
        job := .queued .check } } } : State).withQueue q) := by
  obtain ⟨q₁, hhand⟩ := State.modStream_form n
    (fun x => { x with waiting := none, checkBuffer := some l, pageEnd := x.pageEnd || l.endsPage }) s
  obtain ⟨y, hy⟩ : ∃ y, y = { s.stream n with
    waiting := none, checkBuffer := some l, pageEnd := (s.stream n).pageEnd || l.endsPage } := ⟨_, rfl⟩
  rw [← hy] at hhand
  have hqueue : (({ s with streams := s.streams.set n y } : State).withQueue q₁).queueJob (.line n) .check =
      (({ s with
        streams := s.streams.set n y,
        coder := { s.coder with contexts := s.coder.contexts.set (StreamId.index (.line n)) { s.ctx (.line n) with
          job := .queued .check } } } : State).withQueue q₁) := if_pos ⟨hopen, hjob⟩
  obtain ⟨u, hu⟩ : ∃ u : State, u = ({ s with
    streams := s.streams.set n y,
    coder := { s.coder with contexts := s.coder.contexts.set (StreamId.index (.line n)) { s.ctx (.line n) with
      job := .queued .check } } } : State).withQueue q₁ := ⟨_, rfl⟩
  have hstream : u.stream n = y := by
    rw [hu]
    exact Table.get_set_self _ _ _
  obtain ⟨q₂, hclear⟩ := State.modStream_form n (fun x => { x with carried := [] }) u
  refine ⟨q₂, ?_⟩
  rw [State.handLine, hhand, hqueue, ← hu, State.frameCarried, hstream, hclear, hstream, hu, hy]
  have hset (z : LineStream) : (s.streams.set n y).set n z = s.streams.set n z := Table.set_set _ _ _ _
  rw [hy] at hset
  exact congrArg (fun l' => List.foldl (State.collectByte n) (State.withQueue q₂ ({ s with
    streams := l',
    coder := { s.coder with contexts := s.coder.contexts.set (StreamId.index (.line n)) { s.ctx (.line n) with
      job := .queued .check } } } : State)) (s.stream n).carried) (hset _)

/-- A refused page open stalls the receive stream. -/
theorem State.receiveStall_form (n : Fin 4) (cause : RoomCause) (s : State) : ∃ q, s.receiveStall n cause = { s with
    streams := s.streams.set n { s.stream n with
      state := .stalled, stall := if cause = .pages then .pages else .store, collecting := Collecting.empty,
      waiting := none, carried := [], checkBuffer := none, pageEnd := false },
    ctl := { s.ctl with queue := q, notices := s.ctl.notices ||| Notice.stream.bit } } := by
  obtain ⟨q₁, hstall⟩ := State.modStream_form n (fun x => { x with
    state := .stalled, stall := if cause = .pages then .pages else .store, collecting := Collecting.empty,
    waiting := none, carried := [], checkBuffer := none, pageEnd := false }) s
  obtain ⟨q₂, hraise, -⟩ := State.raise_form .stream (({ s with streams := s.streams.set n { s.stream n with
    state := .stalled, stall := if cause = .pages then .pages else .store, collecting := Collecting.empty,
    waiting := none, carried := [], checkBuffer := none, pageEnd := false } } : State).withQueue q₁)
  exact ⟨q₂, (congrArg (State.raise .stream) hstall).trans hraise⟩

theorem State.receiveService_open {n : Fin 4} {s : State} (hdir : (s.stream n).direction = .receive)
    (hopen : (s.stream n).state = .open) : s.receiveService n = (s.closeReceivePage n).moveLine n := if_pos ⟨hdir, hopen⟩

/-! ## The window's writes -/

theorem windowStream_line (n : Fin 4) : windowStream (StreamId.index (.line n)) = .line n := by
  revert n
  decide

theorem exec_receiveWindowWrite {n : Fin 4} {w : HostWrite} {s : State} (hheld : s.path.held = none)
    (hsort : s.sortAccess (.write w) = .window (StreamId.index (.line n))) (hdir : (s.stream n).direction = .receive)
    (hopen : (s.stream n).state ≠ .closed) :
    exec (.receiveWindowWrite w) s =
      .next (s.orHold (.write w) (StreamId.index (.line n)) .receiveFull (s.receiveWrite n w)).settleStep := by
  have hclosed : s.isClosed (windowStream (StreamId.index (.line n))) = false := by
    rw [windowStream_line]
    exact decide_eq_false hopen
  rw [exec_access_next rfl, State.hostAccess_window hheld hsort hclosed]
  simp only [State.openWindowAccess, windowStream_line, hdir, if_true]

theorem State.receiveWrite_open {n : Fin 4} {w : HostWrite} {s : State} (hopen : (s.stream n).state = .open) :
    s.receiveWrite n w = if (s.stream n).waiting.isSome = true then .hold
      else .done (((hostWriteBytes w).foldl (State.receiveByte n) s).answerHost .written) := by
  simp only [State.receiveWrite, hopen]

theorem hostWriteBytes_one {w : HostWrite} (h : w.size = .one) : hostWriteBytes w = [w.data.truncate 8] := by
  rw [hostWriteBytes, h]
  exact congrArg (fun b => [b]) (BitVec.eq_of_toNat_eq (by simp))

/-- What an open stream with nothing waiting takes. -/
theorem exec_receiveWindowWrite_taken {n : Fin 4} {w : HostWrite} {s : State} (hheld : s.path.held = none)
    (hsort : s.sortAccess (.write w) = .window (StreamId.index (.line n))) (hdir : (s.stream n).direction = .receive)
    (hopen : (s.stream n).state = .open) (hwaiting : (s.stream n).waiting = none) :
    exec (.receiveWindowWrite w) s =
      .next (((hostWriteBytes w).foldl (State.receiveByte n) s).answerHost .written).settleStep := by
  rw [exec_receiveWindowWrite hheld hsort hdir (by rw [hopen]; decide), State.receiveWrite_open hopen, hwaiting]
  rfl

theorem State.withStream_stream (n : Fin 4) (x : LineStream) (q : List QueueEntry) (s : State) :
    (({ s with streams := s.streams.set n x } : State).withQueue q).stream n = x := Table.get_set_self _ _ _

/-- A byte of a run shorter than 192 joins the line under collection. -/
theorem State.receiveByte_short {n : Fin 4} {b : Byte} {s : State} (hdir : (s.stream n).direction = .receive)
    (hopen : (s.stream n).state = .open) (hwaiting : (s.stream n).waiting = none) (hend : (s.stream n).pageEnd = false)
    (hext : (s.stream n).collecting.inExtension = false) (hoverflow : (s.stream n).collecting.overflow = false)
    (hlength : (s.stream n).collecting.bytes.length + 1 < 1024) (hb : b.toNat < 192) : ∃ q,
    s.receiveByte n b = ({ s with streams := s.streams.set n { s.stream n with
      collecting := { (s.stream n).collecting with bytes := (s.stream n).collecting.bytes ++ [b] } } } : State).withQueue q := by
  have hne (k : Byte) (hk : 192 ≤ k.toNat) : b ≠ k := fun e => by
    rw [e] at hb
    omega
  have hkeep := Collecting.keep_short b hoverflow (by omega)
  obtain ⟨q, hq, -⟩ := State.setStream_form n { s.stream n with
    collecting := { (s.stream n).collecting with bytes := (s.stream n).collecting.bytes ++ [b] } } s
  obtain ⟨x, hx⟩ : ∃ x, x = s.stream n := ⟨_, rfl⟩
  have hcollect : s.collectByte n b = ({ s with streams := s.streams.set n { s.stream n with
      collecting := { (s.stream n).collecting with bytes := (s.stream n).collecting.bytes ++ [b] } } } : State).withQueue q := by
    rw [State.collectByte, hwaiting, if_neg (by decide),
      State.frameByte_ordinary hext (hne _ (by decide)) (hne _ (by decide)) (hne _ (by decide)), hkeep,
      decide_eq_false (by omega), ← hext]
    exact hq
  refine ⟨q, ?_⟩
  rw [State.receiveByte, if_pos hopen, hcollect, State.receiveService_open]
  · rw [State.closeReceivePage_idle, State.moveLine_idle]
    · rw [State.withStream_stream]
      exact .inl hwaiting
    · rw [State.withStream_stream, hend]
      exact fun h => absurd h.1 (by decide)
  · rw [State.withStream_stream]
    exact hdir
  · rw [State.withStream_stream]
    exact hopen

/-- An END-OF-LINE completes the line and hands it to a CHECK job. -/
theorem State.receiveByte_endOfLine {n : Fin 4} {s : State} (hdir : (s.stream n).direction = .receive)
    (hopen : (s.stream n).state = .open) (hwaiting : (s.stream n).waiting = none) (hend : (s.stream n).pageEnd = false)
    (hcarried : (s.stream n).carried = []) (hext : (s.stream n).collecting.inExtension = false)
    (hoverflow : (s.stream n).collecting.overflow = false) (hlength : (s.stream n).collecting.bytes.length + 1 < 1024)
    (hcheck : (s.stream n).checkBuffer = none) (hmark : s.codedQueue (.line n) ≤ 1024) (hpage : (s.slot (.line n)).page ≠ none)
    (hctx : (s.ctx (.line n)).isOpen = true) (hjob : (s.ctx (.line n)).job = .none) : ∃ q,
    s.receiveByte n 0xF1 = ({ s with
      streams := s.streams.set n { s.stream n with
        collecting := Collecting.empty,
        checkBuffer := some { bytes := (s.stream n).collecting.bytes ++ [0xF1], lost := (s.stream n).collecting.lost, endsPage := false } },
      coder := { s.coder with
        contexts := s.coder.contexts.set (StreamId.index (.line n)) { s.ctx (.line n) with job := .queued .check } } } :
      State).withQueue q := by
  obtain ⟨l, hl⟩ : ∃ l : CollectedLine, l =
    { bytes := (s.stream n).collecting.bytes ++ [0xF1], lost := (s.stream n).collecting.lost, endsPage := false } := ⟨_, rfl⟩
  obtain ⟨x, hx⟩ : ∃ x : LineStream, x = { s.stream n with collecting := Collecting.empty, waiting := some l } := ⟨_, rfl⟩
  obtain ⟨q, hq, -⟩ := State.setStream_form n x s
  obtain ⟨u, hu⟩ : ∃ u : State, u = ({ s with streams := s.streams.set n x } : State).withQueue q := ⟨_, rfl⟩
  have hcollect : s.collectByte n 0xF1 = u := by
    rw [State.collectByte, hwaiting, if_neg (by decide), State.frameByte_endOfLine hext,
      Collecting.keep_short 0xF1 hoverflow (by omega), hu, ← hq, hx, hl]
    rfl
  have hstream : u.stream n = x := by rw [hu, State.withStream_stream]
  have hslot : u.slot (.line n) = s.slot (.line n) := by rw [hu]; rfl
  have hctx' : u.ctx (.line n) = s.ctx (.line n) := by rw [hu]; rfl
  obtain ⟨q', hhand⟩ := State.handLine_form (n := n) (l := l) (s := u) (hctx' ▸ hctx) (hctx' ▸ hjob)
  refine ⟨q', ?_⟩
  rw [State.receiveByte, if_pos hopen, hcollect, State.receiveService_open (by rw [hstream, hx]; exact hdir)
    (by rw [hstream, hx]; exact hopen), State.closeReceivePage_idle (by rw [hstream, hx, hend]; exact fun h => absurd h.1 (by decide))]
  have hmove : u.moveLine n = u.handLine n l := by
    unfold State.moveLine
    dsimp only
    have hwait : (u.stream n).waiting = some l := by rw [hstream, hx]
    rw [hwait]
    dsimp only
    rw [if_pos, if_pos]
    · rw [hslot]
      exact Option.isSome_iff_ne_none.mpr hpage
    · exact ⟨by rw [hstream, hx]; exact hcheck, by rw [State.codedQueue, hslot]; exact hmark⟩
  rw [hmove, hhand, hstream, show x.carried = [] by rw [hx]; exact hcarried, List.foldl_nil, hctx']
  have hfinal : ({ x with waiting := none, carried := [], checkBuffer := some l, pageEnd := x.pageEnd || l.endsPage } : LineStream) =
      { s.stream n with collecting := Collecting.empty, checkBuffer := some l } := by
    rw [hx, hl, ← hwaiting, ← hcarried, Bool.or_false]
  rw [hfinal, hu, ← hl]
  have hset (z : LineStream) : (s.streams.set n x).set n z = s.streams.set n z := Table.set_set _ _ _ _
  exact congrArg (fun l => State.withQueue q' ({ s with
    streams := l,
    coder := { s.coder with contexts := s.coder.contexts.set (StreamId.index (.line n)) { s.ctx (.line n) with
      job := .queued .check } } } : State)) (hset _)

/-- The carried bytes and the answer of a taken write of one byte. -/
theorem State.answerHost_withQueue {t : State} {q : List QueueEntry} (h : t.path.held = none) :
    (t.withQueue q).answerHost .written = { t with
      path := { t.path with answer := some .written }, ctl := { t.ctl with queue := q } } := by
  rw [State.answerHost_eq (by exact h)]
  rfl

/-- Settles O21: the write by the state of its stream; a byte's framing by its code; and how a line moves on. -/
theorem receiveWindowWrites : Obligations.ReceiveWindowWrites := by
  refine ⟨fun n w s hheld hsort hdir => ⟨fun hstate => ?stalled, fun hstate hwaiting => ?held, fun hstate hwaiting => ?taken,
    fun hstate hwaiting hend hcarried hext hoverflow hlength hsize => ⟨fun hdata => ?short, fun hdata hcheck hmark hpage hctx hjob => ?line⟩,
    fun hstate hwaiting => exec_receiveWindowWrite_taken hheld hsort hdir hstate hwaiting⟩,
    fun n b s => ⟨fun hopen => if_pos hopen, fun hclosed => if_neg hclosed,
      fun hdir hopen => State.receiveService_open hdir hopen, fun hwaiting => ?framed, fun hwaiting => ?carried, fun hext => ?extension,
      fun hext => ⟨fun hb => ?fill, fun hb => ?endOfLine, fun hb hnil => ?pageEnd, fun hb hsome => ?cutOff, fun h1 h2 h3 => ?ordinary⟩,
      fun hoverflow => if_pos hoverflow, fun hoverflow hlength hb => Collecting.keep_last hoverflow hlength hb,
      fun hoverflow h => Collecting.keep_short b hoverflow h⟩,
    fun n s => ⟨fun h => State.closeReceivePage_idle h, fun h hend hcheck hpage hclosing => ?closes,
      fun h => State.moveLine_idle h, fun l d hwaiting hcheck hmark hwriting hdoc => ⟨fun s1 hok => ?opened, fun cause herror => ?refused⟩⟩⟩
  case stalled =>
    have hcount : s.countDropped (StreamId.index (.line n)) =
        s.modStream n (fun x => { x with dropped := saturate 65535 x.dropped }) := by
      simp only [State.countDropped, windowStream_line]
    obtain ⟨q, hq⟩ := State.modStream_form n (fun x => { x with dropped := saturate 65535 x.dropped }) s
    refine ⟨_, exec_receiveWindowWrite hheld hsort hdir (by rw [hstate]; decide), ?_⟩
    have hwrite : s.receiveWrite n w = .done ((s.countDropped (StreamId.index (.line n))).answerHost .written) := by
      simp only [State.receiveWrite, hstate]
    rw [hwrite, State.orHold, hcount, hq, State.answerHost_withQueue (by exact hheld)]
    rfl
  case held =>
    rw [exec_receiveWindowWrite hheld hsort hdir (by rw [hstate]; decide), State.receiveWrite_open hstate,
      if_pos (Option.isSome_iff_ne_none.mpr hwaiting)]
    rfl
  case taken =>
    refine ⟨_, exec_receiveWindowWrite_taken hheld hsort hdir hstate hwaiting, ?_⟩
    have hpath := foldl_path _ (State.receiveByte_path n) (hostWriteBytes w) s
    rw [State.answerHost_eq (by rw [hpath]; exact hheld), hpath]
  case short =>
    obtain ⟨q, hq⟩ := State.receiveByte_short (b := w.data.truncate 8) hdir hstate hwaiting hend hext hoverflow hlength
      (by simpa using hdata)
    refine ⟨_, exec_receiveWindowWrite_taken hheld hsort hdir hstate hwaiting, ?_⟩
    rw [hostWriteBytes_one hsize, List.foldl_cons, List.foldl_nil, hq, State.answerHost_withQueue (by exact hheld)]
    rfl
  case line =>
    have hbyte : (w.data.truncate 8 : Byte) = 0xF1 := BitVec.eq_of_toNat_eq (by simpa using hdata)
    obtain ⟨q, hq⟩ := State.receiveByte_endOfLine hdir hstate hwaiting hend hcarried hext hoverflow hlength hcheck hmark hpage hctx hjob
    refine ⟨_, exec_receiveWindowWrite_taken hheld hsort hdir hstate hwaiting, ?_⟩
    rw [hostWriteBytes_one hsize, List.foldl_cons, List.foldl_nil, hbyte, hq, State.answerHost_withQueue (by exact hheld)]
    rfl
  case framed => rw [State.collectByte, hwaiting, if_neg (by decide)]
  case carried =>
    rw [State.collectByte, if_pos (Option.isSome_iff_ne_none.mpr hwaiting)]
    exact State.setStream_rewritten ..
  case extension =>
    have hframe : s.frameByte n b = s.setStream n { s.stream n with
        collecting := { (s.stream n).collecting.keep b with inExtension := false } } := by
      unfold State.frameByte
      exact if_pos hext
    rw [hframe]
    exact State.setStream_rewritten ..
  case fill =>
    unfold State.frameByte
    dsimp only
    rw [hext, if_neg (by decide), if_pos (show b = codeFill from hb)]
  case endOfLine =>
    rw [hb, State.frameByte_endOfLine hext]
    exact State.setStream_rewritten ..
  case pageEnd =>
    obtain ⟨q₁, hset, -⟩ := State.setStream_form n { s.stream n with collecting := Collecting.empty } s
    obtain ⟨u, hu⟩ : ∃ u : State, u =
      ({ s with streams := s.streams.set n { s.stream n with collecting := Collecting.empty } } : State).withQueue q₁ := ⟨_, rfl⟩
    obtain ⟨q₂, hend⟩ := State.receivePageEnd_form n u
    have hstream : u.stream n = { s.stream n with collecting := Collecting.empty } := by rw [hu, State.withStream_stream]
    have hslot : u.slot (.line n) = s.slot (.line n) := by rw [hu]; rfl
    rw [hb, State.frameByte_endOfPage hext, if_pos hnil, hset, ← hu, hend, hstream, hslot, hu]
    exact congrArg (fun l => State.withQueue q₂ ({ s with streams := l } : State)) (Table.set_set _ _ _ _)
  case cutOff =>
    rw [hb, State.frameByte_endOfPage hext, if_neg hsome]
    exact State.setStream_rewritten ..
  case ordinary =>
    rw [State.frameByte_ordinary hext h1 h2 h3]
    exact State.setStream_rewritten ..
  case closes =>
    obtain ⟨q₁, hclose⟩ := State.closePage_form (flags := { poor := s.pagePoor n }) hpage hclosing
    have hpoor : s.pagePoor n = (decide ((s.page h.page).lineCount < (s.page h.page).badLines * 16) || (s.stream n).badRunFlag) := by
      rw [State.pagePoor, hpage]
    obtain ⟨u, hu⟩ : ∃ u, u = s.closePage (.line n) { poor := s.pagePoor n } := ⟨_, rfl⟩
    obtain ⟨q₂, hmod⟩ := State.modStream_form n (fun y => { y with pageEnd := false, badRun := 0, badRunFlag := false }) u
    unfold State.closeReceivePage
    dsimp only
    rw [if_pos ⟨hend, hcheck⟩, ← hu, hmod, hu, hclose, hpoor]
    simp only [Bool.or_false, Bool.or_assoc]
    rfl
  case opened =>
    obtain ⟨store, dispatch, coder, ctl, hs1⟩ := State.openPage_leaves hok
    have hstream : s1.stream n = s.stream n := by rw [hs1]; rfl
    have hstreams : s1.streams = s.streams := by rw [hs1]
    obtain ⟨hctx, hjob⟩ : (s1.ctx (.line n)).isOpen = true ∧ (s1.ctx (.line n)).job = .none := by
      have hctx : s1.ctx (.line n) = LineContext.opened (s.stream n).width (s.stream n).k := State.openPage_ctx hok
      rw [hctx]
      exact ⟨rfl, rfl⟩
    obtain ⟨q, hhand⟩ := State.handLine_form (l := l) hctx hjob
    have hmove : s.moveLine n = s1.handLine n l := by
      have hpage : (s.slot (.line n)).page = none := by rw [WriterSlot.page, hwriting, ite_self]
      unfold State.moveLine
      dsimp only
      rw [hwaiting]
      dsimp only
      rw [if_pos ⟨hcheck, hmark⟩, hpage, if_neg (by decide), hwriting, if_neg (by decide), hdoc]
      dsimp only
      rw [hok]
    rw [hmove, hhand, hstream, hstreams]
    exact ⟨_, rfl, rfl⟩
  case refused =>
    obtain ⟨q, hq⟩ := State.receiveStall_form n cause s
    have hmove : s.moveLine n = s.receiveStall n cause := by
      have hpage : (s.slot (.line n)).page = none := by rw [WriterSlot.page, hwriting, ite_self]
      unfold State.moveLine
      dsimp only
      rw [hwaiting]
      dsimp only
      rw [if_pos ⟨hcheck, hmark⟩, hpage, if_neg (by decide), hwriting, if_neg (by decide), hdoc]
      dsimp only
      rw [herror]
    rw [hmove, hq]
    rfl

end Sys2Proof.Machine

/-! PROOF. Window reads (R10, R145 to R150, R165) and the hold limit's expiry (R13). -/

namespace Sys2Proof.Machine

/-! ## The print window's reads (R165) -/

theorem exec_printWindowRead {r : HostRead} {s : State} (hheld : s.path.held = none)
    (hsort : s.sortAccess (.read r) = .window 1) (hopen : s.print.state ≠ .closed) :
    exec (.printWindowRead r) s = .next (s.orHold (.read r) 1 .printNotDecoded (s.printRead r)).settleStep := by
  rw [exec_access_next rfl, State.hostAccess_window hheld hsort (decide_eq_false hopen)]
  rfl

theorem State.printRead_served {r : HostRead} {bytes : List Byte} {s u : State}
    (h : s.servePrint r.size.bytes = some (bytes, u)) : s.printRead r = .done (u.answerHost (.read bytes)) := by
  rw [State.printRead, h]

theorem State.printRead_unserved {r : HostRead} {s : State} (h : s.servePrint r.size.bytes = none) :
    s.printRead r = .hold := by
  rw [State.printRead, h]

theorem State.servePrint_succ {k : Nat} {b : Byte} {s u : State} (h : s.servePrintByte = some (b, u)) :
    s.servePrint (k + 1) = (u.servePrint k).map fun y => (b :: y.1, y.2) := by
  rw [State.servePrint, h]

theorem State.servePrint_succ_none {s : State} (h : s.servePrintByte = none) (k : Nat) : s.servePrint (k + 1) = none := by
  rw [State.servePrint, h]

theorem State.servePrintByte_white {s : State} (h : s.print.state = .pageEnd ∨ s.print.state = .docEnd) :
    s.servePrintByte = some (0, s) := by
  obtain h | h := h <;> simp only [State.servePrintByte, h]

theorem State.servePrintByte_undecoded {s : State} (hopen : s.print.state = .open)
    (h : s.print.waiting = true ∨ s.print.buffer s.print.first = .empty ∨ s.print.buffer s.print.first = .decoding) :
    s.servePrintByte = none := by
  simp only [State.servePrintByte, hopen]
  obtain h | h | h := h
  · rw [h, if_pos rfl]
  · simp only [h, ite_self]
  · simp only [h, ite_self]

theorem PrintStream.buffer_setBuffer (x : PrintStream) (i : BufferId) (b : DecodedBuffer) : (x.setBuffer i b).buffer i = b := by
  cases i <;> rfl

theorem PrintStream.setBuffer_setBuffer (x : PrintStream) (i : BufferId) (b c : DecodedBuffer) :
    (x.setBuffer i b).setBuffer i c = x.setBuffer i c := by
  cases i <;> rfl

theorem PrintStream.setBuffer_buffer (x : PrintStream) (i : BufferId) : x.setBuffer i (x.buffer i) = x := by
  cases i <;> rfl

@[simp] theorem PrintStream.setBuffer_first (x : PrintStream) (i : BufferId) (b : DecodedBuffer) :
    (x.setBuffer i b).first = x.first := by
  cases i <;> rfl

@[simp] theorem PrintStream.setBuffer_state (x : PrintStream) (i : BufferId) (b : DecodedBuffer) :
    (x.setBuffer i b).state = x.state := by
  cases i <;> rfl

@[simp] theorem PrintStream.setBuffer_waiting (x : PrintStream) (i : BufferId) (b : DecodedBuffer) :
    (x.setBuffer i b).waiting = x.waiting := by
  cases i <;> rfl

@[simp] theorem PrintStream.setBuffer_lineCount (x : PrintStream) (i : BufferId) (b : DecodedBuffer) :
    (x.setBuffer i b).lineCount = x.lineCount := by
  cases i <;> rfl

theorem printShown_setBuffer (x : PrintStream) (i : BufferId) (b : DecodedBuffer) : printShown (x.setBuffer i b) = printShown x := by
  cases i <;> rfl

/-- A byte that is not the last of its line. -/
theorem State.servePrintByte_within {b c : Byte} {rest : List Byte} {served : Nat} {s : State} (hopen : s.print.state = .open)
    (hwaiting : s.print.waiting = false) (h : s.print.buffer s.print.first = .ready (b :: c :: rest) served) :
    s.servePrintByte = some (b, { s with print := s.print.setBuffer s.print.first (.ready (c :: rest) (served + 1)) }) := by
  rw [← State.setPrint_of_shown_eq (printShown_setBuffer ..)]
  simp only [State.servePrintByte, hopen, h, hwaiting]
  rfl

/-- The last byte of a line empties its buffer; the last line's enters PAGE-END. -/
theorem State.servePrintByte_last {b : Byte} {served : Nat} {s : State} (hopen : s.print.state = .open)
    (hwaiting : s.print.waiting = false) (h : s.print.buffer s.print.first = .ready [b] served) :
    ∃ q, s.servePrintByte = some (b, { s with
      print := { s.print.setBuffer s.print.first .empty with
        first := s.print.first.other, linesServed := s.print.linesServed + 1,
        state := if s.print.linesServed + 1 = s.print.lineCount then .pageEnd else .open },
      ctl := { s.ctl with
        queue := q,
        notices := if s.print.linesServed + 1 = s.print.lineCount then s.ctl.notices ||| Notice.stream.bit else s.ctl.notices } }) := by
  obtain ⟨y, hy⟩ : ∃ y : PrintStream, y = { s.print.setBuffer s.print.first .empty with
    first := s.print.first.other, linesServed := s.print.linesServed + 1 } := ⟨_, rfl⟩
  have hbyte : s.servePrintByte =
      some (b, if y.linesServed = y.lineCount then (s.setPrint y).printPageEnd else s.setPrint y) := by
    rw [hy]
    simp only [State.servePrintByte, hopen, h, hwaiting]
    rfl
  obtain ⟨q₁, hset, -⟩ := State.setPrint_form y s
  have hcount : y.lineCount = s.print.lineCount := by rw [hy, PrintStream.setBuffer_lineCount]
  have hserved : y.linesServed = s.print.linesServed + 1 := by rw [hy]
  have hstate : y.state = .open := by rw [hy, PrintStream.setBuffer_state, hopen]
  rw [hbyte, hcount, hserved, hset]
  split
  · obtain ⟨q₂, hend, -⟩ :=
      State.setPrint_form { y with state := .pageEnd } (({ s with print := y } : State).withQueue q₁)
    obtain ⟨q₃, hraise, -⟩ :=
      State.raise_form .stream (({ s with print := { y with state := .pageEnd } } : State).withQueue q₂)
    refine ⟨q₃, congrArg (fun t => some (b, t)) ?_⟩
    refine (congrArg (State.raise .stream) hend).trans (hraise.trans ?_)
    rw [hy]
    rfl
  · refine ⟨q₁, congrArg (fun t => some (b, t)) ?_⟩
    rw [← hstate, hy]
    rfl

/-- A read within the ready bytes of one line. -/
theorem State.servePrint_within {k served : Nat} {l : List Byte} {s : State} (hopen : s.print.state = .open)
    (hwaiting : s.print.waiting = false) (h : s.print.buffer s.print.first = .ready l served) (hk : k < l.length) :
    s.servePrint k = some (l.take k,
      { s with print := s.print.setBuffer s.print.first (.ready (l.drop k) (served + k)) }) := by
  induction k generalizing s l served with
  | zero =>
    have hsame : s.print.setBuffer s.print.first (.ready (l.drop 0) (served + 0)) = s.print := by
      rw [List.drop_zero, Nat.add_zero, ← h, PrintStream.setBuffer_buffer]
    rw [hsame]
    rfl
  | succ k ih =>
    obtain _ | ⟨b, _ | ⟨c, rest⟩⟩ := l
    · simp at hk
    · simp at hk
    · obtain ⟨u, hu⟩ : ∃ u : State, u =
        { s with print := s.print.setBuffer s.print.first (.ready (c :: rest) (served + 1)) } := ⟨_, rfl⟩
      have hbyte := State.servePrintByte_within hopen hwaiting h
      rw [← hu] at hbyte
      have hfirst : u.print.first = s.print.first := by rw [hu, PrintStream.setBuffer_first]
      have hrest := ih (s := u) (l := c :: rest) (served := served + 1)
        (by rw [hu, PrintStream.setBuffer_state, hopen]) (by rw [hu, PrintStream.setBuffer_waiting, hwaiting])
        (by rw [hfirst, hu, PrintStream.buffer_setBuffer]) (by simpa using hk)
      rw [State.servePrint_succ hbyte, hrest, hfirst, hu, Option.map_some, PrintStream.setBuffer_setBuffer,
        List.take_succ_cons, List.drop_succ_cons, Nat.add_assoc, Nat.add_comm 1 k]

theorem State.servePrint_white {s : State} (h : s.print.state = .pageEnd ∨ s.print.state = .docEnd) (k : Nat) :
    s.servePrint k = some (List.replicate k 0, s) := by
  induction k with
  | zero => rfl
  | succ k ih =>
    rw [State.servePrint_succ (State.servePrintByte_white h), ih]
    rfl

theorem State.answerHost_printed {a : HostAnswer} {s : State} (h : s.path.held = none) (x : PrintStream) :
    ({ s with print := x } : State).answerHost a = { s with print := x, path := { s.path with answer := some a } } := by
  rw [State.answerHost_eq (by exact h)]

/-- A page of 0 lines is in PAGE-END as it is begun. -/
theorem State.printBegin_empty {p : Fin 512} {s : State} (h : (s.page p).lineCount = 0) : ∃ q, s.printBegin p = { s with
    print := { s.print with
      waiting := false, page := p, width := (s.page p).width, lineCount := 0, byteCount := (s.page p).byteCount,
      state := .pageEnd },
    coder := s.coder.restart .print (LineContext.opened (s.page p).width (s.page p).k),
    ctl := { s.ctl with queue := q, notices := s.ctl.notices ||| Notice.stream.bit } } := by
  obtain ⟨y, hy⟩ : ∃ y : PrintStream, y = { s.print with
    waiting := false, page := p, width := (s.page p).width, lineCount := (s.page p).lineCount,
    byteCount := (s.page p).byteCount } := ⟨_, rfl⟩
  obtain ⟨c, hc⟩ : ∃ c, c = s.coder.restart .print (LineContext.opened (s.page p).width (s.page p).k) := ⟨_, rfl⟩
  obtain ⟨q₁, hset, -⟩ := State.setPrint_form y s
  obtain ⟨q₂, hend, -⟩ := State.setPrint_form { y with state := .pageEnd } (({ s with print := y, coder := c } : State).withQueue q₁)
  obtain ⟨q₃, hraise, -⟩ :=
    State.raise_form .stream (({ s with print := { y with state := .pageEnd }, coder := c } : State).withQueue q₂)
  refine ⟨q₃, ?_⟩
  rw [State.printBegin]
  dsimp only
  rw [if_pos h, ← hy, hset, State.openCtx_eq]
  refine (congrArg (fun z => State.printPageEnd (({ s with print := y, coder := z } : State).withQueue q₁)) hc.symm).trans ?_
  refine (congrArg (State.raise .stream) hend).trans (hraise.trans ?_)
  rw [hy, hc, h]
  rfl

/-- Settles O22: the reads by the stream's state and its first buffer, byte by byte. -/
theorem printWindowReads : Obligations.PrintWindowReads := by
  refine ⟨fun r s hheld hsort => ⟨fun hstate => ?white, fun hstate hnone => ?undecoded,
      fun l served hstate hwaiting hready hlength => ?within, fun b served hstate hwaiting hready hsize => ?last⟩,
    fun r s hheld hsort hopen => ⟨fun bytes u hserved => ?served, fun hnone => ?held⟩,
    fun s => ⟨rfl, fun k hnone => State.servePrint_succ_none hnone k, fun k b u hbyte => State.servePrint_succ hbyte,
      fun hstate => State.servePrintByte_white hstate, fun hstate hnone => State.servePrintByte_undecoded hstate hnone,
      fun b c rest served hstate hwaiting hready => State.servePrintByte_within hstate hwaiting hready,
      fun b served hstate hwaiting hready => ?lastByte⟩, fun p s hlines => ?begin⟩
  case white =>
    have hopen : s.print.state ≠ .closed := by
      obtain h | h := hstate <;> rw [h] <;> decide
    rw [exec_printWindowRead hheld hsort hopen, State.printRead_served (State.servePrint_white hstate _), State.orHold,
      State.answerHost_eq hheld]
  case undecoded =>
    obtain ⟨k, hk⟩ : ∃ k, r.size.bytes = k + 1 := ⟨_, (Nat.succ_pred_eq_of_pos (accessSize_bytes_pos _)).symm⟩
    have hnone' : s.servePrint r.size.bytes = none := by
      rw [hk]
      exact State.servePrint_succ_none (State.servePrintByte_undecoded hstate hnone) k
    rw [exec_printWindowRead hheld hsort (by rw [hstate]; decide), State.printRead_unserved hnone']
    rfl
  case within =>
    rw [exec_printWindowRead hheld hsort (by rw [hstate]; decide),
      State.printRead_served (State.servePrint_within hstate hwaiting hready hlength), State.orHold,
      State.answerHost_printed hheld]
  case last =>
    obtain ⟨q, hq⟩ := State.servePrintByte_last hstate hwaiting hready
    have hbytes : r.size.bytes = 0 + 1 := by rw [hsize]; rfl
    have hone := State.servePrint_succ (k := 0) hq
    rw [← hbytes] at hone
    refine ⟨_, exec_printWindowRead hheld hsort (by rw [hstate]; decide), ?_⟩
    rw [State.printRead_served hone, State.orHold, State.answerHost_eq (by exact hheld)]
    rfl
  case served =>
    rw [exec_printWindowRead hheld hsort hopen, State.printRead_served hserved]
    rfl
  case held =>
    rw [exec_printWindowRead hheld hsort hopen, State.printRead_unserved hnone]
    rfl
  case lastByte =>
    obtain ⟨q, hq⟩ := State.servePrintByte_last hstate hwaiting hready
    exact ⟨_, hq, rfl⟩
  case begin =>
    obtain ⟨q, hq⟩ := State.printBegin_empty hlines
    rw [hq]
    rfl

/-! ## The send window's reads (R10, R145 to R150) -/

theorem exec_sendWindowRead {n : Fin 4} {r : HostRead} {s : State} (hheld : s.path.held = none)
    (hsort : s.sortAccess (.read r) = .window (StreamId.index (.line n))) (hdir : (s.stream n).direction ≠ .receive)
    (hopen : (s.stream n).state ≠ .closed) :
    exec (.sendWindowRead r) s = .next ((s.serveSend n r.size.bytes).2.answerHost
      (.read (s.serveSend n r.size.bytes).1)).settleStep := by
  have hclosed : s.isClosed (windowStream (StreamId.index (.line n))) = false := by
    rw [windowStream_line]
    exact decide_eq_false hopen
  rw [exec_access_next rfl, State.hostAccess_window hheld hsort hclosed]
  simp only [State.openWindowAccess, windowStream_line, if_neg hdir]

theorem State.pageServed_path (n : Fin 4) (s : State) : (s.pageServed n).path = s.path := by
  unfold State.pageServed
  dsimp only
  split <;> simp

theorem State.serveSendByte_path (n : Fin 4) (s : State) : (s.serveSendByte n).2.path = s.path := by
  unfold State.serveSendByte
  dsimp only
  split
  · split
    · dsimp only
      split
      · rw [State.pageServed_path, State.setStream_path]
      · exact State.setStream_path ..
    · exact State.setStream_path ..
  · rfl

theorem State.serveSend_path (n : Fin 4) (k : Nat) (s : State) : (s.serveSend n k).2.path = s.path := by
  induction k generalizing s with
  | zero => rfl
  | succ k ih => exact (ih _).trans (State.serveSendByte_path n s)

theorem State.serveSend_length (n : Fin 4) (k : Nat) (s : State) : (s.serveSend n k).1.length = k := by
  induction k generalizing s with
  | zero => rfl
  | succ k ih => exact congrArg (· + 1) (ih _)

theorem State.serveSendByte_idle {n : Fin 4} {s : State} (h : (s.stream n).serving = false) : s.serveSendByte n = (0xF2, s) := by
  rw [State.serveSendByte]
  rw [h, if_neg (by decide)]
  rfl

theorem State.serveSend_idle {n : Fin 4} {s : State} (h : (s.stream n).serving = false) (k : Nat) :
    s.serveSend n k = (List.replicate k 0xF2, s) := by
  induction k with
  | zero => rfl
  | succ k ih =>
    rw [State.serveSend, State.serveSendByte_idle h]
    dsimp only
    rw [ih]
    rfl

theorem State.serveSendByte_ready {n : Fin 4} {b : Byte} {x : LineStream} {ends : Bool} {s : State}
    (h : (s.stream n).serving = true) (hbyte : sendByte (s.stream n) = some (b, x, ends)) :
    s.serveSendByte n = (b, if ends = true then (s.setStream n x).pageServed n else s.setStream n x) := by
  rw [State.serveSendByte]
  rw [h, if_pos rfl, hbyte]

theorem State.serveSendByte_none {n : Fin 4} {s : State} (h : (s.stream n).serving = true) (hbyte : sendByte (s.stream n) = none) :
    s.serveSendByte n =
      (0xF2, s.setStream n { s.stream n with fillCount := saturate 65535 (s.stream n).fillCount }) := by
  rw [State.serveSendByte]
  rw [h, if_pos rfl, hbyte]
  rfl

theorem sendByte_stored {x : LineStream} {b : Byte} {rest : List Byte} (hrepeat : x.takesRepeat = true)
    (h : x.readAhead = b :: rest) :
    sendByte x =
      if x.inExtension then some (b, x.took rest, false)
      else if isLongRun b then
        if rest = [] then none else some (b, { x.took rest with inExtension := true }, false)
      else if b = codeEndOfPage then some (b, { x with readAhead := [] }, true)
      else if b = codeFill then some (b, { x with readAhead := rest }, false)
      else if b = codeEndOfLine then
        if x.served + 1 < x.minLine then some (codeFill, { x with served := x.served + 1 }, false)
        else some (b, { x with readAhead := rest, served := 0 }, false)
      else some (b, x.took rest, false) := by
  have hstored : sendByte x = sendStored x := by rw [sendByte, hrepeat, if_pos rfl]
  rw [hstored, sendStored]
  split
  · next hnil =>
    rw [h] at hnil
    cases hnil
  · next hcons =>
    rw [h] at hcons
    cases hcons
    rfl

theorem sendByte_expanded {x : LineStream} (h : x.takesRepeat = false) : sendByte x = sendExpanded x := by
  rw [sendByte, h, if_neg (by decide)]

theorem LineStream.took_eq {x : LineStream} (rest : List Byte) (h : x.inExtension = false) :
    x.took rest = { x with readAhead := rest, served := x.served + 1 } := by
  rw [LineStream.took, ← h]

theorem isLongRun_of_range {b : Byte} (h : 0xC0 ≤ b.toNat) (h' : b.toNat ≤ 0xEF) : isLongRun b = true := by
  rw [isLongRun, decide_eq_true h, decide_eq_true h']
  rfl

theorem isLongRun_of_outside {b : Byte} (h : b.toNat < 0xC0 ∨ 0xEF < b.toNat) : isLongRun b = false := by
  rw [isLongRun, Bool.and_eq_false_iff, decide_eq_false_iff_not, decide_eq_false_iff_not]
  omega

/-- A stored byte that is neither a long run's nor a code of its own is served as it is. -/
theorem sendByte_plain {x : LineStream} {b : Byte} {rest : List Byte} (hrepeat : x.takesRepeat = true)
    (h : x.readAhead = b :: rest) (hext : x.inExtension = false)
    (hb : b.toNat < 0xC0 ∨ b = 0xF0 ∨ 0xF4 ≤ b.toNat) :
    sendByte x = some (b, { x with readAhead := rest, served := x.served + 1 }, false) := by
  have hout : b.toNat < 0xC0 ∨ b.toNat = 0xF0 ∨ 0xF4 ≤ b.toNat := hb.imp_right (Or.imp_left fun e => congrArg BitVec.toNat e)
  have hne (k : Byte) (hk : k.toNat = 0xF1 ∨ k.toNat = 0xF2 ∨ k.toNat = 0xF3) : b ≠ k := by
    rintro rfl
    omega
  rw [sendByte_stored hrepeat h, hext, if_neg (by decide), isLongRun_of_outside (by omega), if_neg (by decide),
    if_neg (hne codeEndOfPage (by decide)), if_neg (hne codeFill (by decide)), if_neg (hne codeEndOfLine (by decide)),
    LineStream.took_eq rest hext, hext]

theorem lineStreamShown_read (x : LineStream) (rest : List Byte) (k : Nat) :
    lineStreamShown { x with readAhead := rest, served := k } = lineStreamShown x := rfl

theorem nextStored_endOfPage {x : LineStream} (h : x.nextStored ≠ none) (l : List Byte) : frame x.readAhead ≠ .pageEnd [] l := by
  intro e
  rw [LineStream.nextStored, e] at h
  exact h rfl

/-- The page's last byte served leaves an OPEN stream in PAGE-END, and a DRAINING one ENDED with STREAM raised. -/
theorem State.pageServed_open {n : Fin 4} {x : LineStream} {s : State} (h : x.state ≠ .draining) : ∃ q,
    (s.setStream n x).pageServed n =
      ({ s with streams := s.streams.set n { x with state := .pageEnd } } : State).withQueue q := by
  obtain ⟨q₁, hset, -⟩ := State.setStream_form n x s
  obtain ⟨u, hu⟩ : ∃ u : State, u = ({ s with streams := s.streams.set n x } : State).withQueue q₁ := ⟨_, rfl⟩
  have hstream : u.stream n = x := by rw [hu, State.withStream_stream]
  obtain ⟨q₂, hend, -⟩ := State.setStream_form n { x with state := .pageEnd } u
  refine ⟨q₂, ?_⟩
  rw [hset, ← hu, State.pageServed]
  rw [hstream, if_neg h, hend, hu]
  exact congrArg (fun l => State.withQueue q₂ ({ s with streams := l } : State)) (Table.set_set _ _ _ _)

theorem State.pageServed_draining {n : Fin 4} {x : LineStream} {s : State} (h : x.state = .draining) : ∃ q,
    (s.setStream n x).pageServed n = { s with
      streams := s.streams.set n { x with drain := .ended },
      ctl := { s.ctl with queue := q, notices := s.ctl.notices ||| Notice.stream.bit } } := by
  obtain ⟨q₁, hset, -⟩ := State.setStream_form n x s
  obtain ⟨u, hu⟩ : ∃ u : State, u = ({ s with streams := s.streams.set n x } : State).withQueue q₁ := ⟨_, rfl⟩
  have hstream : u.stream n = x := by rw [hu, State.withStream_stream]
  obtain ⟨q₂, hend, -⟩ := State.setStream_form n { x with drain := .ended } u
  obtain ⟨q₃, hraise, -⟩ :=
    State.raise_form .stream (({ u with streams := u.streams.set n { x with drain := .ended } } : State).withQueue q₂)
  refine ⟨q₃, ?_⟩
  rw [hset, ← hu, State.pageServed]
  rw [hstream, if_pos h, hend, hraise, hu]
  exact congrArg (fun l => ({ s with
    streams := l, ctl := { s.ctl with queue := q₃, notices := s.ctl.notices ||| Notice.stream.bit } } : State))
    (Table.set_set _ _ _ _)

theorem sendStored_state {x y : LineStream} {b : Byte} {ends : Bool} (h : sendStored x = some (b, y, ends)) : y.state = x.state := by
  unfold sendStored at h
  split at h
  · cases h
  · repeat' split at h
    all_goals
      cases h
    all_goals rfl

theorem sendExpanded_state {x y : LineStream} {b : Byte} {ends : Bool} (h : sendExpanded x = some (b, y, ends)) :
    y.state = x.state := by
  unfold sendExpanded at h
  repeat' split at h
  all_goals
    cases h
  all_goals rfl

theorem sendByte_state {x y : LineStream} {b : Byte} {ends : Bool} (h : sendByte x = some (b, y, ends)) : y.state = x.state := by
  unfold sendByte at h
  split at h
  · exact sendStored_state h
  · exact sendExpanded_state h

/-- Settles O23: the read's frame, then the served byte by the stored bytes or the expanded lines at the head. -/
theorem sendWindowReads : Obligations.SendWindowReads := by
  refine ⟨fun n r s hheld hsort hdir hopen => ?read, fun n s hserving => ⟨fun hnone => ?fill, fun b rest hrepeat hahead hext hb => ?run⟩,
    fun x b rest hrepeat => ⟨fun hnil => ?noneStored, fun hahead hext => ?extension,
      fun hahead hext => ⟨fun hlow hhigh hnil => ?cut, fun hlow hhigh hmore => ?long, fun hb => sendByte_plain hrepeat hahead hext hb,
        fun hb hshort => ?pad, fun hb hlong => ?endOfLine, fun hb => ?storedFill, fun hb => ?endOfPage⟩⟩,
    fun x b c rest k more hrepeat => ⟨fun hready => ?expanded, fun hready => ?lastExpanded, fun hready hahead => ?pageEnd,
      fun hready hnone => ?noneReady⟩,
    fun n s hserving => ⟨fun b y hbyte => ?byte, fun b y hbyte => ⟨?endByte, fun hopen => ?endOpen, fun hdraining => ?endDraining⟩,
      fun k => ⟨rfl, rfl⟩, fun hrepeat hstored hctx hjob => ?service⟩⟩
  case read =>
    refine ⟨_, exec_sendWindowRead hheld hsort hdir hopen, ?_, State.serveSend_length .., fun hidle => State.serveSend_idle hidle _⟩
    rw [State.answerHost_eq (by rw [State.serveSend_path]; exact hheld)]
  case fill =>
    rw [State.serveSendByte_none hserving hnone]
    exact ⟨rfl, State.setStream_rewritten ..⟩
  case run =>
    rw [State.serveSendByte_ready hserving (sendByte_plain hrepeat hahead hext (.inl hb))]
    exact ⟨rfl, State.setStream_of_shown_eq (lineStreamShown_read ..)⟩
  case noneStored => rw [sendByte, hrepeat, if_pos rfl, sendStored, hnil]
  case extension =>
    rw [sendByte_stored hrepeat hahead, hext, if_pos rfl]
    rfl
  case cut =>
    rw [sendByte_stored hrepeat hahead, hext, if_neg (by decide), isLongRun_of_range hlow hhigh, if_pos rfl, if_pos hnil]
  case long =>
    rw [sendByte_stored hrepeat hahead, hext, if_neg (by decide), isLongRun_of_range hlow hhigh, if_pos rfl, if_neg hmore]
    rfl
  case pad =>
    subst hb
    rw [sendByte_stored hrepeat hahead, hext, if_neg (by decide), if_neg (by decide), if_neg (by decide), if_neg (by decide),
      if_pos (by decide), if_pos hshort]
    rfl
  case endOfLine =>
    subst hb
    rw [sendByte_stored hrepeat hahead, hext, if_neg (by decide), if_neg (by decide), if_neg (by decide), if_neg (by decide),
      if_pos (by decide), if_neg (Nat.not_lt.mpr hlong)]
  case storedFill =>
    subst hb
    rw [sendByte_stored hrepeat hahead, hext, if_neg (by decide), if_neg (by decide), if_neg (by decide), if_pos (by decide)]
  case endOfPage =>
    subst hb
    rw [sendByte_stored hrepeat hahead, hext, if_neg (by decide), if_neg (by decide), if_pos (by decide)]
  case expanded => rw [sendByte_expanded hrepeat, sendExpanded, hready]
  case lastExpanded => rw [sendByte_expanded hrepeat, sendExpanded, hready]
  case pageEnd =>
    have hframe : ∃ l, frame x.readAhead = .pageEnd [] l := by
      rw [hahead]
      cases rest with
      | nil => exact ⟨_, rfl⟩
      | cons e rest => exact ⟨_, rfl⟩
    obtain ⟨l, hl⟩ := hframe
    rw [sendByte_expanded hrepeat, sendExpanded, hready]
    dsimp only
    rw [hl]
    rfl
  case noneReady =>
    rw [sendByte_expanded hrepeat, sendExpanded, hready]
    dsimp only
    split
    · next l hl =>
      obtain hnil | hstored := hnone
      · rw [hnil] at hl
        cases hl
      · exact absurd hl (nextStored_endOfPage hstored l)
    · rfl
  case byte =>
    rw [State.serveSendByte_ready hserving hbyte]
    exact ⟨rfl, State.setStream_rewritten ..⟩
  case endByte => rw [State.serveSendByte_ready hserving hbyte]
  case endOpen =>
    have hstate : y.state ≠ .draining := by
      rw [sendByte_state hbyte, hopen]
      decide
    obtain ⟨q, hq⟩ := State.pageServed_open (n := n) (s := s) hstate
    rw [State.serveSendByte_ready hserving hbyte, if_pos rfl, hq]
    rfl
  case endDraining =>
    obtain ⟨q, hq⟩ := State.pageServed_draining (n := n) (s := s) ((sendByte_state hbyte).trans hdraining)
    rw [State.serveSendByte_ready hserving hbyte, if_pos rfl, hq]
    rfl
  case service =>
    rw [State.sendService]
    dsimp only
    rw [if_pos ⟨hserving, hrepeat, Option.isSome_iff_ne_none.mpr hstored⟩]
    exact if_pos ⟨hctx, hjob⟩

/-! ## The hold limit's expiry (R13) -/

/-- The expiry is counted by the window's stream alone. -/
theorem State.countExpiry_form (w : Fin 6) (s : State) : ∃ q scan print streams, s.countExpiry w =
    ({ s with scan := scan, print := print, streams := streams } : State).withQueue q ∧
    scan = { s.scan with
      expiries := if windowStream w = .scan then saturate 65535 s.scan.expiries else s.scan.expiries } ∧
    print = { s.print with
      expiries := if windowStream w = .print then saturate 65535 s.print.expiries else s.print.expiries } ∧
    ∀ n, streams.get n = { s.stream n with
      expiries := if windowStream w = .line n then saturate 65535 (s.stream n).expiries else (s.stream n).expiries } := by
  unfold State.countExpiry
  split
  · next h =>
    obtain ⟨q, hq, -⟩ := State.setScan_form { s.scan with expiries := saturate 65535 s.scan.expiries } s
    exact ⟨q, _, s.print, s.streams, hq, by rw [h]; rfl, by rw [h]; rfl, fun n => by rw [h]; rfl⟩
  · next h =>
    obtain ⟨q, hq, -⟩ := State.setPrint_form { s.print with expiries := saturate 65535 s.print.expiries } s
    exact ⟨q, s.scan, _, s.streams, hq, by rw [h]; rfl, by rw [h]; rfl, fun n => by rw [h]; rfl⟩
  · next m h =>
    obtain ⟨q, hq⟩ := State.modStream_form m (fun x => { x with expiries := saturate 65535 x.expiries }) s
    refine ⟨q, s.scan, s.print, _, hq, by rw [h]; rfl, by rw [h]; rfl, fun n => ?_⟩
    rw [h, Table.get_set]
    by_cases hmn : m = n
    · subst hmn
      rw [if_pos rfl, if_pos rfl]
    · rw [if_neg hmn, if_neg (by simpa using hmn)]
      rfl

/-- What the expiry does to the line under collection of the window's stream. -/
theorem State.expireReceive_form (w : Fin 6) (s : State) : ∃ q streams,
    s.expireReceive w = ({ s with streams := streams } : State).withQueue q ∧
    ∀ n, streams.get n = { s.stream n with
      collecting := { (s.stream n).collecting with
        lost := (s.stream n).collecting.lost || decide (windowStream w = .line n) } } := by
  unfold State.expireReceive
  split
  · next m h =>
    obtain ⟨q, hq⟩ := State.modStream_form m (fun x => { x with collecting := { x.collecting with lost := true } }) s
    refine ⟨q, _, hq, fun n => ?_⟩
    rw [h, Table.get_set]
    by_cases hmn : m = n
    · subst hmn
      rw [if_pos rfl, decide_eq_true rfl, Bool.or_true]
    · rw [if_neg hmn, decide_eq_false (by simpa using hmn), Bool.or_false]
      rfl
  · next h =>
    refine ⟨s.ctl.queue, s.streams, rfl, fun n => ?_⟩
    rw [decide_eq_false (h n), Bool.or_false]
    rfl

/-- The expiry of a held access, up to its answer. -/
theorem State.expired_form (h : HeldAccess) (w : Fin 6) (s : State) : ∃ q scan print streams,
    ((s.reach (h.start + h.limit)).countExpiry w).raise .hold = { s with
      now := max s.now (h.start + h.limit), scan := scan, print := print, streams := streams,
      ctl := { s.ctl with queue := q, notices := s.ctl.notices ||| Notice.hold.bit } } ∧
    scan = { s.scan with
      expiries := if windowStream w = .scan then saturate 65535 s.scan.expiries else s.scan.expiries } ∧
    print = { s.print with
      expiries := if windowStream w = .print then saturate 65535 s.print.expiries else s.print.expiries } ∧
    ∀ n, streams.get n = { s.stream n with
      expiries := if windowStream w = .line n then saturate 65535 (s.stream n).expiries else (s.stream n).expiries } := by
  obtain ⟨q₁, scan, print, streams, hcount, hscan, hprint, hstreams⟩ := (s.reach (h.start + h.limit)).countExpiry_form w
  obtain ⟨q₂, hraise, -⟩ := State.raise_form .hold
    (({ s.reach (h.start + h.limit) with scan := scan, print := print, streams := streams } : State).withQueue q₁)
  exact ⟨q₂, scan, print, streams, (congrArg _ hcount).trans hraise, hscan, hprint, hstreams⟩

/-- Settles O24: by the held access, a read or a write, and for a write by the reason of the hold. -/
theorem holdExpires : Obligations.HoldExpires := by
  intro h w s hheld hwindow
  obtain ⟨q, scan, print, streams, hform, hscan, hprint, hstreams⟩ := s.expired_form h w
  obtain ⟨u, hu⟩ : ∃ u, u = ((s.reach (h.start + h.limit)).countExpiry w).raise .hold := ⟨_, rfl⟩
  have hrow : exec .holdExpiry s = .next s.holdExpired.settleStep := rfl
  rw [← hu] at hform
  cases haccess : h.access with
  | read r =>
    have hexec : exec .holdExpiry s = .next (u.voidRead r).settleStep := by
      rw [hrow, State.holdExpired, hheld]
      dsimp only
      rw [hwindow, haccess, hu]
    refine ⟨_, hexec, ?_, ?_, ?_, fun n => ?_⟩
    · rw [hform]
      rfl
    · rw [hform]
      exact hscan
    · rw [hform]
      exact hprint
    · rw [hform]
      refine (hstreams n).trans ?_
      simp [isWrite]
  | write x =>
    have hexec : exec .holdExpiry s =
        .next ((if h.reason = .receiveFull then u.expireReceive w else u).answerHost .written).settleStep := by
      rw [hrow, State.holdExpired, hheld]
      dsimp only
      rw [hwindow, haccess, hu]
    by_cases hreason : h.reason = .receiveFull
    · rw [if_pos hreason] at hexec
      obtain ⟨q', streams', hexpire, hstreams'⟩ := u.expireReceive_form w
      have hstream (n : Fin 4) : u.stream n = streams.get n := by rw [hform]; rfl
      refine ⟨_, hexec, ?_, ?_, ?_, fun n => ?_⟩
      · rw [hexpire, hform]
        rfl
      · rw [hexpire, hform]
        exact hscan
      · rw [hexpire, hform]
        exact hprint
      · rw [hexpire]
        refine (hstreams' n).trans ?_
        rw [hstream, hstreams n, hreason]
        simp [isWrite]
    · rw [if_neg hreason] at hexec
      refine ⟨_, hexec, ?_, ?_, ?_, fun n => ?_⟩
      · rw [hform]
        rfl
      · rw [hform]
        exact hscan
      · rw [hform]
        exact hprint
      · rw [hform]
        refine (hstreams n).trans ?_
        simp [isWrite, hreason]

end Sys2Proof.Machine

/-! PROOF. The control unit's completions and the command ring's slots (R22, R25 to R28, R200, R201). -/

namespace Sys2Proof.Machine

/-! ## What every completion does -/

/-- The grant of the free port to the next requester. -/
theorem State.grantPort_of_grantsNext {q : Requester} {s : State} (h : s.grantsNext q) : s.grantPort = s.grantRequest q := by
  obtain ⟨hport, hhead, hhost⟩ := h
  obtain ⟨rest, hrequests⟩ : ∃ rest, s.path.requests = q :: rest := by
    cases hl : s.path.requests with
    | nil =>
      rw [hl] at hhead
      cases hhead
    | cons p rest =>
      rw [hl] at hhead
      cases hhead
      exact ⟨rest, rfl⟩
  rw [State.grantPort, hport]
  dsimp only
  rw [hrequests]
  cases hwait : s.path.waitingAccess with
  | none => rfl
  | some acc =>
    obtain h | h := hhost
    · rw [hwait] at h
      cases h
    · dsimp only
      rw [if_neg (Nat.not_lt.mpr h)]

theorem State.grantPort_control {e : QueueEntry} {rest : List QueueEntry} {s : State} (h : s.grantsNext .control)
    (hqueue : s.ctl.queue = e :: rest) : s.grantPort = s.grantControl e rest := by
  rw [State.grantPort_of_grantsNext h, State.grantRequest, hqueue]

/-! ## The mask and the tail (R22, R25, R26) -/

theorem State.maskReadDone_eq {p : PortRequest} {s : State} (hport : s.path.port = some p) (hkind : p.kind = .maskRead) :
    s.maskReadDone = { s with
      path := { s.path with port := none },
      ctl := { s.ctl with mask := BitVec.ofNat 12 (leValue p.bytes), teardown := Teardown.counted s.ctl.teardown } } := by
  rw [State.maskReadDone, hport]
  dsimp only
  rw [hkind]
  rfl

theorem State.tailReadDone_eq {p : PortRequest} {s : State} (hport : s.path.port = some p) (hkind : p.kind = .tailRead) :
    s.tailReadDone = if s.ctl.teardown = none then s.freePort.takeTail (leValue p.bytes) else s.freePort.controlDone := by
  rw [State.tailReadDone, hport]
  dsimp only
  rw [hkind]

/-- Taking the next command starts the slot read, when R27's conditions hold. -/
theorem State.takeCommand_form (s : State) :
    let ahead := (s.ctl.takenTail - s.ctl.head).toNat
    ∃ q, s.takeCommand = { s with ctl := { s.ctl with
        queue := q,
        inProgress := if s.ctl.ring = .ready ∧ s.ctl.inProgress = none ∧ 1 ≤ ahead ∧ ahead ≤ 32 ∧ s.ctl.teardown = none
          then some ⟨s.ctl.head, .reading⟩ else s.ctl.inProgress } } ∧ Keeps s.ctl.queue q ∧
      (s.ctl.ring = .ready ∧ s.ctl.inProgress = none ∧ 1 ≤ ahead ∧ ahead ≤ 32 ∧ s.ctl.teardown = none →
        QueueEntry.slotRead ∈ q) := by
  intro ahead
  unfold State.takeCommand
  dsimp only
  split
  · next h =>
    obtain ⟨q, hq, hkeeps, hmem⟩ := State.enqueue_form .slotRead
      ({ s with ctl := { s.ctl with inProgress := some { count := s.ctl.head, stage := .reading } } } : State)
    exact ⟨q, by rw [hq]; rfl, hkeeps, fun _ => hmem⟩
  · next h => exact ⟨s.ctl.queue, rfl, Keeps.refl _, fun h' => absurd h' h⟩

/-- A ring error halts the ring and is counted. -/
theorem State.ringError_form (s : State) : ∃ q, s.ringError = { s with ctl := { s.ctl with
    ring := .halted, ringErrors := saturate 65535 s.ctl.ringErrors, queue := q,
    notices := s.ctl.notices ||| Notice.command.bit } } ∧ QueueEntry.record .counters ∈ q := by
  obtain ⟨u, hu⟩ : ∃ u : State, u =
    { s with ctl := { s.ctl with ring := .halted, ringErrors := saturate 65535 s.ctl.ringErrors } } := ⟨_, rfl⟩
  obtain ⟨q₁, hrewrite, -, hmem⟩ := State.rewrite_form .counters u
  obtain ⟨q₂, hraise, hkeeps⟩ := State.raise_form .command (u.withQueue q₁)
  refine ⟨q₂, ?_, hkeeps _ hmem⟩
  rw [State.ringError, ← hu, hrewrite, hraise, hu]
  rfl

/-- Settles O25: the two reads' completions, and their grants. -/
theorem maskAndTailReadsComplete : Obligations.MaskAndTailReadsComplete := by
  refine ⟨fun p s hport hkind => ?mask, fun p s hport hkind => ⟨fun hteardown => ?teardown, fun hteardown hv hahead => ?taken,
    fun hteardown hbad => ?error⟩, fun rest s hgrant => ⟨fun hqueue => ?maskGrant, fun hqueue => ?tailGrant⟩,
    fun k => ⟨rfl, rfl, rfl⟩⟩
  case mask =>
    have hrow : exec .maskReadComplete s = .next s.maskReadDone.settleStep := rfl
    rw [hrow, State.maskReadDone_eq hport hkind]
  case teardown =>
    have hrow : exec .tailReadComplete s = .next s.tailReadDone.settleStep := rfl
    rw [hrow, State.tailReadDone_eq hport hkind, if_neg hteardown]
    rfl
  case taken =>
    obtain ⟨u, hu⟩ : ∃ u : State, u = { s.freePort with
      ctl := { s.ctl with takenTail := BitVec.ofNat 6 (leValue p.bytes), ring := .ready } } := ⟨_, rfl⟩
    have hdone : s.tailReadDone = u.takeCommand := by
      rw [State.tailReadDone_eq hport hkind, if_pos hteardown, State.takeTail, hu]
      exact if_pos ⟨hv, hahead⟩
    obtain ⟨q, hq, -, hmem⟩ := u.takeCommand_form
    have hcond : (u.ctl.ring = .ready ∧ u.ctl.inProgress = none ∧ 1 ≤ (u.ctl.takenTail - u.ctl.head).toNat ∧
        (u.ctl.takenTail - u.ctl.head).toNat ≤ 32 ∧ u.ctl.teardown = none) ↔
        s.ctl.inProgress = none ∧ 1 ≤ (BitVec.ofNat 6 (leValue p.bytes) - s.ctl.head).toNat := by
      rw [hu]
      exact ⟨fun h => ⟨h.2.1, h.2.2.1⟩, fun h => ⟨rfl, h.1, h.2, hahead, hteardown⟩⟩
    have hrow : exec .tailReadComplete s = .next s.tailReadDone.settleStep := rfl
    refine ⟨_, hrow, ?_, fun hprogress hwaiting => ?_⟩
    · rw [hdone, hq]
      simp only [hcond]
      rw [hu]
      rfl
    · rw [hdone, hq]
      exact hmem (hcond.mpr ⟨hprogress, hwaiting⟩)
  case error =>
    have hdone : s.tailReadDone = s.freePort.ringError := by
      rw [State.tailReadDone_eq hport hkind, if_pos hteardown, State.takeTail]
      exact if_neg hbad
    obtain ⟨q, hq, hmem⟩ := s.freePort.ringError_form
    have hrow : exec .tailReadComplete s = .next s.tailReadDone.settleStep := rfl
    refine ⟨_, hrow, ?_, ?_⟩
    · rw [hdone, hq]
      rfl
    · rw [hdone, hq]
      exact hmem
  case maskGrant => exact State.grantPort_control hgrant hqueue
  case tailGrant => exact State.grantPort_control hgrant hqueue

/-! ## Slots (R27, R28, R200, R201) -/

theorem State.slotReadDone_eq {p : PortRequest} {live : Bool} {s : State} (hport : s.path.port = some p)
    (hkind : p.kind = .slotRead live) :
    s.slotReadDone = if live = true then s.freePort.executeSlot p.bytes else s.freePort.controlDone := by
  rw [State.slotReadDone, hport]
  dsimp only
  rw [hkind]

theorem State.resultWriteDone_eq {p : PortRequest} {s : State} (hport : s.path.port = some p) (hkind : p.kind = .resultWrite) :
    s.resultWriteDone = ((s.portWritten p).controlDone).completeCommand := by
  rw [State.resultWriteDone, hport]
  dsimp only
  rw [hkind]

/-- A completed command: the head advances, COMMAND is raised, and the next command that waits begins. -/
theorem State.completeCommand_form {c : CommandInProgress} {s : State} (h : s.ctl.inProgress = some c) :
    let waiting := (s.ctl.takenTail - (s.ctl.head + 1)).toNat
    ∃ q, s.completeCommand = { s with ctl := { s.ctl with
        head := s.ctl.head + 1, notices := s.ctl.notices ||| Notice.command.bit, queue := q,
        inProgress := if s.ctl.ring = .ready ∧ 1 ≤ waiting ∧ waiting ≤ 32 ∧ s.ctl.teardown = none
          then some ⟨s.ctl.head + 1, .reading⟩ else none } } ∧ QueueEntry.record .statusWords ∈ q := by
  intro waiting
  obtain ⟨u, hu⟩ : ∃ u : State, u = { s with ctl := { s.ctl with head := s.ctl.head + 1, inProgress := none } } := ⟨_, rfl⟩
  obtain ⟨q₁, hraise, -⟩ := State.raise_form .command u
  obtain ⟨v, hv⟩ : ∃ v : State, v =
    { u with ctl := { u.ctl with notices := u.ctl.notices ||| Notice.command.bit, queue := q₁ } } := ⟨_, rfl⟩
  obtain ⟨q₂, hrewrite, -, hmem⟩ := State.rewrite_form .statusWords v
  obtain ⟨q₃, htake, hkeeps, -⟩ := (v.withQueue q₂).takeCommand_form
  refine ⟨q₃, ?_, hkeeps _ hmem⟩
  have hcond : ((v.withQueue q₂).ctl.ring = .ready ∧ (v.withQueue q₂).ctl.inProgress = none ∧
      1 ≤ ((v.withQueue q₂).ctl.takenTail - (v.withQueue q₂).ctl.head).toNat ∧
      ((v.withQueue q₂).ctl.takenTail - (v.withQueue q₂).ctl.head).toNat ≤ 32 ∧ (v.withQueue q₂).ctl.teardown = none) ↔
      s.ctl.ring = .ready ∧ 1 ≤ waiting ∧ waiting ≤ 32 ∧ s.ctl.teardown = none := by
    rw [hv, hu]
    exact ⟨fun h => ⟨h.1, h.2.2.1, h.2.2.2.1, h.2.2.2.2⟩, fun h => ⟨h.1, rfl, h.2.1, h.2.2.1, h.2.2.2⟩⟩
  rw [State.completeCommand, h]
  dsimp only
  rw [← hu, hraise, ← hv, hrewrite, htake]
  simp only [hcond]
  rw [hv, hu]
  rfl

theorem Teardown.counted_eq_none (t : Option Teardown) : Teardown.counted t = none ↔ t = none := by
  constructor
  · intro h
    unfold Teardown.counted at h
    split at h
    · cases h
    · exact h
  · rintro rfl
    rfl

/-- The first byte of a slot. -/
theorem slotValue_first {l : List Byte} {b : Byte} (h : l.head? = some b) : slotValue l 0 1 = b.toNat := by
  obtain ⟨rest, rfl⟩ := List.head?_eq_some_iff.mp h
  simp [slotValue, leValue]

/-- A first byte that no ring command has. -/
theorem slotCommand_unknown {l : List Byte} {b : Byte} (h : l.head? = some b)
    (hb : b ∉ ([0x01, 0x02, 0x03, 0x04, 0x05, 0x06, 0x07, 0x08, 0x10, 0x11, 0x12, 0x13, 0x14, 0x15, 0x16,
      0x20, 0x21, 0x22, 0x23, 0x24, 0x25, 0x26, 0x27, 0x28, 0x29, 0x2A, 0x30, 0x31, 0x32, 0x38] : List Byte)) :
    slotCommand l = .unknownCommand b := by
  have hfirst := slotValue_first h
  have hfield : slotField l 8 0 = b := by
    rw [slotField]
    exact (congrArg (BitVec.ofNat 8) hfirst).trans (by simp)
  have hnot (v : Nat) (hv : v < 256) (hk : BitVec.ofNat 8 v ∈ ([0x01, 0x02, 0x03, 0x04, 0x05, 0x06, 0x07, 0x08, 0x10, 0x11,
      0x12, 0x13, 0x14, 0x15, 0x16, 0x20, 0x21, 0x22, 0x23, 0x24, 0x25, 0x26, 0x27, 0x28, 0x29, 0x2A, 0x30, 0x31, 0x32,
      0x38] : List Byte)) : slotValue l 0 1 ≠ v := by
    intro e
    have hbyte : b = BitVec.ofNat 8 v := BitVec.eq_of_toNat_eq (by
      rw [BitVec.toNat_ofNat, Nat.mod_eq_of_lt hv, ← hfirst, e])
    exact hb (hbyte ▸ hk)
  unfold slotCommand
  split
  case h_31 => rw [hfield]
  all_goals
    next hv => exact absurd hv (hnot _ (by decide) (by decide))

/-- A result's 16 bytes. -/
theorem resultBytes_eq (count : BitVec 6) (r : CommandResult) (h : r.data.length ≤ 14) :
    resultBytes count r = [BitVec.ofNat 8 r.code.code, count.zeroExtend 8] ++
      (if r.code = .ok then r.data ++ List.replicate (14 - r.data.length) 0 else List.replicate 14 0) := by
  rw [resultBytes, padTo]
  split
  · rw [List.take_append, List.take_of_length_le h, List.take_replicate, Nat.min_eq_left (by omega)]
  · rfl

/-- Settles O26: the two completions, the two grants, the command that a slot spells and the bytes of a result. -/
theorem ringSlotsComplete : Obligations.RingSlotsComplete := by
  refine ⟨fun p s hport => ⟨fun c hkind hprogress => ?executed, fun hkind => ?dropped⟩,
    fun p s hport hkind => ⟨fun hprogress => ?stored, fun hprogress => ?completed⟩,
    fun rest s hgrant => ⟨fun hqueue => State.grantPort_control hgrant hqueue,
      fun slot bytes hqueue => State.grantPort_control hgrant hqueue⟩, fun l => ?spells,
    fun count r hlength => resultBytes_eq count r hlength⟩
  case executed =>
    have hrow : exec .slotReadComplete s = .next s.slotReadDone.settleStep := rfl
    have hdone : s.slotReadDone = ((s.freePort.ringCommand (slotCommand p.bytes)).state.runDueArbiter).queueResult c.count
        (s.freePort.ringCommand (slotCommand p.bytes)).result := by
      have hfree : s.freePort.ctl.inProgress = some c := hprogress
      rw [State.slotReadDone_eq hport hkind, if_pos rfl, State.executeSlot, hfree]
    refine ⟨_, hrow, ?_, fun hnew => ?_⟩
    · rw [hdone, State.queueResult, State.enqueue_eq]
      rfl
    · rw [hdone, State.queueResult, State.enqueue, if_neg (by exact hnew)]
      rfl
  case dropped =>
    have hrow : exec .slotReadComplete s = .next s.slotReadDone.settleStep := rfl
    rw [hrow, State.slotReadDone_eq hport hkind, if_neg (by decide)]
    rfl
  case stored =>
    have hrow : exec .resultWriteComplete s = .next s.resultWriteDone.settleStep := rfl
    have hnone : (s.portWritten p).controlDone.ctl.inProgress = none := hprogress
    rw [hrow, State.resultWriteDone_eq hport hkind, State.completeCommand, hnone]
    rfl
  case completed =>
    have hrow : exec .resultWriteComplete s = .next s.resultWriteDone.settleStep := rfl
    obtain ⟨c, hc⟩ := Option.ne_none_iff_exists'.mp hprogress
    obtain ⟨q, hq, hmem⟩ := State.completeCommand_form (s := (s.portWritten p).controlDone) (c := c) hc
    have hteardown : (s.portWritten p).controlDone.ctl.teardown = none ↔ s.ctl.teardown = none := Teardown.counted_eq_none _
    simp only [hteardown] at hq
    refine ⟨_, hrow, ?_, ?_⟩
    · rw [State.resultWriteDone_eq hport hkind, hq]
      rfl
    · rw [State.resultWriteDone_eq hport hkind, hq]
      exact hmem
  case spells =>
    have hspells (b : Byte) (h : l.head? = some b) : slotValue l 0 1 = b.toNat := slotValue_first h
    refine ⟨?_, ?_, ?_, ?_, ?_, ?_, ?_, ?_, ?_, ?_, ?_, ?_, ?_, ?_, ?_, ?_, ?_, ?_, ?_, ?_, ?_, ?_, ?_, ?_, ?_, ?_, ?_, ?_, ?_, ?_,
      fun b h hb => slotCommand_unknown h hb⟩
    all_goals
      intro h
      rw [slotCommand, hspells _ h]
      rfl

end Sys2Proof.Machine

/-! PROOF. Store writes and the closing of pages (R14, R17, R72, R74, R94). -/

namespace Sys2Proof.Machine

/-! ## What the news of a page leaves alone (R149, R162) -/

/-- The store, the scan stream and its context, the documents, the lines and the charge unit: what the news of a page's close
leaves alone. -/
def State.desk (s : State) : StoreManager × ScanStream × LineContext × DispatchUnit × Table LineUnit 4 × ChargeUnit :=
  (s.store, s.scan, s.ctx .scan, s.dispatch, s.lines, s.charge)

/-- Equal desks, field by field. -/
theorem State.desk_eq_iff {s t : State} : t.desk = s.desk ↔ t.store = s.store ∧ t.scan = s.scan ∧ t.ctx .scan = s.ctx .scan ∧
    t.dispatch = s.dispatch ∧ t.lines = s.lines ∧ t.charge = s.charge := by
  simp only [State.desk, Prod.mk.injEq]

theorem State.ctx_congr {s t : State} (h : t.coder = s.coder) (i : StreamId) : t.ctx i = s.ctx i :=
  congrArg (fun c => c.contexts.get i.index) h

@[simp] theorem State.setStream_desk (n : Fin 4) (x : LineStream) (s : State) : (s.setStream n x).desk = s.desk := by
  rw [State.desk_eq_iff]
  exact ⟨by simp, by simp, State.ctx_congr (by simp) _, by simp, by simp, by simp⟩

@[simp] theorem State.modStream_desk (n : Fin 4) (f : LineStream → LineStream) (s : State) : (s.modStream n f).desk = s.desk :=
  State.setStream_desk ..

@[simp] theorem State.setPrint_desk (x : PrintStream) (s : State) : (s.setPrint x).desk = s.desk := by
  rw [State.desk_eq_iff]
  exact ⟨by simp, by simp, State.ctx_congr (by simp) _, by simp, by simp, by simp⟩

@[simp] theorem State.raise_desk (f : Notice) (s : State) : (s.raise f).desk = s.desk := by
  rw [State.desk_eq_iff]
  exact ⟨by simp, by simp, State.ctx_congr (by simp) _, by simp, by simp, by simp⟩

@[simp] theorem State.dropRead_desk (q : Requester) (s : State) : (s.dropRead q).desk = s.desk := by
  unfold State.dropRead
  split
  · split <;> rfl
  · rfl

theorem Coder.restart_contexts_of_ne {i j : StreamId} (h : i.index ≠ j.index) (x : LineContext) (c : Coder) :
    (c.restart i x).contexts.get j.index = c.contexts.get j.index := Table.get_set_of_ne _ _ h

theorem State.openCtx_desk {i : StreamId} (h : i ≠ .scan) (w : Width) (k : Nat) (s : State) :
    (s.openCtx i w k).desk = s.desk := by
  have hne : i.index ≠ StreamId.index .scan := by
    cases i with
    | scan => exact absurd rfl h
    | print => decide
    | line n =>
      intro e
      exact absurd (congrArg Fin.val e) (by simp [StreamId.index])
  rw [State.openCtx_eq, State.desk_eq_iff]
  exact ⟨rfl, rfl, Coder.restart_contexts_of_ne hne _ _, rfl, rfl, rfl⟩

@[simp] theorem State.startServing_desk (n : Fin 4) (p : Fin 512) (s : State) : (s.startServing n p).desk = s.desk := by
  unfold State.startServing
  dsimp only
  split
  · simp
  · rw [State.openCtx_desk (by simp)]
    simp

@[simp] theorem State.waitPage_desk (n : Fin 4) (s : State) : (s.waitPage n).desk = s.desk := by
  unfold State.waitPage
  split <;> simp

@[simp] theorem State.seekPage_desk (n : Fin 4) (s : State) : (s.seekPage n).desk = s.desk := by
  unfold State.seekPage
  split
  · rfl
  · dsimp only
    split
    · split <;> simp
    · split
      · simp
      · simp [State.sendDocEnd]

@[simp] theorem State.tellSender_desk (d : Fin 64) (s : State) (n : Fin 4) : (s.tellSender d n).desk = s.desk := by
  unfold State.tellSender
  dsimp only
  split <;> simp

theorem foldl_desk {α : Type} (F : State → α → State) (hF : ∀ s a, (F s a).desk = s.desk) (l : List α) (s : State) :
    (l.foldl F s).desk = s.desk := by
  induction l generalizing s with
  | nil => rfl
  | cons a l ih => rw [List.foldl_cons, ih, hF]

@[simp] theorem State.tellSenders_desk (d : Fin 64) (s : State) : (s.tellSenders d).desk = s.desk :=
  foldl_desk _ (fun s n => State.tellSender_desk d s n) _ _

@[simp] theorem State.printBegin_desk (p : Fin 512) (s : State) : (s.printBegin p).desk = s.desk := by
  unfold State.printBegin State.printPageEnd
  dsimp only
  split
  · rw [State.raise_desk, State.setPrint_desk, State.openCtx_desk (by simp), State.setPrint_desk]
  · rw [State.openCtx_desk (by simp), State.setPrint_desk]

@[simp] theorem State.tellPrinter_desk (p : Fin 512) (s : State) : (s.tellPrinter p).desk = s.desk := by
  unfold State.tellPrinter
  split <;> simp

/-- A document that is building has an obligation. -/
theorem State.checkComplete_of_building {d : Fin 64} {s : State} (h : (s.doc d).building = true) : s.checkComplete d = s := by
  refine if_neg fun hall => ?_
  have hobligation : s.hasObligation d = false := hall.2.2
  rw [State.hasObligation, h, Bool.true_or, Bool.true_or, Bool.true_or] at hobligation
  cases hobligation

/-- The news of a page of a document that is building. -/
theorem State.pageClosedNews_desk {p : Fin 512} {s : State} (h : (s.doc (s.page p).document).building = true) :
    (s.pageClosedNews p).desk = s.desk := by
  obtain ⟨u, hu⟩ : ∃ u, u = (s.tellSenders (s.page p).document).tellPrinter p := ⟨_, rfl⟩
  have hdesk : u.desk = s.desk := by rw [hu, State.tellPrinter_desk, State.tellSenders_desk]
  obtain ⟨-, -, -, hdispatch, -⟩ := State.desk_eq_iff.mp hdesk
  rw [State.pageClosedNews, ← hu, State.checkComplete_of_building, hdesk]
  rw [State.doc, hdispatch]
  exact h

/-! ## The page's close (R74) -/

theorem State.storeWriteDone_eq {p : PortRequest} {w : Writer} {page : Fin 512} {ends : Bool} {s : State}
    (hport : s.path.port = some p) (hkind : p.kind = .storeWrite w page ends) :
    s.storeWriteDone = if ends = true then (s.portWritten p).pageStored w page else s.portWritten p := by
  rw [State.storeWriteDone, hport]
  dsimp only
  rw [hkind]

/-- A page marked CLOSED: its record and its writer's slot. -/
theorem State.markClosed_form (w : Writer) (p : Fin 512) (check : BitVec 16) (s : State) : ∃ q,
    s.markClosed w p check = ({ s with store := { s.store with
      pages := s.store.pages.set p { s.page p with state := .closed, closing := false, check := check },
      slots := s.store.slots.set w.index { s.slot w with closing := none } } } : State).withQueue q := by
  obtain ⟨q, hq, -⟩ := State.setPage_form p { s.page p with state := .closed, closing := false, check := check } s
  refine ⟨q, ?_⟩
  rw [State.markClosed, hq]
  rfl

/-- What a page's close is, before a close that waited for it is taken. -/
def State.closedWithNews (w : Writer) (p : Fin 512) (check : BitVec 16) (s : State) : State :=
  ((s.markClosed w p check).pageClosedNews p).raise .stream

theorem State.pageStored_line {n : Fin 4} {p : Fin 512} {h : PageInHand} {s : State}
    (hclosing : (s.slot (.line n)).closing = some h) (hpage : h.page = p) :
    s.pageStored (.line n) p = (s.closedWithNews (.line n) p h.check).takeAsked (.line n) := by
  rw [State.pageStored, hclosing]
  exact if_pos hpage

theorem State.pageStored_scan {p : Fin 512} {h : PageInHand} {s : State}
    (hclosing : (s.slot .scan).closing = some h) (hpage : h.page = p) : s.pageStored .scan p =
      if (s.slot .scan).asked = none then ((s.closedWithNews .scan p h.check).takeAsked .scan).scanFinish
      else ((s.closedWithNews .scan p h.check).takeAsked .scan).scanNextPage.scanFinish := by
  rw [State.pageStored, hclosing]
  exact if_pos hpage

/-- The store after a page's close, where its document is building; the rest of the desk is as it was. -/
theorem State.closedWithNews_desk {w : Writer} {p : Fin 512} {check : BitVec 16} {s : State}
    (h : (s.doc (s.page p).document).building = true) :
    (s.closedWithNews w p check).desk =
      ({ s.store with
        pages := s.store.pages.set p { s.page p with state := .closed, closing := false, check := check },
        slots := s.store.slots.set w.index { s.slot w with closing := none } }, s.scan, s.ctx .scan, s.dispatch, s.lines, s.charge) := by
  obtain ⟨q, hq⟩ := s.markClosed_form w p check
  obtain ⟨u, hu⟩ : ∃ u, u = s.markClosed w p check := ⟨_, rfl⟩
  have hpage : u.page p = { s.page p with state := .closed, closing := false, check := check } := by
    rw [hu, hq]
    exact Table.get_set_self _ _ _
  have hdoc (d : Fin 64) : u.doc d = s.doc d := by rw [hu, hq]; rfl
  rw [State.closedWithNews, State.raise_desk, ← hu, State.pageClosedNews_desk (by rw [hpage, hdoc]; exact h), hu, hq]
  rfl

theorem State.scanFinish_idle {s : State} (h : s.scan.state ≠ .closing) : s.scanFinish = s := if_neg fun hall => h hall.1

theorem State.scanNextPage_idle {s : State} (h : s.scan.heldBytes = 0) : s.scanNextPage = s := if_pos (.inl h)

theorem State.takeAsked_idle {w : Writer} {s : State} (h : (s.slot w).asked = none) : s.takeAsked w = s := by
  unfold State.takeAsked
  rw [h]
  split
  · next hasked => cases hasked
  · rfl

/-- The page closed, the close of the next one begins where it was asked for. -/
theorem State.takeAsked_form {w : Writer} {g : PageInHand} {flags : CloseFlags} {s : State} (hwriting : (s.slot w).writing = some g)
    (hasked : (s.slot w).asked = some flags) : ∃ q, s.takeAsked w = ({ s with
      store := { s.store with
        pages := s.store.pages.set g.page { s.page g.page with
          closing := true, byteCount := (s.page g.page).byteCount + 1, short := (s.page g.page).short || flags.short,
          truncated := (s.page g.page).truncated || flags.truncated, poor := (s.page g.page).poor || flags.poor },
        slots := s.store.slots.set w.index
          { writing := none, asked := none, closing := some { g with queued := g.queued ++ [0xF3] } } } } : State).withQueue q := by
  obtain ⟨q, hq, -⟩ := State.setPage_form g.page { s.page g.page with
    closing := true, byteCount := (s.page g.page).byteCount + 1, short := (s.page g.page).short || flags.short,
    truncated := (s.page g.page).truncated || flags.truncated, poor := (s.page g.page).poor || flags.poor } s
  refine ⟨q, ?_⟩
  rw [State.takeAsked, hwriting, hasked]
  exact (congrArg (State.setSlot w _) hq).trans rfl

/-- A page's close changes no memory and gives nobody the port. -/
theorem State.pageStored_port {w : Writer} {p : Fin 512} {s : State} (hport : s.path.port = none) :
    (s.pageStored w p).mem = s.mem ∧ (s.pageStored w p).path.port = none := by
  have hplant : (s.pageStored w p).plant = s.plant := State.pageStored_plant ..
  refine ⟨congrArg Plant.mem hplant, ?_⟩
  have hholder : (s.pageStored w p).path.port.map (·.requester) = s.path.port.map (·.requester) := congrArg Plant.holder hplant
  rw [hport] at hholder
  exact Option.map_eq_none_iff.mp hholder

theorem State.page_of_desk {s : State} {store : StoreManager} {scan : ScanStream} {c : LineContext} {dispatch : DispatchUnit}
    {lines : Table LineUnit 4} {charge : ChargeUnit} (h : s.desk = (store, scan, c, dispatch, lines, charge)) :
    s.store = store ∧ s.scan = scan ∧ s.ctx .scan = c ∧ s.dispatch = dispatch ∧ s.lines = lines ∧ s.charge = charge := by
  simpa only [State.desk, Prod.mk.injEq] using h

/-- The close of a page of a building document that no other close waits for is its news, STREAM raised. -/
theorem State.pageStored_alone {w : Writer} {p : Fin 512} {h : PageInHand} {s : State} (hclosing : (s.slot w).closing = some h)
    (hpage : h.page = p) (hasked : (s.slot w).asked = none) (hbuilding : (s.doc (s.page p).document).building = true)
    (hscan : w = .scan → s.scan.state ≠ .closing) : s.pageStored w p = s.closedWithNews w p h.check := by
  obtain ⟨u, hu⟩ : ∃ u, u = s.closedWithNews w p h.check := ⟨_, rfl⟩
  obtain ⟨hstore, hscan', -⟩ := State.page_of_desk (State.closedWithNews_desk (w := w) (check := h.check) hbuilding)
  rw [← hu] at hstore hscan'
  have hslot : (u.slot w).asked = none := by
    rw [State.slot, hstore]
    exact (congrArg WriterSlot.asked (Table.get_set_self _ _ _)).trans hasked
  cases w with
  | line n => rw [State.pageStored_line hclosing hpage, ← hu, State.takeAsked_idle hslot]
  | scan =>
    rw [State.pageStored_scan hclosing hpage, ← hu, State.takeAsked_idle hslot, if_pos hasked,
      State.scanFinish_idle (by rw [hscan']; exact hscan rfl)]

/-- With another close waiting, that one begins. -/
theorem State.pageStored_waiting {w : Writer} {p : Fin 512} {h g : PageInHand} {flags : CloseFlags} {s : State}
    (hclosing : (s.slot w).closing = some h) (hpage : h.page = p) (hwriting : (s.slot w).writing = some g)
    (hasked : (s.slot w).asked = some flags) (hbuilding : (s.doc (s.page p).document).building = true)
    (hscan : w = .scan → s.scan.state ≠ .closing ∧ s.scan.heldBytes = 0) :
    s.pageStored w p = (s.closedWithNews w p h.check).takeAsked w := by
  obtain ⟨u, hu⟩ : ∃ u, u = s.closedWithNews w p h.check := ⟨_, rfl⟩
  obtain ⟨hstore, hscan', -⟩ := State.page_of_desk (State.closedWithNews_desk (w := w) (check := h.check) hbuilding)
  rw [← hu] at hstore hscan'
  have hslot : u.slot w = { s.slot w with closing := none } := by
    rw [State.slot, hstore]
    exact Table.get_set_self _ _ _
  obtain ⟨q, hq⟩ := State.takeAsked_form (s := u) (w := w) (by rw [hslot]; exact hwriting) (by rw [hslot]; exact hasked)
  cases w with
  | line n => rw [State.pageStored_line hclosing hpage, ← hu]
  | scan =>
    rw [State.pageStored_scan hclosing hpage, ← hu, if_neg (by rw [hasked]; simp)]
    have hscan'' : (u.takeAsked .scan).scan = s.scan := by rw [hq, ← hscan']; rfl
    obtain ⟨hstate, hheld⟩ := hscan rfl
    rw [State.scanNextPage_idle (by rw [hscan'']; exact hheld), State.scanFinish_idle (by rw [hscan'']; exact hstate)]

/-! ## Notices only join (R30) -/

/-- Every notice pending in one state is pending in the other. -/
def State.NoticesIn (s t : State) : Prop := ∃ bits, t.ctl.notices = s.ctl.notices ||| bits

theorem State.NoticesIn.pending {s t : State} (h : s.NoticesIn t) {f : Notice} (hf : s.isPending f = true) : t.isPending f = true := by
  obtain ⟨bits, hbits⟩ := h
  rw [State.isPending] at hf ⊢
  rw [hbits, BitVec.getLsbD_or, hf, Bool.true_or]

theorem State.NoticesIn.of_eq {s t : State} (h : t.ctl.notices = s.ctl.notices) : s.NoticesIn t := ⟨0, by simp [h]⟩

theorem State.NoticesIn.trans {s t u : State} (h : s.NoticesIn t) (k : t.NoticesIn u) : s.NoticesIn u := by
  obtain ⟨a, ha⟩ := h
  obtain ⟨b, hb⟩ := k
  exact ⟨a ||| b, by rw [hb, ha, BitVec.or_assoc]⟩

theorem State.NoticesIn.of_raise (f : Notice) (s : State) : s.NoticesIn (s.raise f) := ⟨f.bit, State.raise_notices f s⟩

theorem State.setStream_notices (n : Fin 4) (x : LineStream) (s : State) : s.NoticesIn (s.setStream n x) := .of_eq (by simp)

theorem State.openCtx_ctl (i : StreamId) (w : Width) (k : Nat) (s : State) : (s.openCtx i w k).ctl = s.ctl := by
  rw [State.openCtx_eq]

theorem State.dropRead_ctl (q : Requester) (s : State) : (s.dropRead q).ctl = s.ctl := by
  unfold State.dropRead
  split
  · split <;> rfl
  · rfl

theorem State.startServing_notices (n : Fin 4) (p : Fin 512) (s : State) : s.NoticesIn (s.startServing n p) := by
  apply State.NoticesIn.of_eq
  unfold State.startServing
  dsimp only
  split
  · rw [State.setStream_ctl_notices, State.dropRead_ctl]
  · rw [State.openCtx_ctl, State.setStream_ctl_notices, State.dropRead_ctl]

theorem State.waitPage_notices (n : Fin 4) (s : State) : s.NoticesIn (s.waitPage n) := by
  unfold State.waitPage
  split
  · exact .of_eq rfl
  · exact (State.setStream_notices ..).trans (.of_raise ..)

theorem State.seekPage_notices (n : Fin 4) (s : State) : s.NoticesIn (s.seekPage n) := by
  unfold State.seekPage
  split
  · exact .of_eq rfl
  · dsimp only
    split
    · split
      · exact State.NoticesIn.trans (State.setStream_notices n _ s) (State.startServing_notices ..)
      · exact State.NoticesIn.trans (State.setStream_notices n _ s) (State.waitPage_notices ..)
      · exact State.NoticesIn.trans (State.setStream_notices n _ s) (State.waitPage_notices ..)
    · split
      · exact State.NoticesIn.trans (State.setStream_notices n _ s) (State.waitPage_notices ..)
      · exact State.NoticesIn.trans (State.setStream_notices n _ s) ((State.setStream_notices ..).trans (.of_raise ..))

theorem foldl_notices {α : Type} (F : State → α → State) (hF : ∀ (s : State) a, s.NoticesIn (F s a)) (l : List α) (s : State) :
    s.NoticesIn (l.foldl F s) := by
  induction l generalizing s with
  | nil => exact .of_eq rfl
  | cons a l ih => exact (hF s a).trans (ih _)

theorem State.tellSenders_notices (d : Fin 64) (s : State) : s.NoticesIn (s.tellSenders d) := by
  refine foldl_notices _ (fun s n => ?_) _ _
  unfold State.tellSender
  dsimp only
  split
  · exact State.seekPage_notices ..
  · exact .of_eq rfl

theorem State.releasePage_notices (s : State) (p : Fin 512) : s.NoticesIn (s.releasePage p) :=
  .of_eq (by simp [State.releasePage, State.giveBack])

theorem State.checkComplete_notices (d : Fin 64) (s : State) : s.NoticesIn (s.checkComplete d) := by
  unfold State.checkComplete
  split
  · refine State.NoticesIn.trans (t := (s.setDoc d { s.doc d with complete := true }).raise .dispatch) ?_
      (foldl_notices _ (fun s p => State.releasePage_notices s p) _ _)
    exact State.NoticesIn.trans (.of_eq (by simp)) (.of_raise ..)
  · exact .of_eq rfl

theorem State.printDue_notices (d : Fin 64) (s : State) : s.NoticesIn (s.printDue d) := by
  unfold State.printDue State.joinPrintQueue
  dsimp only
  split
  · split
    · exact .of_eq (by simp)
    · split
      · exact State.NoticesIn.trans (t := (s.setDoc d _).setPrintQueue _) (.of_eq (by simp)) (.of_raise ..)
      · exact .of_eq (by simp)
  · exact .of_eq rfl

theorem State.endBuilding_notices (d : Fin 64) (s : State) : s.NoticesIn (s.endBuilding d) := by
  unfold State.endBuilding
  split
  · exact .of_eq (by simp)
  · refine State.NoticesIn.trans ?_ (State.checkComplete_notices ..)
    refine State.NoticesIn.trans ?_ (State.tellSenders_notices ..)
    exact State.NoticesIn.trans (t := s.setDoc d { s.doc d with building := false }) (.of_eq (by simp)) (State.printDue_notices ..)

/-! ## What the completion of a document leaves alone (R77, R95, R105) -/

/-- The scan stream, its context and its writer's slot. -/
def State.scanSide (s : State) : ScanStream × LineContext × WriterSlot := (s.scan, s.ctx .scan, s.slot .scan)

theorem State.scanSide_of_desk {s t : State} (h : t.desk = s.desk) : t.scanSide = s.scanSide := by
  obtain ⟨hstore, hscan, hctx, -⟩ := State.desk_eq_iff.mp h
  rw [State.scanSide, State.scanSide, hscan, hctx, State.slot, hstore, State.slot]

theorem State.setPage_scanSide (p : Fin 512) (r : PageRecord) (s : State) : (s.setPage p r).scanSide = s.scanSide := by
  obtain ⟨q, hq, -⟩ := State.setPage_form p r s
  rw [hq]
  rfl

theorem State.setFreeList_scanSide (l : List Nat) (s : State) : (s.setFreeList l).scanSide = s.scanSide := by
  obtain ⟨q, hq, -⟩ := State.setFreeList_form l s
  rw [hq]
  rfl

theorem State.setDoc_scanSide (d : Fin 64) (r : DocRecord) (s : State) : (s.setDoc d r).scanSide = s.scanSide := by
  obtain ⟨q, hq, -⟩ := State.setDoc_form d r s
  rw [hq]
  rfl

theorem State.raise_scanSide (f : Notice) (s : State) : (s.raise f).scanSide = s.scanSide := State.scanSide_of_desk (State.raise_desk f s)

theorem foldl_scanSide {α : Type} (F : State → α → State) (hF : ∀ s a, (F s a).scanSide = s.scanSide) (l : List α) (s : State) :
    (l.foldl F s).scanSide = s.scanSide := by
  induction l generalizing s with
  | nil => rfl
  | cons a l ih => rw [List.foldl_cons, ih, hF]

theorem State.releasePage_scanSide (s : State) (p : Fin 512) : (s.releasePage p).scanSide = s.scanSide := by
  rw [State.releasePage, State.setPage_scanSide, State.giveBack, State.setFreeList_scanSide]

theorem State.checkComplete_scanSide (d : Fin 64) (s : State) : (s.checkComplete d).scanSide = s.scanSide := by
  unfold State.checkComplete
  split
  · rw [State.releasePages, foldl_scanSide _ State.releasePage_scanSide, State.raise_scanSide, State.setDoc_scanSide]
  · rfl

theorem State.printDue_scanSide (d : Fin 64) (s : State) : (s.printDue d).scanSide = s.scanSide := by
  have hqueue (l : List (Fin 64)) (t : State) : (t.setPrintQueue l).scanSide = t.scanSide := rfl
  unfold State.printDue State.joinPrintQueue
  dsimp only
  split
  · split
    · exact State.setDoc_scanSide ..
    · split
      · rw [State.raise_scanSide, hqueue, State.setDoc_scanSide]
      · rw [hqueue, State.setDoc_scanSide]
  · rfl

theorem State.endBuilding_scanSide (d : Fin 64) (s : State) : (s.endBuilding d).scanSide = s.scanSide := by
  unfold State.endBuilding
  split
  · exact State.setDoc_scanSide ..
  · rw [State.checkComplete_scanSide, State.scanSide_of_desk (State.tellSenders_desk _ _), State.printDue_scanSide,
      State.setDoc_scanSide]

theorem State.setDoc_doc_same (d : Fin 64) (r : DocRecord) (s : State) : (s.setDoc d r).doc d = r := by
  obtain ⟨q, hq, -⟩ := State.setDoc_form d r s
  rw [hq]
  exact Table.get_set_self _ _ _

theorem State.setDoc_doc_of_ne {d e : Fin 64} (h : e ≠ d) (r : DocRecord) (s : State) : (s.setDoc d r).doc e = s.doc e := by
  obtain ⟨q, hq, -⟩ := State.setDoc_form d r s
  rw [hq]
  exact Table.get_set_of_ne _ _ (Ne.symm h)

theorem State.doc_congr {s t : State} (h : t.dispatch = s.dispatch) (d : Fin 64) : t.doc d = s.doc d := congrArg (fun u => u.docs.get d) h

theorem foldl_dispatch {α : Type} (F : State → α → State) (hF : ∀ s a, (F s a).dispatch = s.dispatch) (l : List α) (s : State) :
    (l.foldl F s).dispatch = s.dispatch := by
  induction l generalizing s with
  | nil => rfl
  | cons a l ih => rw [List.foldl_cons, ih, hF]

theorem State.releasePages_dispatch (d : Fin 64) (s : State) : (s.releasePages d).dispatch = s.dispatch :=
  foldl_dispatch _ (fun s p => by simp [State.releasePage, State.giveBack]) _ _

theorem State.tellSenders_dispatch (d : Fin 64) (s : State) : (s.tellSenders d).dispatch = s.dispatch := by
  obtain ⟨-, -, -, hdispatch, -⟩ := State.desk_eq_iff.mp (State.tellSenders_desk d s)
  exact hdispatch

/-- The check for the last obligation leaves a document but for its completion. -/
theorem State.checkComplete_doc (d e : Fin 64) (s : State) : ∃ b, (s.checkComplete d).doc e = { s.doc e with complete := b } := by
  unfold State.checkComplete
  split
  · rw [State.doc_congr (State.releasePages_dispatch ..), State.doc_congr (State.raise_dispatch ..)]
    by_cases h : e = d
    · subst h
      exact ⟨true, State.setDoc_doc_same ..⟩
    · exact ⟨(s.doc e).complete, State.setDoc_doc_of_ne h ..⟩
  · exact ⟨(s.doc e).complete, rfl⟩

/-- What the end of building does to the printout leaves the other fields of the document. -/
theorem State.printDue_doc (d : Fin 64) (s : State) : ∃ o, (s.printDue d).doc d = { s.doc d with obligation := o } := by
  have hqueue (l : List (Fin 64)) (t : State) : (t.setPrintQueue l).doc d = t.doc d := rfl
  unfold State.printDue State.joinPrintQueue
  dsimp only
  split
  · split
    · exact ⟨_, State.setDoc_doc_same ..⟩
    · split
      · exact ⟨_, (State.doc_congr (State.raise_dispatch ..) d).trans ((hqueue ..).trans (State.setDoc_doc_same ..))⟩
      · exact ⟨_, (hqueue ..).trans (State.setDoc_doc_same ..)⟩
  · exact ⟨(s.doc d).obligation, rfl⟩

theorem State.endBuilding_building (d : Fin 64) (s : State) : ((s.endBuilding d).doc d).building = false := by
  unfold State.endBuilding
  split
  · rw [State.setDoc_doc_same]
    rfl
  · obtain ⟨b, hb⟩ := (((s.setDoc d { s.doc d with building := false }).printDue d).tellSenders d).checkComplete_doc d d
    obtain ⟨o, ho⟩ := (s.setDoc d { s.doc d with building := false }).printDue_doc d
    rw [hb, State.doc_congr (State.tellSenders_dispatch ..), ho, State.setDoc_doc_same]

theorem State.pageClosedNews_scanSide (p : Fin 512) (s : State) : (s.pageClosedNews p).scanSide = s.scanSide := by
  rw [State.pageClosedNews, State.checkComplete_scanSide, State.scanSide_of_desk (State.tellPrinter_desk _ _),
    State.scanSide_of_desk (State.tellSenders_desk _ _)]

theorem State.markClosed_scanSide {p : Fin 512} {check : BitVec 16} {s : State} (hwriting : (s.slot .scan).writing = none)
    (hasked : (s.slot .scan).asked = none) :
    (s.markClosed .scan p check).scanSide = (s.scan, s.ctx .scan, ⟨none, none, none⟩) := by
  have hslot : ({ s.slot .scan with closing := none } : WriterSlot) = ⟨none, none, none⟩ := by simp [hwriting, hasked]
  obtain ⟨q, hq⟩ := s.markClosed_form .scan p check
  rw [hq, hslot]
  exact congrArg (fun x => (s.scan, s.ctx .scan, x)) (Table.get_set_self _ _ _)

/-- The scan stream's CLOSED (R94, R95). -/
theorem State.scanClosed_closed (s : State) : s.scanClosed.scan.state = .closed ∧ (s.scanClosed.ctx .scan).isOpen = false ∧
    (s.scanClosed.doc s.scan.document).building = false ∧ s.scanClosed.isPending .stream = true := by
  obtain ⟨u, hu⟩ : ∃ u, u =
    (((s.setScan { s.scan.emptied with state := .closed }).idleCtx .scan).raise .stream).activatePending 0 := ⟨_, rfl⟩
  have hclosed : s.scanClosed = u.endBuilding s.scan.document := by rw [State.scanClosed, hu]
  have hidle (t : State) : (t.idleCtx .scan).scan = t.scan ∧ ((t.idleCtx .scan).ctx .scan).isOpen = false ∧
      ∀ f, ((t.idleCtx .scan).raise f).isPending f = true := by
    refine ⟨?_, ?_, fun f => by rw [State.raise_isPending, decide_eq_true rfl, Bool.or_true]⟩
    · simp [State.idleCtx, State.discardJob, State.setCtx]
      split
      · split <;> rfl
      · rfl
    · rw [State.idleCtx]
      exact congrArg LineContext.isOpen (Table.get_set_self _ _ _)
  have hactivate (t : State) : (t.activatePending 0).scan = t.scan ∧ (t.activatePending 0).coder = t.coder ∧
      (t.activatePending 0).ctl.notices = t.ctl.notices := by
    unfold State.activatePending State.activate
    split
    · exact ⟨by simp, by simp, by simp⟩
    · exact ⟨rfl, rfl, rfl⟩
  have hscan : u.scan.state = .closed := by
    rw [hu, (hactivate _).1, State.raise_scan, (hidle _).1, State.setScan_scan]
  have hctx : (u.ctx .scan).isOpen = false := by
    rw [hu, State.ctx_congr (hactivate _).2.1, State.ctx_congr (State.raise_coder _ _), (hidle _).2.1]
  have hpending : u.isPending .stream = true := by
    rw [hu, State.isPending, (hactivate _).2.2]
    exact (hidle _).2.2 _
  have hside := u.endBuilding_scanSide s.scan.document
  simp only [State.scanSide, Prod.mk.injEq] at hside
  obtain ⟨hscan', hctx', -⟩ := hside
  rw [hclosed]
  exact ⟨by rw [hscan', hscan], by rw [hctx', hctx], State.endBuilding_building _ _, (State.endBuilding_notices _ _).pending hpending⟩

/-- The last page of a CLOSING scan stream stored. -/
theorem State.pageStored_last {p : Fin 512} {h : PageInHand} {s : State} (hclosing : (s.slot .scan).closing = some h)
    (hpage : h.page = p) (hwriting : (s.slot .scan).writing = none) (hasked : (s.slot .scan).asked = none)
    (hstate : s.scan.state = .closing) (hfull : s.scan.anyFull = false) (hjob : (s.ctx .scan).job = .none) :
    ∃ u : State, u.scan = s.scan ∧ s.pageStored .scan p = u.scanClosed := by
  obtain ⟨u, hu⟩ : ∃ u, u = s.closedWithNews .scan p h.check := ⟨_, rfl⟩
  have hside : u.scanSide = (s.scan, s.ctx .scan, ⟨none, none, none⟩) := by
    rw [hu, State.closedWithNews, State.raise_scanSide, State.pageClosedNews_scanSide, State.markClosed_scanSide hwriting hasked]
  simp only [State.scanSide, Prod.mk.injEq] at hside
  obtain ⟨hscan, hctx, hslot⟩ := hside
  have hfinish : u.scanFinish = u.scanClosed := by
    have hclose : u.closePage .scan {} = u := by rw [State.closePage, hslot]; rfl
    rw [State.scanFinish, if_pos ⟨by rw [hscan]; exact hstate, by rw [hscan]; exact hfull, by rw [hctx]; exact hjob⟩]
    dsimp only
    rw [hclose, if_pos (by rw [hslot]; exact ⟨rfl, rfl⟩)]
  refine ⟨u, hscan, ?_⟩
  rw [State.pageStored_scan hclosing hpage, ← hu, State.takeAsked_idle (by rw [hslot]), if_pos hasked, hfinish]

/-! ## The stores that a writer issues (R14, R17) -/

theorem State.grantRequest_writer {w : Writer} {h : PageInHand} {closing : Bool} {s : State}
    (hnext : (s.slot w).next = some (h, closing)) : s.grantRequest w.requester = s.grantStoreWrite w h closing := by
  cases w with
  | scan => simp only [Writer.requester, State.grantRequest, hnext]
  | line n => simp only [Writer.requester, State.grantRequest, hnext]

theorem State.wantsPort_writer {w : Writer} {x : PageInHand × Bool} {s : State} (hnext : (s.slot w).next = some x) :
    s.wantsPort w.requester = true := by
  cases w with
  | scan => simp only [Writer.requester, State.wantsPort, hnext, Option.isSome_some]
  | line n => simp only [Writer.requester, State.wantsPort, hnext, Option.isSome_some, Bool.true_or]

theorem mem_allRequesters (q : Requester) : q ∈ allRequesters := by
  cases q with
  | line n => fin_cases n <;> simp [allRequesters]
  | _ => simp [allRequesters]

/-- A requester with work that has not the port has its request queued. -/
theorem State.mem_issueRequests {q : Requester} {s : State} (hwants : s.wantsPort q = true) (hport : s.onPort q = false) :
    q ∈ s.issueRequests.path.requests := by
  show q ∈ s.path.requests.filter s.wantsPort ++
    allRequesters.filter fun q => s.wantsPort q && !s.onPort q && decide (q ∉ s.path.requests.filter s.wantsPort)
  rw [List.mem_append]
  by_cases h : q ∈ s.path.requests.filter s.wantsPort
  · exact .inl h
  · refine .inr (List.mem_filter.mpr ⟨mem_allRequesters q, ?_⟩)
    rw [hwants, hport, decide_eq_true h]
    rfl

theorem State.issueRequests_storeWrites (w : Writer) (s : State) :
    s.issueRequests.path.storeWrites.get w.index = s.storeWriteOf s.issueRequests.path.requests w := by
  cases w with
  | scan => rfl
  | line n => fin_cases n <;> rfl

theorem WriterSlot.next_closing_iff (x : WriterSlot) (h : PageInHand) :
    x.next = some (h, true) ↔ x.closing = some h ∧ h.queued ≠ [] := by
  unfold WriterSlot.next
  split
  · next g hg =>
    rw [Option.filter_eq_some_iff] at hg
    obtain ⟨hclosing, hqueued⟩ := hg
    simp only [Option.some.injEq, Prod.mk.injEq, and_true, hclosing]
    constructor
    · rintro rfl
      exact ⟨rfl, of_decide_eq_true hqueued⟩
    · exact fun hall => hall.1
  · next hg =>
    constructor
    · intro hmap
      simp at hmap
    · rintro ⟨hclosing, hqueued⟩
      rw [hclosing] at hg
      simp [hqueued] at hg

theorem WriterSlot.next_writing_iff (x : WriterSlot) (h : PageInHand) :
    x.next = some (h, false) ↔ (∀ g, x.closing = some g → g.queued = []) ∧ x.writing = some h ∧ h.queued ≠ [] := by
  unfold WriterSlot.next
  split
  · next g hg =>
    rw [Option.filter_eq_some_iff] at hg
    obtain ⟨hclosing, hqueued⟩ := hg
    constructor
    · intro hsome
      simp at hsome
    · rintro ⟨hall, -⟩
      exact absurd (hall g hclosing) (of_decide_eq_true hqueued)
  · next hg =>
    have hnone : ∀ g, x.closing = some g → g.queued = [] := by
      intro g hclosing
      rw [hclosing] at hg
      simpa using hg
    simp only [Option.map_eq_some_iff, Option.filter_eq_some_iff, Prod.mk.injEq, and_true, exists_eq_right, decide_eq_true_eq]
    exact ⟨fun hall => ⟨hnone, hall⟩, fun hall => hall.2⟩

/-- Settles O27: the completion by what the write carried and what waits for it; the grant and the issue of the next one. -/
theorem storeWriteClosesThePage : Obligations.StoreWriteClosesThePage := by
  refine ⟨fun p w page ends s hport hkind => ⟨fun hends => ?stored, fun h hends hclosing hpage hasked hbuilding hscan => ?alone,
      fun h g flags hends hclosing hpage hwriting hasked hother hbuilding hscan => ?waiting,
      fun h hends hclosing hpage hw hwriting hasked hstate hfull hjob => ?last⟩,
    fun w h closing s hnext => ⟨fun hgrant => ?grant, fun hidle => ?queued, fun hqueued => ?issued⟩,
    fun w s => ⟨rfl, fun hnone => ?unissued⟩,
    fun x h => ⟨x.next_closing_iff h, x.next_writing_iff h⟩⟩
  case stored =>
    have hrow : exec .storeWriteComplete s = .next s.storeWriteDone.settleStep := rfl
    rw [hrow, State.storeWriteDone_eq hport hkind, hends, if_neg (by decide)]
    rfl
  case alone =>
    have hrow : exec .storeWriteComplete s = .next s.storeWriteDone.settleStep := rfl
    rw [State.storeWriteDone_eq hport hkind, if_pos hends] at hrow
    obtain ⟨u, hu⟩ : ∃ u, u = s.portWritten p := ⟨_, rfl⟩
    have hslot : u.slot w = s.slot w := by rw [hu]; rfl
    have hpages : ∀ q, u.page q = s.page q := fun q => by rw [hu]; rfl
    rw [← hu] at hrow
    have hdone := State.pageStored_alone (s := u) (hslot ▸ hclosing) hpage (hslot ▸ hasked)
      (by rw [hpages, hu]; exact hbuilding) (fun hw => by rw [hu]; exact hscan hw)
    obtain ⟨hstore, -, -, hdispatch, hlines, hcharge⟩ := State.page_of_desk
      (State.closedWithNews_desk (s := u) (w := w) (p := page) (check := h.check) (by rw [hpages, hu]; exact hbuilding))
    obtain ⟨hmem, hfree⟩ := State.pageStored_port (w := w) (p := page) (s := u) (by rw [hu]; rfl)
    rw [← hdone] at hstore hdispatch hlines hcharge
    refine ⟨_, hrow, ?_, fun q hq => ?_, ?_, ?_, ?_, hfree, ?_, ?_, ?_, ?_⟩
    · rw [State.page, hstore, ← hpages]
      exact Table.get_set_self _ _ _
    · rw [State.page, hstore, ← hpages]
      exact Table.get_set_of_ne _ _ (Ne.symm hq)
    · rw [State.slot, hstore, ← hslot]
      exact Table.get_set_self _ _ _
    · rw [hdone, State.closedWithNews, State.raise_isPending, decide_eq_true rfl, Bool.or_true]
    · rw [hmem, hu]
      rfl
    · rw [hstore, hu]
      rfl
    · rw [hdispatch, hu]
      rfl
    · rw [hlines, hu]
      rfl
    · rw [hcharge, hu]
      rfl
  case waiting =>
    have hrow : exec .storeWriteComplete s = .next s.storeWriteDone.settleStep := rfl
    rw [State.storeWriteDone_eq hport hkind, if_pos hends] at hrow
    obtain ⟨u, hu⟩ : ∃ u, u = s.portWritten p := ⟨_, rfl⟩
    have hslot : u.slot w = s.slot w := by rw [hu]; rfl
    have hpages : ∀ q, u.page q = s.page q := fun q => by rw [hu]; rfl
    rw [← hu] at hrow
    have hdone := State.pageStored_waiting (s := u) (hslot ▸ hclosing) hpage (hslot ▸ hwriting) (hslot ▸ hasked)
      (by rw [hpages, hu]; exact hbuilding) (fun hw => by rw [hu]; exact hscan hw)
    obtain ⟨v, hv⟩ : ∃ v, v = u.closedWithNews w page h.check := ⟨_, rfl⟩
    obtain ⟨hstore, -⟩ := State.page_of_desk
      (State.closedWithNews_desk (s := u) (w := w) (p := page) (check := h.check) (by rw [hpages, hu]; exact hbuilding))
    obtain ⟨hmem, -⟩ := State.pageStored_port (w := w) (p := page) (s := u) (by rw [hu]; rfl)
    rw [← hv] at hdone hstore
    have hvslot : v.slot w = { s.slot w with closing := none } := by
      rw [State.slot, hstore, ← hslot]
      exact Table.get_set_self _ _ _
    have hvpage : v.page page = { s.page page with state := .closed, closing := false, check := h.check } := by
      rw [State.page, hstore, ← hpages]
      exact Table.get_set_self _ _ _
    have hvnext : v.page g.page = s.page g.page := by
      rw [State.page, hstore, ← hpages]
      exact Table.get_set_of_ne _ _ (Ne.symm hother)
    obtain ⟨q, hq⟩ := State.takeAsked_form (s := v) (w := w) (by rw [hvslot]; exact hwriting) (by rw [hvslot]; exact hasked)
    rw [hq, hvnext] at hdone
    refine ⟨_, hrow, ?_, ?_, ?_, ?_, ?_⟩
    · rw [hdone, ← hvpage]
      exact Table.get_set_of_ne _ _ hother
    · rw [hdone]
      exact Table.get_set_self _ _ _
    · rw [hdone]
      exact Table.get_set_self _ _ _
    · have hpending : v.isPending .stream = true := by
        rw [hv, State.closedWithNews, State.raise_isPending, decide_eq_true rfl, Bool.or_true]
      rw [hdone]
      exact hpending
    · rw [hmem, hu]
      rfl
  case last =>
    have hrow : exec .storeWriteComplete s = .next s.storeWriteDone.settleStep := rfl
    rw [State.storeWriteDone_eq hport hkind, if_pos hends] at hrow
    obtain ⟨u, hu⟩ : ∃ u, u = s.portWritten p := ⟨_, rfl⟩
    subst hw
    rw [← hu] at hrow
    have hslot : u.slot .scan = s.slot .scan := by rw [hu]; rfl
    have hscan : u.scan = s.scan := by rw [hu]; rfl
    have hctx : u.ctx .scan = s.ctx .scan := by rw [hu]; rfl
    obtain ⟨v, hv, hdone⟩ := State.pageStored_last (s := u) (hslot ▸ hclosing) hpage (hslot ▸ hwriting) (hslot ▸ hasked)
      (hscan ▸ hstate) (hscan ▸ hfull) (hctx ▸ hjob)
    obtain ⟨hclosed, hidle, hended, hpending⟩ := v.scanClosed_closed
    rw [hv, hscan] at hended
    obtain ⟨hmem, -⟩ := State.pageStored_port (w := .scan) (p := page) (s := u) (by rw [hu]; rfl)
    rw [← hdone] at hclosed hidle hended hpending
    refine ⟨_, hrow, hclosed, hidle, hended, hpending, ?_⟩
    rw [hmem, hu]
    rfl
  case grant =>
    rw [State.grantPort_of_grantsNext hgrant, State.grantRequest_writer hnext]
    rfl
  case queued => exact State.mem_issueRequests (State.wantsPort_writer hnext) hidle
  case issued =>
    rw [State.issueRequests_storeWrites, State.storeWriteOf, if_pos hqueued, hnext]
    rfl
  case unissued =>
    rw [State.issueRequests_storeWrites, State.storeWriteOf]
    obtain hnone | hnone := hnone
    · rw [hnone, Option.map_none, ite_self]
    · rw [if_neg hnone]

end Sys2Proof.Machine

/-! PROOF. Store reads (R18, R144, R147, R163) and charge record writes (R195). -/

namespace Sys2Proof.Machine

/-! ## The end of a stored page (R44) -/

theorem throughPageEnd_some {e : Bool} {l m : List Byte} (h : throughPageEnd e l = some m) :
    ∃ pre rest, m = pre ++ [0xF3] ∧ l = m ++ rest := by
  have step {b : Byte} {l m : List Byte} {e : Bool} (ih : ∀ k, throughPageEnd e l = some k → ∃ pre rest, k = pre ++ [0xF3] ∧ l = k ++ rest)
      (hmap : (throughPageEnd e l).map (b :: ·) = some m) : ∃ pre rest, m = pre ++ [0xF3] ∧ b :: l = m ++ rest := by
    rw [Option.map_eq_some_iff] at hmap
    obtain ⟨k, hk, rfl⟩ := hmap
    obtain ⟨pre, rest, hpre, hrest⟩ := ih k hk
    exact ⟨b :: pre, rest, congrArg (b :: ·) hpre, congrArg (b :: ·) hrest⟩
  induction l generalizing e m with
  | nil =>
    cases e <;> cases h
  | cons b l ih =>
    cases e with
    | true => exact step (fun k hk => ih hk) h
    | false =>
      rw [throughPageEnd] at h
      split at h
      · next hb =>
        cases h
        exact ⟨[], l, congrArg (fun x => [x]) hb, rfl⟩
      · exact step (fun k hk => ih hk) h

/-! ## Store reads (R144, R147, R163) -/

theorem State.storeReadDone_eq {p : PortRequest} {live : Bool} {s : State} (hport : s.path.port = some p)
    (hkind : p.kind = .storeRead live) :
    s.storeReadDone = if live = true then s.freePort.deliverRead p.requester p.bytes else s.freePort := by
  rw [State.storeReadDone, hport]
  dsimp only
  rw [hkind]

/-- A send stream with the bytes of a read taken. -/
def LineStream.withRead (x : LineStream) (new : List Byte) (check : Option (BitVec 16)) : LineStream :=
  { x with readAhead := x.readAhead ++ new, readPos := x.readPos + new.length, check := check }

theorem lineStreamShown_withRead (x : LineStream) (new : List Byte) (check : Option (BitVec 16)) :
    lineStreamShown (x.withRead new check) = lineStreamShown x := rfl

/-- What a read does to its send stream, before the comparison of its check. -/
theorem State.sendReadDone_eq {n : Fin 4} {bytes new : List Byte} {s : State} (hnew : (s.stream n).pageBytes bytes = new) :
    let x := s.stream n
    let folded := x.check.map fun c => foldBytes c new
    let s1 := s.setStream n (x.withRead new folded)
    s.sendReadDone n bytes = if x.readsEnd bytes (s.page x.page).byteCount = true then
      if folded = some (s.page x.page).check then s1.modStream n fun y => { y with check := none } else s1.checkMismatch n
      else s1 := by
  intro x folded s1
  rw [State.sendReadDone, hnew]
  rfl

/-- A read within the page. -/
theorem State.sendReadDone_within {n : Fin 4} {bytes : List Byte} {s : State}
    (hfound : throughPageEnd (s.stream n).inExtension ((s.stream n).readAhead ++ bytes) = none)
    (hcount : (s.stream n).readPos + bytes.length ≠ (s.page (s.stream n).page).byteCount) :
    s.sendReadDone n bytes = { s with
      streams := s.streams.set n ((s.stream n).withRead bytes ((s.stream n).check.map fun c => foldBytes c bytes)) } := by
  have hend : (s.stream n).readsEnd bytes (s.page (s.stream n).page).byteCount = false := by
    rw [← Bool.not_eq_true, LineStream.readsEnd_iff, hfound]
    rintro (⟨l, hl⟩ | h)
    · cases hl
    · exact hcount h
  rw [State.sendReadDone_eq (LineStream.pageBytes_of_none hfound), hend, if_neg (by decide),
    State.setStream_of_shown_eq (lineStreamShown_withRead ..)]

/-- What a read brings of its page: up to the END-OF-PAGE, or up to the byte count. -/
def LineStream.readBrings (x : LineStream) (bytes : List Byte) (byteCount : Nat) (new : List Byte) : Prop :=
  throughPageEnd x.inExtension (x.readAhead ++ bytes) = some (x.readAhead ++ new) ∨
    (throughPageEnd x.inExtension (x.readAhead ++ bytes) = none ∧ x.readPos + bytes.length = byteCount ∧ new = bytes)

theorem LineStream.readBrings.pageBytes {x : LineStream} {bytes new : List Byte} {byteCount : Nat}
    (h : x.readBrings bytes byteCount new) : x.pageBytes bytes = new ∧ x.readsEnd bytes byteCount = true := by
  obtain h | ⟨h, hcount, hnew⟩ := h
  · exact ⟨LineStream.pageBytes_of_end h, (LineStream.readsEnd_iff ..).mpr (.inl ⟨_, h⟩)⟩
  · exact ⟨(LineStream.pageBytes_of_none h).trans hnew.symm, (LineStream.readsEnd_iff ..).mpr (.inr hcount)⟩

/-- The page's end, with its check as recorded. -/
theorem State.sendReadDone_match {n : Fin 4} {bytes new : List Byte} {s : State}
    (h : (s.stream n).readBrings bytes (s.page (s.stream n).page).byteCount new)
    (hcheck : ((s.stream n).check.map fun c => foldBytes c new) = some (s.page (s.stream n).page).check) :
    s.sendReadDone n bytes = { s with streams := s.streams.set n ((s.stream n).withRead new none) } := by
  obtain ⟨hnew, hend⟩ := h.pageBytes
  obtain ⟨x, hx⟩ : ∃ x, x = (s.stream n).withRead new ((s.stream n).check.map fun c => foldBytes c new) := ⟨_, rfl⟩
  have hset : s.setStream n x = { s with streams := s.streams.set n x } := by
    rw [hx]
    exact State.setStream_of_shown_eq (lineStreamShown_withRead ..)
  have hstream : ({ s with streams := s.streams.set n x } : State).stream n = x := Table.get_set_self _ _ _
  rw [State.sendReadDone_eq hnew, if_pos hend, if_pos hcheck, ← hx, hset, State.modStream, hstream,
    State.setStream_of_shown_eq (by rw [hstream]; rfl), hx]
  exact congrArg (fun l => ({ s with streams := l } : State)) (Table.set_set _ _ _ _)

/-- A stream that a mismatch of the page check stalls. -/
def LineStream.mismatched (x : LineStream) : LineStream :=
  { x with
    state := .stalled, stall := .damaged, drain := .none, forced := true, readAhead := [], ready := [], check := none }

/-- A page's record with its stored bytes found damaged: only a CLOSED page is marked. -/
def PageRecord.damage (r : PageRecord) : PageRecord := if r.state = .closed then { r with damaged := true } else r

/-- A mismatch stalls the stream, marks a CLOSED page DAMAGED and discards the stream's job. -/
theorem State.checkMismatch_form (n : Fin 4) (s : State) :
    let p := (s.stream n).page
    ∃ (q : List QueueEntry) (coder : Coder), s.checkMismatch n = { s with
      streams := s.streams.set n (s.stream n).mismatched,
      store := { s.store with pages := s.store.pages.set p (s.page p).damage },
      coder := coder,
      ctl := { s.ctl with queue := q, notices := s.ctl.notices ||| Notice.stream.bit } } := by
  intro p
  obtain ⟨coder, hdiscard⟩ : ∃ coder, s.discardJob (.line n) = { s with coder := coder } := by
    unfold State.discardJob
    dsimp only
    split
    · split
      · exact ⟨_, rfl⟩
      · exact ⟨_, rfl⟩
    · exact ⟨_, rfl⟩
  obtain ⟨r, hr⟩ : ∃ r, r = (s.page p).damage := ⟨_, rfl⟩
  obtain ⟨q₁, hmark⟩ : ∃ q, ({ s with coder := coder } : State).markDamaged p =
      ({ s with coder := coder, store := { s.store with pages := s.store.pages.set p r } } : State).withQueue q := by
    rw [State.markDamaged, hr, PageRecord.damage]
    split
    · next hclosed =>
      obtain ⟨q, hq, -⟩ := State.setPage_form p { s.page p with damaged := true } ({ s with coder := coder } : State)
      refine ⟨q, ?_⟩
      rw [if_pos (by exact hclosed)]
      exact hq
    · next hclosed =>
      refine ⟨s.ctl.queue, ?_⟩
      rw [if_neg (by exact hclosed)]
      exact congrArg (fun l => ({ s with coder := coder, store := { s.store with pages := l } } : State)) (Table.set_get _ _).symm
  obtain ⟨u, hu⟩ : ∃ u : State, u =
    ({ s with coder := coder, store := { s.store with pages := s.store.pages.set p r } } : State).withQueue q₁ := ⟨_, rfl⟩
  obtain ⟨q₂, hset, -⟩ := State.setStream_form n (s.stream n).mismatched u
  obtain ⟨q₃, hraise, -⟩ :=
    State.raise_form .stream (({ u with streams := u.streams.set n (s.stream n).mismatched } : State).withQueue q₂)
  refine ⟨q₃, coder, ?_⟩
  have hchain : s.checkMismatch n = ((((s.discardJob (.line n)).markDamaged p).setStream n (s.stream n).mismatched).raise .stream) := rfl
  rw [hchain, hdiscard, hmark, ← hu, hset, hraise, hu, hr]
  rfl

/-- The page's end, with another check than recorded. -/
theorem State.sendReadDone_mismatch {n : Fin 4} {bytes new : List Byte} {s : State}
    (h : (s.stream n).readBrings bytes (s.page (s.stream n).page).byteCount new)
    (hcheck : ((s.stream n).check.map fun c => foldBytes c new) ≠ some (s.page (s.stream n).page).check) :
    let p := (s.stream n).page
    ∃ (q : List QueueEntry) (coder : Coder), s.sendReadDone n bytes = { s with
      streams := s.streams.set n { (s.stream n).mismatched with readPos := (s.stream n).readPos + new.length },
      store := { s.store with pages := s.store.pages.set p (s.page p).damage },
      coder := coder,
      ctl := { s.ctl with queue := q, notices := s.ctl.notices ||| Notice.stream.bit } } := by
  intro p
  obtain ⟨hnew, hend⟩ := h.pageBytes
  obtain ⟨x, hx⟩ : ∃ x, x = (s.stream n).withRead new ((s.stream n).check.map fun c => foldBytes c new) := ⟨_, rfl⟩
  have hset : s.setStream n x = { s with streams := s.streams.set n x } := by
    rw [hx]
    exact State.setStream_of_shown_eq (lineStreamShown_withRead ..)
  have hstream : ({ s with streams := s.streams.set n x } : State).stream n = x := Table.get_set_self _ _ _
  obtain ⟨q, coder, hmismatch⟩ := ({ s with streams := s.streams.set n x } : State).checkMismatch_form n
  have hpage : x.page = p := by rw [hx]; rfl
  rw [hstream, hpage] at hmismatch
  refine ⟨q, coder, ?_⟩
  rw [State.sendReadDone_eq hnew, if_pos hend, if_neg hcheck, ← hx, hset, hmismatch, hx]
  exact congrArg (fun l => ({ s with
    streams := l,
    store := { s.store with pages := s.store.pages.set p (s.page p).damage },
    coder := coder, ctl := { s.ctl with queue := q, notices := s.ctl.notices ||| Notice.stream.bit } } : State))
    (Table.set_set _ _ _ _)

/-- Settles O28: the completion by the request's stream; framing of the END-OF-PAGE; and the reads' grants. -/
theorem storeReadReachesItsStream : Obligations.StoreReadReachesItsStream := by
  refine ⟨fun p s hport => ⟨fun hkind => ?dropped, fun hkind hprint => ?print, fun n hkind hline => ⟨fun hfound hcount => ?within,
      fun new hnew => ⟨fun hfolded => ?whole, fun hfolded => ?mismatch⟩⟩⟩,
    fun b c l => ⟨rfl, rfl, fun hlow hhigh => ?long, fun hshort hne => ?short, rfl, fun e m h => throughPageEnd_some h⟩,
    fun s => ⟨fun hgrant => ?printGrant, fun n hgrant hnone => ?sendGrant⟩⟩
  case dropped =>
    have hrow : exec .storeReadComplete s = .next s.storeReadDone.settleStep := rfl
    rw [hrow, State.storeReadDone_eq hport hkind, if_neg (by decide)]
    rfl
  case print =>
    have hrow : exec .storeReadComplete s = .next s.storeReadDone.settleStep := rfl
    have hset : s.freePort.printReadDone p.bytes = { s.freePort with print := { s.print with
        readAhead := s.print.readAhead ++ p.bytes, readPos := s.print.readPos + p.bytes.length } } :=
      State.setPrint_of_shown_eq rfl
    rw [hrow, State.storeReadDone_eq hport hkind, if_pos rfl, hprint, State.deliverRead, hset]
    rfl
  case within =>
    have hrow : exec .storeReadComplete s = .next s.storeReadDone.settleStep := rfl
    rw [hrow, State.storeReadDone_eq hport hkind, if_pos rfl, hline, State.deliverRead,
      State.sendReadDone_within (s := s.freePort) hfound hcount]
    rfl
  case whole =>
    have hrow : exec .storeReadComplete s = .next s.storeReadDone.settleStep := rfl
    rw [hrow, State.storeReadDone_eq hport hkind, if_pos rfl, hline, State.deliverRead,
      State.sendReadDone_match (s := s.freePort) (new := new) hnew hfolded]
    rfl
  case mismatch =>
    have hrow : exec .storeReadComplete s = .next s.storeReadDone.settleStep := rfl
    obtain ⟨q, coder, hdone⟩ := State.sendReadDone_mismatch (s := s.freePort) (n := n) (new := new) hnew hfolded
    rw [State.storeReadDone_eq hport hkind, if_pos rfl, hline, State.deliverRead, hdone] at hrow
    refine ⟨_, hrow, Table.get_set_self _ _ _, fun m hm => Table.get_set_of_ne _ _ (Ne.symm hm), Table.get_set_self _ _ _,
      fun r hr => Table.get_set_of_ne _ _ (Ne.symm hr), ?_, rfl, rfl, rfl, rfl, rfl⟩
    rw [State.isPending, BitVec.getLsbD_or, Notice.bit_getLsbD .stream (by decide), decide_eq_true rfl, Bool.or_true]
  case long =>
    have hne : ¬b = codeEndOfPage := by
      rintro rfl
      exact absurd hhigh (by decide)
    rw [throughPageEnd, if_neg hne, isLongRun_of_range hlow hhigh, throughPageEnd, Option.map_map]
    rfl
  case short =>
    rw [throughPageEnd, if_neg (show ¬b = codeEndOfPage from hne), isLongRun_of_outside (by omega)]
  case printGrant =>
    rw [State.grantPort_of_grantsNext hgrant]
    rfl
  case sendGrant =>
    rw [State.grantPort_of_grantsNext hgrant, State.grantRequest, hnone]
    rfl

/-! ## Charge record writes (R195, section 12.6) -/

theorem leValue_le (n v : Nat) : leValue (le n v) = v % 256 ^ n := by
  induction n generalizing v with
  | zero => simp [le, leValue, Nat.mod_one]
  | succ n ih =>
    have hsplit : v % 256 ^ (n + 1) = v % 256 + 256 * (v / 256 % 256 ^ n) := by rw [Nat.pow_succ', Nat.mod_mul]
    rw [le, leValue, ih, BitVec.toNat_ofNat, hsplit]

/-- The fields of a charge record before its number, in their order. -/
def ChargeRecord.segments (r : ChargeRecord) : List (List Byte) :=
  [le 2 r.index.toNat, le 1 r.line.val, le 1 (if r.incoming then 2 else 1), le 2 r.code,
    optionField 1 (r.document.map (·.val)), le 1 r.band.val, le 1 r.method.code, le 1 r.cause.code,
    le 1 (flag r.timeValid + 2 * flag r.answerTime.isSome), le 1 r.pagesConfirmed, le 2 (min 65535 r.rejected), [0, 0],
    le 4 r.seizeTime.second, le 2 r.seizeTime.day.toNat, le 4 r.endTime.second, le 2 r.endTime.day.toNat,
    r.answerTime.elim (List.replicate 4 0) fun t => le 4 t.second, r.answerTime.elim (List.replicate 2 0) fun t => le 2 t.day.toNat,
    [0, 0], le 4 r.seconds.toNat, le 4 r.units.toNat]

/-- The number of bytes of each of those fields. -/
def recordWidths : List Nat := [2, 1, 1, 2, 1, 1, 1, 1, 1, 1, 2, 2, 4, 2, 4, 2, 4, 2, 2, 4, 4]

theorem ChargeRecord.segments_widths (r : ChargeRecord) : r.segments.map List.length = recordWidths := by
  have hdocument : (optionField 1 (r.document.map (·.val))).length = 1 := by cases r.document <;> rfl
  have hsecond : (r.answerTime.elim (List.replicate 4 0) fun t => le 4 t.second).length = 4 := by cases r.answerTime <;> rfl
  have hday : (r.answerTime.elim (List.replicate 2 0) fun t => le 2 t.day.toNat).length = 2 := by cases r.answerTime <;> rfl
  simp only [ChargeRecord.segments, List.map_cons, List.map_nil, le_length, hdocument, hsecond, hday, List.length_cons,
    List.length_nil, recordWidths]

/-- The bytes of a charge record before its number. -/
def ChargeRecord.front (r : ChargeRecord) : List Byte := r.segments.flatten

theorem ChargeRecord.front_length (r : ChargeRecord) : r.front.length = 44 := by
  rw [ChargeRecord.front, List.length_flatten, r.segments_widths]
  rfl

/-- One of the lists that are put together, found again by its place. -/
theorem take_drop_flatten {α : Type} (l : List (List α)) (k : Nat) (hk : k < l.length) :
    (l.flatten.drop ((l.map List.length).take k).sum).take l[k].length = l[k] := by
  induction l generalizing k with
  | nil => exact absurd hk (Nat.not_lt_zero _)
  | cons x l ih =>
    cases k with
    | zero => simp
    | succ k =>
      have hk' : k < l.length := by simpa using hk
      simp only [List.flatten_cons, List.map_cons, List.take_succ_cons, List.sum_cons, List.getElem_cons_succ]
      rw [List.drop_append, List.drop_eq_nil_of_le (by omega), List.nil_append, Nat.add_sub_cancel_left, ih k hk']

/-- A field before the number, by its place among them. -/
theorem ChargeRecord.field_segment (r : ChargeRecord) {k : Nat} (hk : k < r.segments.length) {i n : Nat}
    (hi : i = (recordWidths.take k).sum) (hn : n = r.segments[k].length) : (r.front.drop i).take n = r.segments[k] := by
  rw [hi, hn, ← r.segments_widths]
  exact take_drop_flatten _ _ _

theorem padTo_length (n : Nat) (l : List Byte) : (padTo n l).length = n := by simp [padTo]

theorem padTo_eq {n : Nat} {l : List Byte} (h : l.length ≤ n) : padTo n l = l ++ List.replicate (n - l.length) 0 := by
  rw [padTo, List.take_append, List.take_of_length_le h, List.take_replicate, Nat.min_eq_left (by omega)]

theorem ChargeRecord.bytes_eq (r : ChargeRecord) : r.bytes = r.front ++ (numberField r.number ++ List.replicate 7 0) := by
  have hlength : (r.front ++ numberField r.number).length = 57 := by
    rw [List.length_append, r.front_length, numberField, padTo_length]
  have hbytes : r.bytes = padTo 64 (r.front ++ numberField r.number) := by
    simp only [ChargeRecord.front, ChargeRecord.segments, List.flatten_cons, List.flatten_nil, List.append_nil]
    rw [ChargeRecord.bytes]
    cases r.answerTime with
    | none => simp only [List.append_assoc, timeBytes, Option.elim_none]; rfl
    | some t => simp only [List.append_assoc, timeBytes, Option.elim_some]
  rw [hbytes, padTo_eq (by omega), hlength, List.append_assoc]

/-- A field before the number. -/
theorem ChargeRecord.field_front (r : ChargeRecord) {i n : Nat} (h : i + n ≤ 44) :
    (r.bytes.drop i).take n = (r.front.drop i).take n := by
  rw [r.bytes_eq, List.drop_append_of_le_length (by rw [r.front_length]; omega),
    List.take_append_of_le_length (by rw [List.length_drop, r.front_length]; omega)]

/-- A field of the number, or behind it. -/
theorem ChargeRecord.field_number (r : ChargeRecord) (i n : Nat) :
    (r.bytes.drop (44 + i)).take n = ((numberField r.number ++ List.replicate 7 0).drop i).take n := by
  rw [r.bytes_eq, ← r.front_length, List.drop_append, List.drop_eq_nil_of_le (by omega), List.nil_append, Nat.add_sub_cancel_left]

theorem DialChar.code_lt (c : DialChar) : c.code < 16 := by
  cases c with
  | digit d => exact d.isLt.trans (by decide)
  | _ => decide

/-- Four bits of a number's characters: the low half of a byte is the first of its two characters. -/
theorem charBytes_nibble (l : List DialChar) (i : Nat) :
    (((charBytes l).getD (i / 2) 0).toNat / 16 ^ (i % 2)) % 16 = (l[i]?.map DialChar.code).getD 0 := by
  induction l using charBytes.induct generalizing i with
  | case1 a b rest ih =>
    have ha := a.code_lt
    have hb := b.code_lt
    match i with
    | 0 =>
      simp [charBytes]
      omega
    | 1 =>
      simp [charBytes]
      omega
    | i + 2 =>
      have hdiv : (i + 2) / 2 = i / 2 + 1 := by omega
      have hmod : (i + 2) % 2 = i % 2 := by omega
      rw [charBytes, hdiv, hmod, List.getD_cons_succ, ih]
      simp
  | case2 a =>
    have ha := a.code_lt
    match i with
    | 0 =>
      simp [charBytes]
      omega
    | 1 =>
      simp [charBytes]
      omega
    | i + 2 =>
      have hdiv : (i + 2) / 2 = i / 2 + 1 := by omega
      simp [charBytes, hdiv]
  | case3 => simp [charBytes]

theorem charBytes_length (l : List DialChar) : (charBytes l).length = (l.length + 1) / 2 := by
  induction l using charBytes.induct with
  | case1 a b rest ih =>
    simp only [charBytes, List.length_cons, ih]
    omega
  | case2 a => simp [charBytes]
  | case3 => simp [charBytes]

/-- A byte of the number field. -/
theorem ChargeRecord.field_char (r : ChargeRecord) (h : r.number.length ≤ 24) {k : Nat} (hk : k < 12) :
    leValue ((r.bytes.drop (45 + k)).take 1) = ((charBytes r.number).getD k 0).toNat := by
  have hlength := charBytes_length r.number
  have hfield : numberField r.number =
      BitVec.ofNat 8 r.number.length :: (charBytes r.number ++ List.replicate (12 - (charBytes r.number).length) 0) := by
    rw [numberField, padTo_eq (by rw [List.length_cons]; omega), List.cons_append, List.length_cons]
    congr 3
    omega
  have hget : ((charBytes r.number ++ List.replicate (12 - (charBytes r.number).length) (0 : Byte) ++ List.replicate 7 0).drop k).take 1 =
      [(charBytes r.number).getD k 0] := by
    rw [List.take_one_drop_eq_of_lt_length (by simp; omega)]
    simp only [List.get_eq_getElem, List.getElem_append, List.length_append, List.length_replicate, List.getElem_replicate]
    rw [dif_pos (by omega)]
    split
    · next hlt => rw [List.getD_eq_getElem _ _ hlt]
    · next hge => rw [List.getD_eq_default _ _ (by omega)]
  rw [show 45 + k = 44 + (k + 1) by omega, r.field_number, hfield, List.cons_append, List.drop_succ_cons, hget]
  simp [leValue]

/-- Settles O29: the completion, the grant, and the fields of a record's 64 bytes. -/
theorem chargeRecordIsWritten : Obligations.ChargeRecordIsWritten := by
  refine ⟨fun p s hport hkind => ?written, fun r rest s hgrant hqueue => ?grant, fun r hnumber => ?fields⟩
  case written =>
    have hrow : exec .chargeRecordWriteComplete s = .next s.chargeWriteDone.settleStep := rfl
    obtain ⟨u, hu⟩ : ∃ u : State, u = { s.portWritten p with charge := { s.charge with
      recordQueue := s.charge.recordQueue.tail, writeIndex := s.charge.writeIndex + 1 } } := ⟨_, rfl⟩
    have hdone : s.chargeWriteDone = u.rewrite .counters := by
      rw [State.chargeWriteDone, hport]
      dsimp only
      rw [hkind, hu]
      rfl
    obtain ⟨q, hq, -, hmem⟩ := State.rewrite_form .counters u
    rw [hdone, hq, hu] at hrow
    exact ⟨_, hrow, rfl, hmem⟩
  case grant =>
    rw [State.grantPort_of_grantsNext hgrant, State.grantRequest, hqueue]
    rfl
  case fields =>
    intro field
    have hfield {k : Nat} (hk : k < 21) {i n : Nat} (hin : i + n ≤ 44) (hi : i = (recordWidths.take k).sum)
        (hn : n = (r.segments[k]'hk).length) : field i n = leValue (r.segments[k]'hk) := by
      rw [← r.field_segment hk hi hn, ← r.field_front hin]
    have hmod {k : Nat} (hk : k < 21) {i n v : Nat} (hin : i + n ≤ 44) (hi : i = (recordWidths.take k).sum)
        (hseg : r.segments[k]'hk = le n v) : field i n = v % 256 ^ n := by
      rw [hfield hk hin hi (by rw [hseg, le_length]), hseg, leValue_le]
    have hlt {k : Nat} (hk : k < 21) {i n v : Nat} (hin : i + n ≤ 44) (hi : i = (recordWidths.take k).sum)
        (hseg : r.segments[k]'hk = le n v) (hv : v < 256 ^ n) : field i n = v := by
      rw [hmod hk hin hi hseg, Nat.mod_eq_of_lt hv]
    have hdigit {i : Nat} (h : i < 24) : field (45 + i / 2) 1 / 16 ^ (i % 2) % 16 = (r.number[i]?.map DialChar.code).getD 0 := by
      rw [← charBytes_nibble, ← r.field_char hnumber (by omega)]
    refine ⟨?length, hlt (k := 0) (by decide) (by decide) rfl rfl r.index.isLt,
      hlt (k := 1) (by decide) (by decide) rfl rfl (r.line.isLt.trans (by decide)),
      hlt (k := 2) (by decide) (by decide) rfl rfl (by split <;> decide),
      hmod (k := 3) (by decide) (by decide) rfl rfl, ?document,
      hlt (k := 5) (by decide) (by decide) rfl rfl (r.band.isLt.trans (by decide)),
      hlt (k := 6) (by decide) (by decide) rfl rfl (by cases r.method <;> decide),
      hlt (k := 7) (by decide) (by decide) rfl rfl (by cases r.cause <;> decide), ?flags,
      hmod (k := 9) (by decide) (by decide) rfl rfl,
      hlt (k := 10) (by decide) (by decide) rfl rfl ((Nat.min_le_left _ _).trans_lt (by decide)),
      hfield (k := 11) (by decide) (by decide) rfl rfl, hmod (k := 12) (by decide) (by decide) rfl rfl,
      hlt (k := 13) (by decide) (by decide) rfl rfl r.seizeTime.day.isLt, hmod (k := 14) (by decide) (by decide) rfl rfl,
      hlt (k := 15) (by decide) (by decide) rfl rfl r.endTime.day.isLt, fun t ht => ⟨?second, ?day⟩, fun hnone => ?unanswered,
      hfield (k := 18) (by decide) (by decide) rfl rfl, hlt (k := 19) (by decide) (by decide) rfl rfl r.seconds.isLt,
      hlt (k := 20) (by decide) (by decide) rfl rfl r.units.isLt, ?count, fun i hi => ?digit, fun i hi hout => ?zero, ?rest⟩
    case length =>
      rw [r.bytes_eq, List.length_append, List.length_append, r.front_length, numberField, padTo_length, List.length_replicate]
    case document =>
      cases hd : r.document with
      | none =>
        have hbyte : r.segments[4]'(show 4 < 21 by decide) = [0xFF] := by simp [ChargeRecord.segments, hd, optionField]
        have hall := hfield (k := 4) (i := 6) (n := 1) (by decide) (by decide) rfl (by rw [hbyte]; rfl)
        rw [hall, hbyte]
        rfl
      | some d =>
        exact hlt (k := 4) (i := 6) (n := 1) (v := d.val) (by decide) (by decide) rfl
          (by simp [ChargeRecord.segments, hd, optionField]) (d.isLt.trans (by decide))
    case flags =>
      have hflags : flag r.timeValid + 2 * flag r.answerTime.isSome =
          (if r.timeValid = true then 1 else 0) + (if r.answerTime = none then 0 else 2) := by
        cases r.timeValid <;> cases r.answerTime <;> simp [flag]
      rw [← hflags]
      exact hlt (k := 8) (by decide) (by decide) rfl rfl (by cases r.timeValid <;> cases r.answerTime <;> simp [flag])
    case second => exact hmod (k := 16) (i := 28) (n := 4) (v := t.second) (by decide) (by decide) rfl (by simp [ChargeRecord.segments, ht])
    case day =>
      exact hlt (k := 17) (i := 32) (n := 2) (v := t.day.toNat) (by decide) (by decide) rfl
        (by simp [ChargeRecord.segments, ht]) t.day.isLt
    case unanswered =>
      have hsecond := r.field_segment (k := 16) (show 16 < 21 by decide) (i := 28) (n := 4) rfl (by simp [ChargeRecord.segments, hnone])
      have hday := r.field_segment (k := 17) (show 17 < 21 by decide) (i := 32) (n := 2) rfl (by simp [ChargeRecord.segments, hnone])
      have hbytes : (r.bytes.drop 28).take 6 = List.replicate 6 0 := by
        rw [r.field_front (by decide), show 6 = 4 + 2 from rfl, List.take_add, List.drop_drop, hsecond, hday]
        simp [ChargeRecord.segments, hnone]
      exact congrArg leValue hbytes
    case count =>
      have hbytes : (r.bytes.drop 44).take 1 = [BitVec.ofNat 8 r.number.length] := by
        rw [r.field_number 0 1, numberField, padTo]
        rfl
      refine (congrArg leValue hbytes).trans ?_
      simp only [leValue, BitVec.toNat_ofNat]
      omega
    case digit =>
      rw [hdigit (by omega), List.getElem?_eq_getElem hi]
      rfl
    case zero =>
      rw [hdigit hi, List.getElem?_eq_none hout]
      rfl
    case rest =>
      have hbytes : (r.bytes.drop 57).take 7 = List.replicate 7 0 := by
        rw [r.field_number 13 7, List.drop_append, numberField, padTo_length, List.drop_eq_nil_of_le (by rw [padTo_length]),
          List.nil_append]
        rfl
      exact congrArg leValue hbytes

end Sys2Proof.Machine

/-! PROOF. The line code: what the encoder writes is valid and decodes to the pixels (R45, R47, R49, R50). -/

namespace Sys2Proof.Machine

/-! ## Tokens of runs (R43, R47) -/

theorem runBytes_length_le (n : Nat) : (runBytes n).length ≤ 2 := by
  rw [runBytes]
  split <;> simp

/-- A run's bytes, before the bytes that follow, are its token. -/
theorem tokens_runBytes {n : Nat} (hn : n < 12288) {b : Byte} {l : List Byte} :
    tokens (runBytes n ++ b :: l) = .run n :: tokens (b :: l) := by
  rw [runBytes]
  split
  · next h =>
    have hval : (BitVec.ofNat 8 n).toNat = n := by rw [BitVec.toNat_ofNat, Nat.mod_eq_of_lt (by omega)]
    have hlong : isLongRun (BitVec.ofNat 8 n) = false := isLongRun_of_outside (.inl (by rw [hval]; omega))
    rw [List.cons_append, List.nil_append, tokens, hlong, if_neg (by decide), tokenOf, hval, if_pos (by omega)]
  · next h =>
    have hval : (BitVec.ofNat 8 (0xC0 + n / 256)).toNat = 0xC0 + n / 256 := by rw [BitVec.toNat_ofNat, Nat.mod_eq_of_lt (by omega)]
    have hext : (BitVec.ofNat 8 (n % 256)).toNat = n % 256 := by rw [BitVec.toNat_ofNat, Nat.mod_mod]
    have hlong : isLongRun (BitVec.ofNat 8 (0xC0 + n / 256)) = true :=
      isLongRun_of_range (by rw [hval]; omega) (by rw [hval]; omega)
    have hrun : longRunLength (BitVec.ofNat 8 (0xC0 + n / 256)) (BitVec.ofNat 8 (n % 256)) = n := by
      rw [longRunLength, hval, hext]
      omega
    rw [List.cons_append, List.cons_append, List.nil_append, tokens, hlong, if_pos rfl, hrun]

/-- The bytes of a line of runs. -/
def lineBytes (rs : List Nat) : List Byte := (rs.map runBytes).flatten ++ [codeEndOfLine]

theorem lineBytes_cons (n : Nat) (rs : List Nat) : lineBytes (n :: rs) = runBytes n ++ lineBytes rs := by
  simp [lineBytes]

theorem tokens_lineBytes {rs : List Nat} (h : ∀ n ∈ rs, n < 12288) : tokens (lineBytes rs) = rs.map .run ++ [.endOfLine] := by
  induction rs with
  | nil => rfl
  | cons n rs ih =>
    obtain ⟨b, l, hl⟩ : ∃ b l, lineBytes rs = b :: l := List.exists_cons_of_ne_nil (by simp [lineBytes])
    rw [lineBytes_cons, hl, tokens_runBytes (h n List.mem_cons_self), ← hl, ih fun m hm => h m (List.mem_cons_of_mem _ hm)]
    rfl

theorem countedTokens_lineBytes {rs : List Nat} (h : ∀ n ∈ rs, n < 12288) :
    countedTokens (lineBytes rs) = rs.map .run ++ [.endOfLine] := by
  rw [countedTokens, tokens_lineBytes h, List.filter_eq_self]
  intro t ht
  rw [List.mem_append, List.mem_map, List.mem_singleton] at ht
  obtain ⟨n, -, rfl⟩ | rfl := ht <;> rfl

theorem countedLength_lineBytes {rs : List Nat} (h : ∀ n ∈ rs, n < 12288) :
    countedLength (lineBytes rs) = (lineBytes rs).length := by
  have hnone : (tokens (lineBytes rs)).countP (· = .fill) = 0 := by
    rw [tokens_lineBytes h, List.countP_eq_zero]
    intro t ht
    rw [List.mem_append, List.mem_map, List.mem_singleton] at ht
    obtain ⟨n, -, rfl⟩ | rfl := ht <;> simp
  rw [countedLength, hnone, Nat.sub_zero]

theorem runLengths_map_run (rs : List Nat) : runLengths (rs.map .run) = some rs := by
  induction rs with
  | nil => rfl
  | cons n rs ih => rw [List.map_cons, runLengths, ih, Option.map_some]

theorem zeroOnlyFirst_of_tail {rs : List Nat} (h : ∀ n ∈ rs.tail, n ≠ 0) : zeroOnlyFirst rs = true := by
  cases rs with
  | nil => rfl
  | cons n rs => exact List.all_eq_true.mpr fun m hm => decide_eq_true (h m hm)

/-- A line of runs that add up to the width, none but the first empty, and that is short enough. -/
theorem lineValid_lineBytes {w : Width} {rs : List Nat} (hsum : rs.sum = w.pixels) (htail : ∀ n ∈ rs.tail, n ≠ 0)
    (hlength : (lineBytes rs).length ≤ 1024) : lineValid w (lineBytes rs) = true := by
  have hsmall : ∀ n ∈ rs, n < 12288 := by
    intro n hn
    have hle := List.le_sum_of_mem hn
    have hwidth : w.pixels ≤ 2304 := by cases w <;> decide
    omega
  simp only [lineValid, countedTokens_lineBytes hsmall, countedLength_lineBytes hsmall, List.dropLast_concat, runLengths_map_run,
    List.getLast?_concat, hsum, zeroOnlyFirst_of_tail htail, decide_true, Bool.true_and, Bool.and_true, Bool.or_true]
  exact decide_eq_true hlength

/-! ## The runs of a line (R47) -/

theorem runsFrom_sum (c : Bool) (k : Nat) (l : List Bool) : (runsFrom c k l).sum = k + l.length := by
  induction l generalizing c k with
  | nil => simp [runsFrom]
  | cons p l ih =>
    rw [runsFrom, List.length_cons]
    split
    · rw [ih]
      omega
    · rw [List.sum_cons, ih]
      omega

theorem runsFrom_pos {c : Bool} {k : Nat} (hk : k ≠ 0) (l : List Bool) : ∀ n ∈ runsFrom c k l, n ≠ 0 := by
  induction l generalizing c k with
  | nil => simpa [runsFrom] using hk
  | cons p l ih =>
    rw [runsFrom]
    split
    · exact ih (Nat.succ_ne_zero k)
    · intro n hn
      rw [List.mem_cons] at hn
      obtain rfl | hn := hn
      · exact hk
      · exact ih Nat.one_ne_zero n hn

theorem runsFrom_tail_pos (c : Bool) (k : Nat) (l : List Bool) : ∀ n ∈ (runsFrom c k l).tail, n ≠ 0 := by
  induction l generalizing c k with
  | nil => simp [runsFrom]
  | cons p l ih =>
    rw [runsFrom]
    split
    · exact ih _ _
    · exact runsFrom_pos Nat.one_ne_zero l

/-- Runs painted in turn, beginning with a colour. -/
def paint : Bool → List Nat → List Bool
  | _, [] => []
  | c, n :: rest => List.replicate n c ++ paint (!c) rest

theorem paint_runsFrom (c : Bool) (k : Nat) (l : List Bool) : paint c (runsFrom c k l) = List.replicate k c ++ l := by
  induction l generalizing c k with
  | nil => simp [runsFrom, paint]
  | cons p l ih =>
    rw [runsFrom]
    split
    · next h =>
      rw [ih, h, List.replicate_succ', List.append_assoc, List.singleton_append]
    · next h =>
      have hcolour : (!c) = p := by cases c <;> cases p <;> simp_all
      rw [paint, hcolour, ih]
      rfl

/-! ## The decoder on a line of runs (R50) -/

theorem decodeRuns_eq_paint {w pos : Nat} {c first : Bool} {rs : List Nat} (hsum : pos + rs.sum ≤ w)
    (hfirst : first = false → ∀ n ∈ rs, n ≠ 0) (htail : ∀ n ∈ rs.tail, n ≠ 0) :
    decodeRuns w c pos first (rs.map .run ++ [.endOfLine]) = paint c rs := by
  induction rs generalizing c pos first with
  | nil => rfl
  | cons n rs ih =>
    rw [List.sum_cons] at hsum
    rw [List.map_cons, List.cons_append, decodeRuns, if_neg, if_neg (by omega), paint,
      ih (by omega) (fun _ => htail) (fun m hm => htail m (List.mem_of_mem_tail hm))]
    rintro ⟨hzero, hnot⟩
    exact hfirst hnot n List.mem_cons_self hzero

theorem isRepeatLine_lineBytes {rs : List Nat} (h : ∀ n ∈ rs, n < 12288) : isRepeatLine (lineBytes rs) = false := by
  rw [isRepeatLine, countedTokens_lineBytes h, decide_eq_false_iff_not]
  cases rs with
  | nil => simp
  | cons n rs => simp

/-! ## The encoder (R47, R49) -/

/-- What the encoder writes is a line of runs: those given, or those before the clipping and their remainder. -/
theorem encodeRuns_eq_lineBytes {written : Nat} {rs : List Nat} (hwritten : written ≤ 1021) :
    ∃ rs', (encodeRuns written rs).1 = lineBytes rs' ∧ rs'.sum = rs.sum ∧ written + (lineBytes rs').length ≤ 1024 ∧
      ((encodeRuns written rs).2 = false → rs' = rs) ∧ ((∀ n ∈ rs, n ≠ 0) → ∀ n ∈ rs', n ≠ 0) ∧
      ((∀ n ∈ rs.tail, n ≠ 0) → ∀ n ∈ rs'.tail, n ≠ 0) := by
  induction rs generalizing written with
  | nil => exact ⟨[], rfl, rfl, by simp [lineBytes]; omega, fun _ => rfl, fun h => h, fun h => h⟩
  | cons r rs ih =>
    have hlength := runBytes_length_le r
    rw [encodeRuns]
    dsimp only
    split
    · refine ⟨[r + rs.sum], by simp [lineBytes], by simp, ?_, ?_, ?_, ?_⟩
      · have := runBytes_length_le (r + rs.sum)
        simp only [lineBytes, List.map_cons, List.map_nil, List.flatten_cons, List.flatten_nil, List.append_nil,
          List.length_append, List.length_singleton]
        omega
      · intro h
        cases h
      · intro h n hn
        have := h r List.mem_cons_self
        rw [List.mem_singleton] at hn
        omega
      · intro _ n hn
        cases hn
    · obtain ⟨rs', hbytes, hsum, hfit, hsame, hpos, -⟩ := ih (written := written + (runBytes r).length) (by omega)
      refine ⟨r :: rs', by rw [lineBytes_cons, hbytes], by rw [List.sum_cons, List.sum_cons, hsum], ?_, fun h => by rw [hsame h],
        fun h n hn => ?_, fun h n hn => hpos h n hn⟩
      · rw [lineBytes_cons, List.length_append]
        omega
      · rw [List.mem_cons] at hn
        obtain rfl | hn := hn
        · exact h n List.mem_cons_self
        · exact hpos (fun m hm => h m (List.mem_cons_of_mem _ hm)) n hn

/-- Settles O30: the encoder writes a line of runs of the width, and an unclipped one is the pixels' own runs. -/
theorem lineCodeRoundTrip : Obligations.LineCodeRoundTrip := by
  intro w pixels reference hwidth
  obtain ⟨rs, hbytes, hsum, hfit, hsame, -, htail⟩ := encodeRuns_eq_lineBytes (rs := runs pixels) (Nat.zero_le 1021)
  have htotal : rs.sum = w.pixels := by rw [hsum, runs, runsFrom_sum, Nat.zero_add, hwidth]
  have hvalid : lineValid w (lineBytes rs) = true :=
    lineValid_lineBytes htotal (htail (runsFrom_tail_pos _ _ _)) (by omega)
  refine ⟨by rw [hbytes, hvalid], fun hclip => ?_⟩
  have hsmall : ∀ n ∈ rs, n < 12288 := by
    intro n hn
    have hle := List.le_sum_of_mem hn
    have hmax : w.pixels ≤ 2304 := by cases w <;> decide
    omega
  have hpaint : decodeRuns w.pixels false 0 true (countedTokens (lineBytes rs)) = pixels := by
    rw [countedTokens_lineBytes hsmall, decodeRuns_eq_paint (by omega) (fun h => by cases h) (htail (runsFrom_tail_pos _ _ _)),
      hsame hclip, runs, paint_runsFrom]
    rfl
  rw [hbytes, decodeLine, if_pos hvalid, isRepeatLine_lineBytes hsmall, if_neg (by decide), hpaint, toWidth, ← hwidth,
    List.take_left]

end Sys2Proof.Machine

/-! PROOF. States compared without their mirror write queues, and the placing of lines (R54, R65, R70, R71, R73, R75). -/

namespace Sys2Proof.Machine

/-! ## States without their mirror write queue -/

/-- The state with an empty mirror write queue: what the statements compare that leave the queue to the step. -/
def State.bare (s : State) : State := s.withQueue []

/-- Two states agree when they do so without their queues and their queues agree. -/
theorem State.eq_of_bare {s t : State} (h : s.bare = t.bare) (hqueue : s.ctl.queue = t.ctl.queue) : s = t := by
  have hs : s = s.bare.withQueue s.ctl.queue := rfl
  rw [hs, h, hqueue]
  rfl

theorem State.bare_of_form {s t : State} (h : ∃ q, s = t.withQueue q) : s.bare = t.bare := by
  obtain ⟨q, rfl⟩ := h
  rfl

section Bare

variable (s : State)

@[simp] theorem State.bare_bare : s.bare.bare = s.bare := rfl

@[simp] theorem State.bare_withQueue (q : List QueueEntry) : (s.withQueue q).bare = s.bare := rfl

@[simp] theorem State.bare_enqueue (e : QueueEntry) : (s.enqueue e).bare = s.bare := by
  obtain ⟨q, hq, -⟩ := State.enqueue_form e s
  exact State.bare_of_form ⟨q, hq⟩

@[simp] theorem State.bare_rewrite (r : RecordId) : (s.rewrite r).bare = s.bare := s.bare_enqueue _

@[simp] theorem State.bare_raise (f : Notice) :
    (s.raise f).bare = { s.bare with ctl := { s.bare.ctl with notices := s.ctl.notices ||| f.bit } } := by
  obtain ⟨q, hq, -⟩ := State.raise_form f s
  rw [hq]
  rfl

@[simp] theorem State.bare_setPage (p : Fin 512) (r : PageRecord) :
    (s.setPage p r).bare = { s.bare with store := { s.store with pages := s.store.pages.set p r } } := by
  obtain ⟨q, hq, -⟩ := State.setPage_form p r s
  rw [hq]
  rfl

@[simp] theorem State.bare_setSlot (w : Writer) (x : WriterSlot) :
    (s.setSlot w x).bare = { s.bare with store := { s.store with slots := s.store.slots.set w.index x } } := rfl

@[simp] theorem State.bare_setFreeList (l : List Nat) :
    (s.setFreeList l).bare = { s.bare with store := { s.store with freeList := l } } := by
  obtain ⟨q, hq, -⟩ := State.setFreeList_form l s
  rw [hq]
  rfl

@[simp] theorem State.bare_setDoc (d : Fin 64) (r : DocRecord) :
    (s.setDoc d r).bare = { s.bare with dispatch := { s.dispatch with docs := s.dispatch.docs.set d r } } := by
  obtain ⟨q, hq, -⟩ := State.setDoc_form d r s
  rw [hq]
  rfl

@[simp] theorem State.bare_setPageList (d : Fin 64) (l : List (Fin 512)) :
    (s.setPageList d l).bare = { s.bare with dispatch := { s.dispatch with pageLists := s.dispatch.pageLists.set d l } } := by
  obtain ⟨q, hq, -⟩ := State.setPageList_form d l s
  rw [hq]
  rfl

@[simp] theorem State.bare_setDest (d : Fin 512) (r : DestRecord) :
    (s.setDest d r).bare = { s.bare with dispatch := { s.dispatch with dests := s.dispatch.dests.set d r } } := by
  obtain ⟨q, hq, -⟩ := State.setDest_form d r s
  rw [hq]
  rfl

@[simp] theorem State.bare_setLine (n : Fin 4) (u : LineUnit) :
    (s.setLine n u).bare = { s.bare with lines := s.lines.set n u } := by
  obtain ⟨q, hq, -⟩ := State.setLine_form n u s
  rw [hq]
  rfl

@[simp] theorem State.bare_setAccount (a : Fin 32) (x : Account) :
    (s.setAccount a x).bare = { s.bare with charge := { s.charge with accounts := s.charge.accounts.set a x } } := by
  obtain ⟨q, hq, -⟩ := State.setAccount_form a x s
  rw [hq]
  rfl

@[simp] theorem State.bare_setContext (n : Fin 4) (c : Option CallContext) :
    (s.setContext n c).bare = { s.bare with charge := { s.charge with contexts := s.charge.contexts.set n c } } := by
  obtain ⟨q, hq, -⟩ := State.setContext_form n c s
  rw [hq]
  rfl

@[simp] theorem State.bare_setScan (x : ScanStream) : (s.setScan x).bare = { s.bare with scan := x } := by
  obtain ⟨q, hq, -⟩ := State.setScan_form x s
  rw [hq]
  rfl

@[simp] theorem State.bare_setPrint (x : PrintStream) : (s.setPrint x).bare = { s.bare with print := x } := by
  obtain ⟨q, hq, -⟩ := State.setPrint_form x s
  rw [hq]
  rfl

@[simp] theorem State.bare_setStream (n : Fin 4) (x : LineStream) :
    (s.setStream n x).bare = { s.bare with streams := s.streams.set n x } := by
  obtain ⟨q, hq, -⟩ := State.setStream_form n x s
  rw [hq]
  rfl

@[simp] theorem State.bare_modStream (n : Fin 4) (f : LineStream → LineStream) :
    (s.modStream n f).bare = { s.bare with streams := s.streams.set n (f (s.stream n)) } := s.bare_setStream _ _

@[simp] theorem State.bare_setWindow (w : Fin 6) (x : WindowShadow) :
    (s.setWindow w x).bare = { s.bare with path := { s.path with windows := s.path.windows.set w x } } := by
  obtain ⟨q, hq, -⟩ := State.setWindow_form w x s
  rw [hq]
  rfl

end Bare

/-! ## Completed jobs (R52) -/

theorem State.jobCompleted_live {kind : JobKind} {i : StreamId} {f : StreamId → State → State} {s : State}
    (h : s.coder.engine = some ⟨i, kind, true⟩) : s.jobCompleted kind f = f i s.freeEngine := by
  rw [State.jobCompleted, h]
  dsimp only
  rw [if_pos rfl, if_pos rfl]

/-! ## Placing a line (R70, R71) -/

/-- A page's record with a line placed on it. -/
def PageRecord.withLine (bytes : List Byte) (concealed : Bool) (chain : List Nat) (r : PageRecord) : PageRecord :=
  { r with
    chain := chain, lineCount := r.lineCount + 1, byteCount := r.byteCount + bytes.length,
    badLines := if concealed then r.badLines + 1 else r.badLines }

/-- The store with a line placed on the page that a writer has in hand. -/
def StoreManager.withLine (w : Writer) (h : PageInHand) (bytes : List Byte) (r : PageRecord) (m : StoreManager) : StoreManager :=
  { m with
    pages := m.pages.set h.page r,
    slots := m.slots.set w.index { m.slots.get w.index with writing := some { h with queued := h.queued ++ bytes } } }

/-- The state with a line placed on the page that a writer has in hand. -/
def State.lined (w : Writer) (h : PageInHand) (bytes : List Byte) (r : PageRecord) (s : State) : State :=
  { s with store := s.store.withLine w h bytes r }

/-- The state with the head of the free list taken. -/
def State.blockTaken (rest : List Nat) (s : State) : State :=
  { s with
    store := { s.store with freeList := rest },
    ctl := { s.ctl with
      notices := if s.freeBlocks = s.store.reserve + 1 then s.ctl.notices ||| Notice.storeLow.bit else s.ctl.notices } }

section Lined

variable (w : Writer) (h : PageInHand) (bytes : List Byte) (r : PageRecord) (q : List QueueEntry) (s : State)

theorem State.lined_page : ((s.lined w h bytes r).withQueue q).page h.page = r := Table.get_set_self _ _ _

theorem State.lined_slot : ((s.lined w h bytes r).withQueue q).slot w =
    { s.slot w with writing := some { h with queued := h.queued ++ bytes } } := Table.get_set_self _ _ _

theorem State.lined_lineCount (concealed : Bool) (chain : List Nat) :
    (((s.lined w h bytes (r.withLine bytes concealed chain)).withQueue q).page h.page).lineCount = r.lineCount + 1 := by
  rw [State.lined_page]
  rfl

variable {w h s}

theorem State.lined_inHand (hpage : (s.slot w).page = some h) :
    (((s.lined w h bytes r).withQueue q).slot w).page = some { h with queued := h.queued ++ bytes } := by
  rw [State.lined_slot]
  exact WriterSlot.page_not_asked (WriterSlot.page_some hpage).2

end Lined

section PlaceLine

variable {w : Writer} {bytes : List Byte} {concealed : Bool} {h : PageInHand} {s : State} (hpage : (s.slot w).page = some h)

include hpage

/-- The placement's checks in their order. -/
theorem State.placeLine_eq : s.placeLine w bytes concealed =
    let r := s.page h.page
    let placed (chain : List Nat) (s : State) : State :=
      (s.setPage h.page (r.withLine bytes concealed chain)).setSlot w
        { s.slot w with writing := some { h with queued := h.queued ++ bytes } }
    if r.truncated then (s, some .block)
    else if r.lineCount = 4096 then (s.placementRefused w h.page, some .lines)
    else if r.byteCount + bytes.length + 1 ≤ 1024 * r.chain.length then (placed r.chain s, none)
    else (s.takeBlock w).elim (s.placementRefused w h.page, some .block) fun x => (placed (r.chain ++ [x.1]) x.2, none) := by
  unfold State.placeLine
  rw [hpage]
  cases s.takeBlock w <;> rfl

theorem State.placeLine_truncated (htruncated : (s.page h.page).truncated = true) :
    s.placeLine w bytes concealed = (s, some .block) := by
  rw [State.placeLine_eq hpage]
  exact if_pos htruncated

variable (htruncated : (s.page h.page).truncated = false)

include htruncated

theorem State.placeLine_full (hcount : (s.page h.page).lineCount = 4096) :
    s.placeLine w bytes concealed = (s.placementRefused w h.page, some .lines) := by
  rw [State.placeLine_eq hpage]
  dsimp only
  rw [htruncated, if_neg (by decide), if_pos hcount]

variable (hcount : (s.page h.page).lineCount ≠ 4096)

include hcount

theorem State.placeLine_refused (hfits : ¬(s.page h.page).byteCount + bytes.length + 1 ≤ 1024 * (s.page h.page).chain.length)
    (hblock : s.takeBlock w = none) : s.placeLine w bytes concealed = (s.placementRefused w h.page, some .block) := by
  rw [State.placeLine_eq hpage]
  dsimp only
  rw [htruncated, if_neg (by decide), if_neg hcount, if_neg hfits, hblock]
  rfl

theorem State.placeLine_fits (hfits : (s.page h.page).byteCount + bytes.length + 1 ≤ 1024 * (s.page h.page).chain.length) :
    ∃ q, s.placeLine w bytes concealed =
      ((s.lined w h bytes ((s.page h.page).withLine bytes concealed (s.page h.page).chain)).withQueue q, none) ∧
        QueueEntry.record (.page h.page) ∈ q := by
  have hnew : (s.page h.page).withLine bytes concealed (s.page h.page).chain ≠ s.page h.page := fun e =>
    absurd (congrArg PageRecord.lineCount e) (Nat.succ_ne_self _)
  obtain ⟨q, hq, -, hqueued⟩ := State.setPage_form h.page ((s.page h.page).withLine bytes concealed (s.page h.page).chain) s
  refine ⟨q, ?_, hqueued hnew⟩
  rw [State.placeLine_eq hpage]
  dsimp only
  rw [htruncated, if_neg (by decide), if_neg hcount, if_pos hfits, hq]
  rfl

theorem State.placeLine_takes {b : Nat} {rest : List Nat}
    (hfits : ¬(s.page h.page).byteCount + bytes.length + 1 ≤ 1024 * (s.page h.page).chain.length)
    (hlist : s.store.freeList = b :: rest) (hmay : s.mayTakeBlock w = true) :
    ∃ q, s.placeLine w bytes concealed = (((s.blockTaken rest).lined w h bytes
      ((s.page h.page).withLine bytes concealed ((s.page h.page).chain ++ [b]))).withQueue q, none) := by
  obtain ⟨q, hblock⟩ := State.takeBlock_of_cons hlist hmay
  obtain ⟨t, ht⟩ : ∃ t : State, t = { s with
      store := { s.store with freeList := rest },
      ctl := { s.ctl with
        queue := q,
        notices := if s.freeBlocks = s.store.reserve + 1 then s.ctl.notices ||| Notice.storeLow.bit else s.ctl.notices } } :=
    ⟨_, rfl⟩
  rw [← ht] at hblock
  obtain ⟨q', hq', -⟩ := State.setPage_form h.page ((s.page h.page).withLine bytes concealed ((s.page h.page).chain ++ [b])) t
  refine ⟨q', ?_⟩
  rw [State.placeLine_eq hpage]
  dsimp only
  rw [htruncated, if_neg (by decide), if_neg hcount, if_neg hfits, hblock]
  dsimp only [Option.elim]
  rw [hq', ht]
  rfl

end PlaceLine

/-- A page that its writer gives up is freed: its chain goes back, it leaves its document's list. -/
theorem State.freePage_form {w : Writer} {h : PageInHand} {s : State} (hpage : (s.slot w).page = some h) : ∃ q,
    s.freePage w = ({ s with
      store := { s.store with
        freeList := s.store.freeList ++ (s.page h.page).chain, pages := s.store.pages.set h.page PageRecord.empty,
        slots := s.store.slots.set w.index { s.slot w with writing := none } },
      dispatch := { s.dispatch with
        pageLists := s.dispatch.pageLists.set (s.page h.page).document
          ((s.pageList (s.page h.page).document).filter (fun q => decide (q ≠ h.page))) } } : State).withQueue q := by
  have hfree : s.freePage w =
      let s1 := ((s.giveBack (s.page h.page).chain).dropFromList h.page (s.page h.page).document).setPage h.page PageRecord.empty
      s1.setSlot w { s1.slot w with writing := none } := by
    rw [State.freePage, hpage]
  refine ⟨(s.freePage w).ctl.queue, State.eq_of_bare ?_ rfl⟩
  rw [hfree]
  simp [State.giveBack, State.dropFromList, State.slot, State.pageList]
  rfl

end Sys2Proof.Machine

/-! PROOF. The completion of an ENCODE job (R48, R54, R87 to R94). -/

namespace Sys2Proof.Machine

/-! ## The job's result (R54) -/

/-- The scan stream with the line at its head encoded. -/
def ScanStream.encoded (clipped : Bool) (x : ScanStream) : ScanStream :=
  { x.setBuffer x.first .empty with
    first := x.first.other, clipped := if clipped then saturate 65535 x.clipped else x.clipped }

theorem ScanStream.setBuffer_state (i : BufferId) (r : RawBuffer) (x : ScanStream) : (x.setBuffer i r).state = x.state := by
  cases i <;> rfl

theorem ScanStream.encoded_state (clipped : Bool) (x : ScanStream) : (x.encoded clipped).state = x.state :=
  ScanStream.setBuffer_state _ _ _

theorem ScanStream.encoded_width (clipped : Bool) (x : ScanStream) : (x.encoded clipped).width = x.width := by
  rw [ScanStream.encoded]
  cases x.first <;> rfl

theorem ScanStream.encoded_k (clipped : Bool) (x : ScanStream) : (x.encoded clipped).k = x.k := by
  rw [ScanStream.encoded]
  cases x.first <;> rfl

theorem ScanStream.encoded_document (clipped : Bool) (x : ScanStream) : (x.encoded clipped).document = x.document := by
  rw [ScanStream.encoded]
  cases x.first <;> rfl

/-- The state with the engine free and an ENCODE job's result with the stream. -/
def State.encoded (e : Encoded) (s : State) : State :=
  { s with
    coder := { s.coder with
      engine := none,
      contexts := s.coder.contexts.set (StreamId.index .scan) { s.ctx .scan with
        reference := e.reference, repeatRun := e.repeatRun, job := .none } },
    scan := s.scan.encoded e.clipped }

theorem State.encoded_job (e : Encoded) (s : State) : ((s.encoded e).ctx .scan).job = .none :=
  congrArg LineContext.job (Table.get_set_self _ _ _)

section EncodeDone

variable {e : Encoded} {s v : State} (he : encodeLine (s.ctx .scan) (s.scan.buffer s.scan.first).line = e)

include he

theorem State.encodeDone_placed
    (h : ((s.jobDone .scan e.reference e.repeatRun).setScan (s.scan.encoded e.clipped)).placeLine .scan e.bytes false = (v, none)) :
    s.encodeDone = v.scanPlaced (decide (s.scan.cut = some s.scan.first)) := by
  rw [ScanStream.encoded] at h
  rw [State.encodeDone, he]
  dsimp only
  rw [h]

theorem State.encodeDone_refused {c : RoomCause}
    (h : ((s.jobDone .scan e.reference e.repeatRun).setScan (s.scan.encoded e.clipped)).placeLine .scan e.bytes false = (v, some c)) :
    s.encodeDone = v.scanStarve := by
  rw [ScanStream.encoded] at h
  rw [State.encodeDone, he]
  dsimp only
  rw [h]

end EncodeDone

/-- A completed ENCODE job: its line is placed, or the stream starves. -/
theorem exec_encodeComplete {raw : List Byte} {s : State} (hengine : s.coder.engine = some ⟨.scan, .encode, true⟩)
    (hfull : s.scan.buffer s.scan.first = .full raw) :
    let e := encodeLine (s.ctx .scan) raw
    ∃ q, (∀ v, ((s.encoded e).withQueue q).placeLine .scan e.bytes false = (v, none) →
        exec .encodeComplete s = .next (v.scanPlaced (decide (s.scan.cut = some s.scan.first))).settleStep) ∧
      ∀ v c, ((s.encoded e).withQueue q).placeLine .scan e.bytes false = (v, some c) →
        exec .encodeComplete s = .next v.scanStarve.settleStep := by
  intro e
  have hrow : exec .encodeComplete s = .next s.encodeCompleted.settleStep := rfl
  have hlive : s.encodeCompleted = s.freeEngine.encodeDone := State.jobCompleted_live hengine
  obtain ⟨q, hq, -⟩ := State.setScan_form (s.scan.encoded e.clipped) (s.freeEngine.jobDone .scan e.reference e.repeatRun)
  have hline : encodeLine (s.freeEngine.ctx .scan) (s.freeEngine.scan.buffer s.freeEngine.scan.first).line = e :=
    congrArg (fun b => encodeLine (s.ctx .scan) (RawBuffer.line b)) hfull
  have hresult : (s.freeEngine.jobDone .scan e.reference e.repeatRun).setScan (s.scan.encoded e.clipped) =
      (s.encoded e).withQueue q := hq
  rw [hrow, hlive]
  refine ⟨q, fun v hv => ?_, fun v c hv => ?_⟩
  · rw [State.encodeDone_placed hline (by rw [← hresult] at hv; exact hv)]
    rfl
  · rw [State.encodeDone_refused hline (by rw [← hresult] at hv; exact hv)]

/-! ## After the placing (R87 to R90, R94) -/

section ScanPlaced

variable {h : PageInHand} {marked : Bool} {s : State} (hpage : (s.slot .scan).page = some h)

include hpage

theorem State.scanPlaced_eq : s.scanPlaced marked =
    if (s.page h.page).lineCount = 4096 then
      if s.scan.state = .cutting ∧ marked = true then (s.closePage .scan {}).scanCutDone
      else (s.closePage .scan {}).scanNextPage.scanFinish
    else if s.scan.state = .cutting ∧ marked = true then (s.closePage .scan {}).scanCutDone
    else s.scanFinish := by
  rw [State.scanPlaced, hpage]
  rfl

theorem State.scanPlaced_open (hcount : (s.page h.page).lineCount ≠ 4096) (hopen : s.scan.state = .open) :
    s.scanPlaced marked = s := by
  rw [State.scanPlaced_eq hpage, if_neg hcount, if_neg (by simp [hopen]), State.scanFinish_idle (by simp [hopen])]

theorem State.scanPlaced_limit (hcount : (s.page h.page).lineCount = 4096) (hopen : s.scan.state = .open) :
    s.scanPlaced marked = (s.closePage .scan {}).scanNextPage.scanFinish := by
  rw [State.scanPlaced_eq hpage, if_pos hcount, if_neg (by simp [hopen])]

theorem State.scanPlaced_cut (hcount : (s.page h.page).lineCount ≠ 4096) (hcut : s.scan.state = .cutting) :
    s.scanPlaced true = (s.closePage .scan {}).scanCutDone := by
  rw [State.scanPlaced_eq hpage, if_neg hcount, if_pos ⟨hcut, rfl⟩]

/-- The page of a stream that closes is closed with the last line that the buffers hold. -/
theorem State.scanPlaced_closing (hcount : (s.page h.page).lineCount ≠ 4096) (hstate : s.scan.state = .closing)
    (hempty : s.scan.anyFull = false) (hjob : (s.ctx .scan).job = .none) (hclosing : (s.slot .scan).closing = none) :
    s.scanPlaced marked = s.closePage .scan {} := by
  obtain ⟨q, hclose⟩ := State.closePage_form (flags := {}) hpage hclosing
  have hslot : ((s.closePage .scan {}).slot .scan).closing ≠ none := by
    rw [hclose]
    exact fun e => absurd ((congrArg WriterSlot.closing (Table.get_set_self s.store.slots Writer.scan.index _)).symm.trans e) (by simp)
  rw [State.scanPlaced_eq hpage, if_neg hcount, if_neg (by simp [hstate]), State.scanFinish, if_pos ⟨hstate, hempty, hjob⟩]
  exact if_neg fun hall => hslot hall.2

end ScanPlaced

/-- A page closed for no reason of its own (R73). -/
theorem State.closePage_plain {w : Writer} {h : PageInHand} {s : State} (hpage : (s.slot w).page = some h)
    (hclosing : (s.slot w).closing = none) : ∃ q, s.closePage w {} = ({ s with
      store := { s.store with
        pages := s.store.pages.set h.page { s.page h.page with closing := true, byteCount := (s.page h.page).byteCount + 1 },
        slots := s.store.slots.set w.index
          { writing := none, asked := none, closing := some { h with queued := h.queued ++ [0xF3] } } } } : State).withQueue q := by
  obtain ⟨q, hq⟩ := State.closePage_form (flags := {}) hpage hclosing
  simp only [Bool.or_false] at hq
  exact ⟨q, hq⟩

/-- The page that a line has just been placed on is closed. -/
theorem State.closePage_lined {w : Writer} {h : PageInHand} {bytes : List Byte} {r : PageRecord} {q : List QueueEntry} {s : State}
    (hpage : (s.slot w).page = some h) (hclosing : (s.slot w).closing = none) :
    ∃ q', ((s.lined w h bytes r).withQueue q).closePage w {} = ({ s with
      store := { s.store with
        pages := s.store.pages.set h.page { r with closing := true, byteCount := r.byteCount + 1 },
        slots := s.store.slots.set w.index
          { writing := none, asked := none, closing := some { h with queued := h.queued ++ bytes ++ [0xF3] } } } } :
            State).withQueue q' := by
  obtain ⟨q', hclose⟩ := State.closePage_plain (State.lined_inHand bytes r q hpage)
    ((congrArg WriterSlot.closing (State.lined_slot w h bytes r q s)).trans hclosing)
  simp only [State.lined_page] at hclose
  exact ⟨q', hclose.trans (congrArg₂ (fun a b => ({ s with
    store := { s.store with pages := a, slots := b } } : State).withQueue q') (Table.set_set ..) (Table.set_set ..))⟩

/-- The end of a cut, without the queue. -/
theorem State.scanCutDone_form (s : State) : ∃ q,
    s.scanCutDone = ({ s with scan := { s.scan with state := .open, cut := none } } : State).withQueue q := by
  obtain ⟨q, hq, -⟩ := State.setScan_form { s.scan with state := .open, cut := none } s
  exact ⟨q, hq⟩

/-! ## Starvation (R91, R94) -/

/-- The scan stream with its buffers discarded at a refused placement. -/
def ScanStream.discarded (x : ScanStream) : ScanStream :=
  { x.emptied with trailing := x.width.rawBytes + x.heldBytes }

/-- The scan stream after a refused placement: STARVED with BLOCK, unless it is CLOSING. -/
def ScanStream.starvedOf (x : ScanStream) : ScanStream :=
  if x.state = .closing then x.discarded else { x.discarded with state := .starved, cause := .block }

/-- A refused placement on a page with lines: the page is closed SHORT. -/
theorem State.scanStarve_short {h : PageInHand} {s : State} (hpage : (s.slot .scan).page = some h)
    (hclosing : (s.slot .scan).closing = none) (hcount : (s.page h.page).lineCount ≠ 0) (hjob : (s.ctx .scan).job = .none) :
    s.scanStarve.bare = { s.bare with
      store := { s.store with
        pages := s.store.pages.set h.page
          { s.page h.page with closing := true, short := true, byteCount := (s.page h.page).byteCount + 1 },
        slots := s.store.slots.set Writer.scan.index
          { writing := none, asked := none, closing := some { h with queued := h.queued ++ [0xF3] } } },
      scan := s.scan.starvedOf,
      ctl := { s.bare.ctl with
        notices := if s.scan.state = .closing then s.ctl.notices else s.ctl.notices ||| Notice.stream.bit } } := by
  obtain ⟨q₁, hdiscard, -⟩ := State.setScan_form s.scan.discarded s
  obtain ⟨q, hclose⟩ := State.closePage_form (s := ({ s with scan := s.scan.discarded } : State).withQueue q₁)
    (flags := { short := true }) hpage hclosing
  simp only [Bool.or_false, Bool.or_true] at hclose
  have hend : (s.setScan s.scan.discarded).scanEndShort =
      (({ s with scan := s.scan.discarded } : State).withQueue q₁).closePage .scan { short := true } := by
    rw [hdiscard, State.scanEndShort, State.withQueue_slot]
    have hpage' : (({ s with scan := s.scan.discarded } : State).slot .scan).page = some h := hpage
    rw [hpage']
    exact if_neg hcount
  obtain ⟨u, hu⟩ : ∃ u, u = (s.setScan s.scan.discarded).scanEndShort := ⟨_, rfl⟩
  rw [hclose] at hend
  rw [← hu] at hend
  have hslot : u.slot .scan = { writing := none, asked := none, closing := some { h with queued := h.queued ++ [0xF3] } } := by
    rw [hend]
    exact Table.get_set_self _ _ _
  have hscan : u.scan = s.scan.discarded := by rw [hend]; rfl
  have hctx : (u.ctx .scan).job = .none := by rw [hend]; exact hjob
  have hnotices : u.ctl.notices = s.ctl.notices := by rw [hend]; rfl
  have hchain : s.scanStarve = u.scanStarved .block := by rw [hu]; rfl
  rw [hchain, ScanStream.starvedOf]
  have hstate : u.scan.state = s.scan.state := by rw [hscan]; rfl
  by_cases hc : s.scan.state = .closing
  · have hpage' : (u.slot .scan).page = none := by rw [hslot]; rfl
    have hfinish : u.scanStarved .block = u := by
      rw [State.scanStarved, if_pos (hstate.trans hc), State.scanFinish,
        if_pos ⟨hstate.trans hc, by rw [hscan]; rfl, hctx⟩, State.closePage, hpage']
      exact if_neg fun hall => by
        rw [hslot] at hall
        exact absurd hall.2 (by simp)
    rw [hfinish, if_pos hc, if_pos hc, hend]
    rfl
  · rw [State.scanStarved, if_neg (by rw [hstate]; exact hc), if_neg hc, if_neg hc, State.bare_raise, State.bare_setScan,
      State.setScan_ctl_notices, hnotices, hscan, hend]
    rfl

/-- A refused placement on a page without lines: the page is freed. -/
theorem State.scanStarve_freed {h : PageInHand} {s : State} (hpage : (s.slot .scan).page = some h)
    (hcount : (s.page h.page).lineCount = 0) (hstate : s.scan.state ≠ .closing) :
    s.scanStarve.bare = { s.bare with
      store := { s.store with
        freeList := s.store.freeList ++ (s.page h.page).chain, pages := s.store.pages.set h.page PageRecord.empty,
        slots := s.store.slots.set Writer.scan.index { s.slot .scan with writing := none } },
      dispatch := { s.dispatch with
        pageLists := s.dispatch.pageLists.set (s.page h.page).document
          ((s.pageList (s.page h.page).document).filter (fun q => decide (q ≠ h.page))) },
      scan := { s.scan.discarded with state := .starved, cause := .block },
      ctl := { s.bare.ctl with notices := s.ctl.notices ||| Notice.stream.bit } } := by
  obtain ⟨q₁, hdiscard, -⟩ := State.setScan_form s.scan.discarded s
  obtain ⟨q, hfree⟩ := State.freePage_form (s := ({ s with scan := s.scan.discarded } : State).withQueue q₁) hpage
  have hend : (s.setScan s.scan.discarded).scanEndShort =
      (({ s with scan := s.scan.discarded } : State).withQueue q₁).freePage .scan := by
    rw [hdiscard, State.scanEndShort, State.withQueue_slot]
    have hpage' : (({ s with scan := s.scan.discarded } : State).slot .scan).page = some h := hpage
    rw [hpage']
    exact if_pos hcount
  obtain ⟨u, hu⟩ : ∃ u, u = (s.setScan s.scan.discarded).scanEndShort := ⟨_, rfl⟩
  rw [hfree, ← hu] at hend
  have hscan : u.scan = s.scan.discarded := by rw [hend]; rfl
  have hnotices : u.ctl.notices = s.ctl.notices := by rw [hend]; rfl
  have hchain : s.scanStarve = u.scanStarved .block := by rw [hu]; rfl
  have hstate' : u.scan.state ≠ .closing := by rw [hscan]; exact hstate
  rw [hchain, State.scanStarved, if_neg hstate', State.bare_raise, State.bare_setScan, State.setScan_ctl_notices, hnotices,
    hscan, hend]
  rfl

/-! ## The obligation -/

/-- What an ENCODE job hands back (R48, R54). -/
theorem encodeLine_cases (c : LineContext) (raw : List Byte) :
    let repeats : Prop := 0 < c.k ∧ rawPixels raw = c.reference ∧ c.repeatRun < c.k
    let coded := encodeRuns 0 (runs (rawPixels raw))
    (repeats → encodeLine c raw =
      { bytes := [0xF0, 0xF1], clipped := false, reference := c.reference, repeatRun := c.repeatRun + 1 }) ∧
    (¬repeats → encodeLine c raw =
      { bytes := coded.1, clipped := coded.2, reference := (decodeLine c.width c.reference coded.1).1, repeatRun := 0 }) :=
  ⟨fun h => if_pos h, fun h => if_neg h⟩

/-- Settles O31: the job's result by `exec_encodeComplete`, then the placing and what follows it, by the stream's state. -/
theorem encodeCompletes : Obligations.EncodeCompletes := by
  refine ⟨fun h raw s hengine hpage hfull => ?_, encodeLine_cases⟩
  intro e r fits line left coder ended closed htruncated
  obtain ⟨q, hplaced, hrefused⟩ := exec_encodeComplete hengine hfull
  have hinHand : (((s.encoded e).withQueue q).slot .scan).page = some h := hpage
  have hrecord : ((s.encoded e).withQueue q).page h.page = r := rfl
  have hleft : left.state = s.scan.state := s.scan.encoded_state e.clipped
  refine ⟨fun hopen hcount hfits => ?within, fun b rest hopen hcount hfits hlist hreserve => ?takes,
    fun hcount hfits hreserve hclosing => ?starve, fun hopen hcount hfits hclosing => ?limit,
    fun hlast hcount hfits hclosing => ?last⟩
  case within =>
    obtain ⟨q', hplace, hqueued⟩ := State.placeLine_fits (bytes := e.bytes) (concealed := false) hinHand htruncated
      (show r.lineCount ≠ 4096 by omega) hfits
    rw [hrecord] at hplace
    have hexec := hplaced _ hplace
    rw [State.scanPlaced_open (State.lined_inHand _ _ _ hinHand)
      ((State.lined_lineCount ..).trans_ne (show r.lineCount + 1 ≠ 4096 by omega)) (hleft.trans hopen)] at hexec
    exact ⟨_, hexec, rfl, hqueued⟩
  case takes =>
    obtain ⟨q', hplace⟩ := State.placeLine_takes (bytes := e.bytes) (concealed := false) hinHand htruncated
      (show r.lineCount ≠ 4096 by omega) hfits hlist (decide_eq_true hreserve)
    rw [hrecord] at hplace
    have hexec := hplaced _ hplace
    have hinHand' : ((((s.encoded e).withQueue q).blockTaken rest).slot .scan).page = some h := hpage
    rw [State.scanPlaced_open (State.lined_inHand _ _ _ hinHand')
      ((State.lined_lineCount ..).trans_ne (show r.lineCount + 1 ≠ 4096 by omega)) (hleft.trans hopen)] at hexec
    exact ⟨_, hexec, rfl⟩
  case starve =>
    intro discarded
    have hplace := State.placeLine_refused (bytes := e.bytes) (concealed := false) hinHand htruncated hcount hfits
      (State.takeBlock_refused (.inr ⟨rfl, hreserve⟩))
    have hexec := hrefused _ _ hplace
    have hwidth : left.width = s.scan.width := s.scan.encoded_width e.clipped
    have hdiscarded : left.discarded = discarded := by rw [ScanStream.discarded, hwidth]
    have hstarved : ((s.encoded e).withQueue q).scan.starvedOf =
        if s.scan.state = .closing then discarded else { discarded with state := .starved, cause := .block } := by
      rw [← hdiscarded, ← hleft]
      rfl
    have hstate : ((s.encoded e).withQueue q).scan.state = s.scan.state := hleft
    refine ⟨fun hlines => ⟨_, hexec, State.eq_of_bare ?_ rfl⟩, fun hnone hstate => ⟨_, hexec, State.eq_of_bare ?_ rfl⟩⟩
    · rw [State.placementRefused, State.scanStarve_short hinHand hclosing hlines (s.encoded_job e), hstarved, hstate]
      rfl
    · rw [State.placementRefused, State.scanStarve_freed hinHand hnone (by exact hleft.trans_ne hstate),
        show ((s.encoded e).withQueue q).scan.discarded = discarded from hdiscarded]
      rfl
  case limit =>
    obtain ⟨q', hplace, -⟩ := State.placeLine_fits (bytes := e.bytes) (concealed := false) hinHand htruncated
      (show r.lineCount ≠ 4096 by omega) hfits
    rw [hrecord] at hplace
    have hexec := hplaced _ hplace
    obtain ⟨q₂, hclose⟩ := State.closePage_lined (bytes := e.bytes) (r := r.withLine e.bytes false r.chain) (q := q') hinHand hclosing
    rw [State.scanPlaced_limit (State.lined_inHand _ _ _ hinHand) ((State.lined_lineCount ..).trans hcount) (hleft.trans hopen),
      hclose] at hexec
    obtain ⟨u, hu⟩ : ∃ u : State, u = ({ (s.encoded e).withQueue q with
      store := { s.store with pages := s.store.pages.set h.page closed, slots := s.store.slots.set Writer.scan.index ended } } :
        State).withQueue q₂ := ⟨_, rfl⟩
    have hclosed : exec .encodeComplete s = .next u.scanNextPage.scanFinish.settleStep := by
      rw [hexec, hu]
      rfl
    have hscan : u.scan = left := by
      rw [hu]
      rfl
    have hstate : u.scan.state = .open := by rw [hscan, hleft, hopen]
    refine ⟨u, by rw [hu]; rfl, fun hheld => ?_, fun hheld => ⟨fun v hv => ?_, fun cause hcause => ?_⟩⟩
    · rw [hclosed, State.scanNextPage_idle (by rw [hscan]; exact hheld), State.scanFinish_idle (by simp [hstate])]
    all_goals
      have hdocument : u.scan.document = s.scan.document := by rw [hscan]; exact s.scan.encoded_document _
      have hwidth : u.scan.width = s.scan.width := by rw [hscan]; exact s.scan.encoded_width _
      have hk : u.scan.k = s.scan.k := by rw [hscan]; exact s.scan.encoded_k _
      have hnext : ¬(u.scan.heldBytes = 0 ∨ (u.slot .scan).writing ≠ none) := by
        rw [hscan, not_or, not_not]
        exact ⟨hheld, by rw [hu]; exact congrArg WriterSlot.writing (Table.get_set_self _ _ _)⟩
    · have hopened : u.scanNextPage = v := by
        rw [State.scanNextPage, if_neg hnext, hdocument, hwidth, hk, hv]
      obtain ⟨_, _, _, _, hleaves⟩ := State.openPage_leaves hv
      have hscan' : v.scan = u.scan := by rw [hleaves]
      rw [hclosed, hopened, State.scanFinish_idle (by simp [hscan', hstate])]
    · have hrefused : u.scanNextPage = u.scanOpenRefused cause := by
        rw [State.scanNextPage, if_neg hnext, hdocument, hwidth, hk, hcause]
      obtain ⟨q₃, hform⟩ := State.scanOpenRefused_form (cause := cause) (s := u) (by simp [hstate])
      rw [hrefused, hform, State.scanFinish_idle (by simp), hscan] at hclosed
      refine ⟨_, hclosed, ?_⟩
      rw [hu]
      rfl
  case last =>
    obtain ⟨q', hplace, -⟩ := State.placeLine_fits (bytes := e.bytes) (concealed := false) hinHand htruncated
      (show r.lineCount ≠ 4096 by omega) hfits
    rw [hrecord] at hplace
    have hexec := hplaced _ hplace
    obtain ⟨q₂, hclose⟩ := State.closePage_lined (bytes := e.bytes) (r := r.withLine e.bytes false r.chain) (q := q') hinHand hclosing
    have hlines := (State.lined_lineCount .scan h e.bytes r q' ((s.encoded e).withQueue q) false r.chain).trans_ne
      (show r.lineCount + 1 ≠ 4096 by omega)
    have hwritten := State.lined_inHand e.bytes (r.withLine e.bytes false r.chain) q' hinHand
    obtain ⟨hcutting, hmarked⟩ | ⟨hstate, hempty⟩ := hlast
    · obtain ⟨q₃, hdone⟩ := State.scanCutDone_form (({ (s.encoded e).withQueue q with
        store := { s.store with pages := s.store.pages.set h.page closed, slots := s.store.slots.set Writer.scan.index ended } } :
          State).withQueue q₂)
      rw [decide_eq_true hmarked, State.scanPlaced_cut hwritten hlines (hleft.trans hcutting), hclose] at hexec
      refine ⟨_, hexec, ?_⟩
      rw [if_pos hcutting]
      exact State.eq_of_bare ((congrArg State.bare hdone).trans rfl) rfl
    · have hother : s.scan.state ≠ .cutting := by simp [hstate]
      rw [State.scanPlaced_closing hwritten hlines (hleft.trans hstate) hempty (s.encoded_job e)
        ((congrArg WriterSlot.closing (State.lined_slot ..)).trans hclosing), hclose] at hexec
      refine ⟨_, hexec, ?_⟩
      rw [if_neg hother]
      rfl

end Sys2Proof.Machine

/-! PROOF. The completion of a CHECK job (R55, R71, R154). -/

namespace Sys2Proof.Machine

/-- The receive stream with the line in its check buffer judged. -/
def LineStream.judged (good : Bool) (x : LineStream) : LineStream :=
  { x with checkBuffer := none, badLines := if good then x.badLines else saturate 65535 x.badLines }

/-- The receive stream with the judged line counted in its run of bad lines. -/
def LineStream.counted (good : Bool) (x : LineStream) : LineStream :=
  { x with
    badRun := if good then 0 else x.badRun + 1,
    badRunFlag := if good then x.badRunFlag else x.badRunFlag || decide (12 ≤ x.badRun + 1) }

theorem LineStream.counted_eq (good : Bool) (x : LineStream) : x.counted good =
    if good then { x with badRun := 0 }
    else { x with badRun := x.badRun + 1, badRunFlag := x.badRunFlag || decide (Config.badRunMark ≤ x.badRun + 1) } := by
  cases good <;> rfl

/-- The state with the engine free and a CHECK job's result with its stream. -/
def State.checked (n : Fin 4) (v : Checked) (s : State) : State :=
  { s with
    coder := { s.coder with
      engine := none,
      contexts := s.coder.contexts.set (StreamId.index (.line n)) { s.ctx (.line n) with reference := v.reference, job := .none } },
    streams := s.streams.set n ((s.stream n).judged v.good) }

theorem State.checked_stream (n : Fin 4) (v : Checked) (s : State) : (s.checked n v).stream n = (s.stream n).judged v.good :=
  Table.get_set_self _ _ _

/-- The counting of a judged line, without the queue. -/
theorem State.bare_counted {n : Fin 4} {v : Checked} {s t : State} (ht : t.streams = (s.checked n v).streams) :
    (t.modStream n (LineStream.counted v.good)).bare =
      { t.bare with streams := s.streams.set n (((s.stream n).judged v.good).counted v.good) } := by
  rw [State.bare_modStream, State.stream, ht]
  exact congrArg (fun y => ({ t.bare with streams := y } : State))
    ((congrArg (fun y => (s.checked n v).streams.set n (LineStream.counted v.good y)) (s.checked_stream n v)).trans
      (Table.set_set ..))

section PlaceChecked

variable {n : Fin 4} {l : CollectedLine} {v : Checked} {s t : State} (hbuffer : (s.stream n).checkBuffer = some l)
  (hv : checkLine (s.ctx (.line n)) l.bytes l.lost = v)

include hbuffer hv

theorem State.placeChecked_placed
    (h : ((s.jobDone (.line n) v.reference (s.ctx (.line n)).repeatRun).modStream n (LineStream.judged v.good)).placeLine (.line n)
      v.bytes (!v.good) = (t, none)) :
    s.placeChecked n = t.modStream n (LineStream.counted v.good) := by
  have hcounted : LineStream.counted v.good = fun x =>
      if v.good then { x with badRun := 0 }
      else { x with badRun := x.badRun + 1, badRunFlag := x.badRunFlag || decide (Config.badRunMark ≤ x.badRun + 1) } :=
    funext (LineStream.counted_eq v.good)
  unfold LineStream.judged at h
  rw [State.placeChecked, hbuffer]
  dsimp only
  rw [hv, h, hcounted]

theorem State.placeChecked_refused {c : RoomCause}
    (h : ((s.jobDone (.line n) v.reference (s.ctx (.line n)).repeatRun).modStream n (LineStream.judged v.good)).placeLine (.line n)
      v.bytes (!v.good) = (t, some c)) : s.placeChecked n = t := by
  unfold LineStream.judged at h
  rw [State.placeChecked, hbuffer]
  dsimp only
  rw [hv, h]

end PlaceChecked

/-- A completed CHECK job: its line is placed and counted, or the placement is refused. -/
theorem exec_checkComplete {n : Fin 4} {l : CollectedLine} {s : State}
    (hengine : s.coder.engine = some ⟨.line n, .check, true⟩) (hbuffer : (s.stream n).checkBuffer = some l) :
    let v := checkLine (s.ctx (.line n)) l.bytes l.lost
    ∃ q, (∀ t, ((s.checked n v).withQueue q).placeLine (.line n) v.bytes (!v.good) = (t, none) →
        exec .checkComplete s = .next (t.modStream n (LineStream.counted v.good)).settleStep) ∧
      ∀ t c, ((s.checked n v).withQueue q).placeLine (.line n) v.bytes (!v.good) = (t, some c) →
        exec .checkComplete s = .next t.settleStep := by
  intro v
  have hrow : exec .checkComplete s = .next s.checkCompleted.settleStep := rfl
  have hlive : s.checkCompleted = s.freeEngine.placeChecked n := State.jobCompleted_live hengine
  obtain ⟨q, hq⟩ := State.modStream_form n (LineStream.judged v.good)
    (s.freeEngine.jobDone (.line n) v.reference (s.ctx (.line n)).repeatRun)
  have hresult : (s.freeEngine.jobDone (.line n) v.reference (s.freeEngine.ctx (.line n)).repeatRun).modStream n
      (LineStream.judged v.good) = (s.checked n v).withQueue q := hq
  have hjudged : checkLine (s.freeEngine.ctx (.line n)) l.bytes l.lost = v := rfl
  rw [hrow, hlive]
  refine ⟨q, fun t ht => ?_, fun t c ht => ?_⟩
  · rw [State.placeChecked_placed (s := s.freeEngine) hbuffer hjudged (by rw [← hresult] at ht; exact ht)]
  · rw [State.placeChecked_refused (s := s.freeEngine) hbuffer hjudged (by rw [← hresult] at ht; exact ht)]

/-- What a CHECK job hands back (R55). -/
theorem checkLine_cases (c : LineContext) (bytes : List Byte) (lost : Bool) :
    (lineValid c.width bytes = true → lost = false →
      (checkLine c bytes lost).good = true ∧ (checkLine c bytes lost).bytes = bytes ∧
        (checkLine c bytes lost).reference =
          (if isRepeatLine bytes = true then c.reference else (decodeLine c.width c.reference bytes).1)) ∧
    (lineValid c.width bytes = false ∨ lost = true →
      checkLine c bytes lost = { good := false, bytes := [0xF0, 0xF1], reference := c.reference }) := by
  refine ⟨fun hvalid hlost => ?_, fun hbad => ?_⟩
  · have hgood : checkLine c bytes lost =
        { good := true, bytes := bytes, reference := (decodeLine c.width c.reference bytes).1 } := if_pos ⟨hvalid, hlost⟩
    rw [hgood]
    refine ⟨rfl, rfl, ?_⟩
    split
    · next hrepeat => rw [decodeLine, if_pos hvalid, if_pos hrepeat]
    · rfl
  · refine if_neg ?_
    rintro ⟨hvalid, hlost⟩
    obtain h | h := hbad
    · simp [h] at hvalid
    · simp [h] at hlost

/-- A line's judgement, as the concealment counted on its page. -/
theorem PageRecord.withLine_judged (bytes : List Byte) (good : Bool) (chain : List Nat) (r : PageRecord) :
    r.withLine bytes (!good) chain = { r with
      chain := chain, lineCount := r.lineCount + 1, byteCount := r.byteCount + bytes.length,
      badLines := if good then r.badLines else r.badLines + 1 } := by
  cases good <;> rfl

/-- Settles O33: the job's result by `exec_checkComplete`, then the placing of its line. -/
theorem checkCompletes : Obligations.CheckCompletes := by
  refine ⟨fun n l h s hengine hbuffer hpage => ?_, checkLine_cases⟩
  intro x v r fits line coder checked counted slots
  obtain ⟨q, hplaced, hrefused⟩ := exec_checkComplete hengine hbuffer
  have hinHand : (((s.checked n v).withQueue q).slot (.line n)).page = some h := hpage
  have hrecord : ((s.checked n v).withQueue q).page h.page = r := rfl
  refine ⟨fun htruncated hcount hfits => ?_, fun b rest htruncated hcount hfits hlist => ?_, fun htruncated hfull => ?_,
    fun htruncated => ?_⟩
  · obtain ⟨q', hplace, -⟩ := State.placeLine_fits (bytes := v.bytes) (concealed := !v.good) hinHand htruncated hcount hfits
    rw [hrecord, PageRecord.withLine_judged] at hplace
    refine ⟨_, hplaced _ hplace, State.eq_of_bare ?_ rfl⟩
    rw [State.bare_counted (s := s) (n := n) (v := v) ?_]
    all_goals rfl
  · obtain ⟨q', hplace⟩ := State.placeLine_takes (bytes := v.bytes) (concealed := !v.good) hinHand htruncated hcount hfits hlist
      (decide_eq_true (by rw [State.freeBlocks]; exact hlist ▸ Nat.succ_pos _))
    rw [hrecord, PageRecord.withLine_judged] at hplace
    refine ⟨_, hplaced _ hplace, State.eq_of_bare ?_ rfl⟩
    rw [State.bare_counted (s := s) (n := n) (v := v) ?_]
    all_goals rfl
  · have hplace : ∃ c, ((s.checked n v).withQueue q).placeLine (.line n) v.bytes (!v.good) =
        (((s.checked n v).withQueue q).placementRefused (.line n) h.page, some c) := by
      by_cases hcount : r.lineCount = 4096
      · exact ⟨_, State.placeLine_full hinHand htruncated hcount⟩
      · obtain ⟨hfits, hlist⟩ := hfull.resolve_left hcount
        exact ⟨_, State.placeLine_refused hinHand htruncated hcount hfits
          (State.takeBlock_refused (.inl (by rw [State.freeBlocks]; exact congrArg List.length hlist)))⟩
    obtain ⟨c, hplace⟩ := hplace
    refine ⟨_, hrefused _ _ hplace, State.eq_of_bare ?_ rfl⟩
    rw [State.placementRefused, hrecord, State.bare_setPage]
    rfl
  · exact ⟨_, hrefused _ _ (State.placeLine_truncated hinHand htruncated), rfl⟩

end Sys2Proof.Machine

/-! PROOF. The completions of DECODE and EXPAND jobs, and the coder arbiter (R52, R56 to R58, R146, R164). -/

namespace Sys2Proof.Machine

/-! ## The coder arbiter (R58) -/

/-- The place of a line in its class, after the line served last. -/
def turnAfter (last n : Fin 4) : Nat := (n.val + 3 - last.val) % 4

/-- A round robin tries the lines in their turns. -/
theorem roundRobin_turns (last : Fin 4) :
    [last + 1, last + 2, last + 3, last].Pairwise fun m n => turnAfter last m < turnAfter last n := by
  revert last
  decide

theorem mem_roundRobin (last n : Fin 4) : n ∈ [last + 1, last + 2, last + 3, last] := by
  revert last n
  decide

/-- A round robin finds the line whose turn comes first. -/
theorem roundRobin_eq_some {last n : Fin 4} {p : Fin 4 → Bool} (hn : p n = true)
    (hfirst : ∀ m, m ≠ n → p m = true → turnAfter last n < turnAfter last m) : roundRobin last p = some n := by
  obtain ⟨before, after, hsplit⟩ := List.append_of_mem (mem_roundRobin last n)
  rw [roundRobin, List.find?_eq_some_iff_append]
  refine ⟨hn, before, after, hsplit, fun m hm => ?_⟩
  have hearlier : turnAfter last m < turnAfter last n :=
    (List.pairwise_append.mp (hsplit ▸ roundRobin_turns last)).2.2 m hm n List.mem_cons_self
  rw [Bool.not_eq_true', ← Bool.not_eq_true]
  intro hp
  have hne : m ≠ n := by
    rintro rfl
    exact absurd hearlier (Nat.lt_irrefl _)
  exact absurd (hfirst m hne hp) (by omega)

theorem roundRobin_eq_none {last : Fin 4} {p : Fin 4 → Bool} (h : ∀ n, p n = false) : roundRobin last p = none := by
  simp [roundRobin, h]

theorem State.jobQueued_iff (i : StreamId) (kind : JobKind) (s : State) :
    s.jobQueued i kind = true ↔ (s.ctx i).job = .queued kind := decide_eq_true_iff

theorem State.jobQueued_eq_false {i : StreamId} {kind : JobKind} {s : State} (h : ¬(s.ctx i).job = .queued kind) :
    s.jobQueued i kind = false := decide_eq_false h

section ArbitrateCoder

variable {s : State} (hidle : s.coder.engine = none)

include hidle

theorem State.arbitrateCoder_check {n : Fin 4}
    (hn : roundRobin s.coder.lastReceive (fun m => s.jobQueued (.line m) .check) = some n) :
    s.arbitrateCoder = ({ s with coder := { s.coder with lastReceive := n } } : State).takeJob (.line n) .check := by
  rw [State.arbitrateCoder, hidle]
  dsimp only
  rw [hn]

variable (hcheck : ∀ m, ¬(s.ctx (.line m)).job = .queued .check)

include hcheck

theorem State.arbitrateCoder_expand {n : Fin 4}
    (hn : roundRobin s.coder.lastSend (fun m => s.jobQueued (.line m) .expand) = some n) :
    s.arbitrateCoder = ({ s with coder := { s.coder with lastSend := n } } : State).takeJob (.line n) .expand := by
  rw [State.arbitrateCoder, hidle]
  dsimp only
  rw [roundRobin_eq_none fun m => State.jobQueued_eq_false (hcheck m), hn]

theorem State.arbitrateCoder_rest (hexpand : ∀ m, ¬(s.ctx (.line m)).job = .queued .expand) : s.arbitrateCoder =
    if s.jobQueued .print .decode then s.takeJob .print .decode
    else if s.jobQueued .scan .encode then s.takeJob .scan .encode else s := by
  rw [State.arbitrateCoder, hidle]
  dsimp only
  rw [roundRobin_eq_none fun m => State.jobQueued_eq_false (hcheck m),
    roundRobin_eq_none fun m => State.jobQueued_eq_false (hexpand m)]

end ArbitrateCoder

/-! ## Completions (R56, R57) -/

theorem State.decodeDone_eq {line rest : List Byte} {s : State} (hline : s.print.nextLine = some (line, rest)) :
    let c := s.ctx .print
    let d := decodeLine c.width c.reference line
    s.decodeDone = (s.jobDone .print d.1 c.repeatRun).setPrint
      { s.print.setBuffer s.print.decodingBuffer (.ready (pixelBytes d.1) 0) with
        readAhead := rest, codeErrors := if d.2 then saturate 65535 s.print.codeErrors else s.print.codeErrors } := by
  intro c d
  rw [State.decodeDone, hline]
  rfl

theorem State.expandDone_eq {n : Fin 4} {line rest : List Byte} {s : State} (hline : (s.stream n).nextStored = some (line, rest)) :
    let x := s.stream n
    let e := expandLine (s.ctx (.line n)) line
    s.expandDone n = (s.jobDone (.line n) e.reference (s.ctx (.line n)).repeatRun).setStream n
      { x with
        readAhead := rest, ready := x.ready ++ [⟨padLine x.minLine e.bytes, x.readAhead.length - rest.length⟩],
        codeErrors := if e.codeError then saturate 65535 x.codeErrors else x.codeErrors } := by
  intro x e
  rw [State.expandDone, hline]

/-- What an EXPAND job hands back (R57). -/
theorem expandLine_cases (c : LineContext) (bytes : List Byte) :
    (expandLine c [0xF0, 0xF1] = { bytes := expandRuns c.reference, codeError := false, reference := c.reference }) ∧
      (isRepeatLine bytes = true → expandLine c bytes = expandLine c [0xF0, 0xF1]) ∧
      (isRepeatLine bytes = false → expandLine c bytes =
        { bytes := bytes, codeError := !lineValid c.width bytes, reference := (decodeLine c.width c.reference bytes).1 }) ∧
      (isRepeatLine bytes = true ↔ countedTokens bytes = [.repeatLine, .endOfLine]) := by
  have hrepeat {l : List Byte} (h : isRepeatLine l = true) :
      expandLine c l = { bytes := expandRuns c.reference, codeError := false, reference := c.reference } := if_pos h
  have hshort : isRepeatLine [0xF0, 0xF1] = true := by decide
  refine ⟨hrepeat hshort, fun h => (hrepeat h).trans (hrepeat hshort).symm, fun h => ?_, decide_eq_true_iff⟩
  have herror : (decodeLine c.width c.reference bytes).2 = !lineValid c.width bytes := by
    rw [decodeLine, h]
    cases lineValid c.width bytes <;> rfl
  rw [expandLine, h, ← herror]
  rfl

/-- Settles O32: the two completions by their streams' equations, the arbiter by its classes in their order. -/
theorem decodeAndExpandComplete : Obligations.DecodeAndExpandComplete := by
  refine ⟨fun line rest s hengine hline => ?decode, fun n line rest s hengine hline => ?expand,
    ⟨expandLine_cases, fun pixels => rfl, fun n => ⟨fun h => if_pos h, fun h => if_neg (by omega)⟩⟩, fun s => ?arbiter⟩
  case decode =>
    intro c d
    have hrow : exec .decodeComplete s = .next s.decodeCompleted.settleStep := rfl
    have hlive : s.decodeCompleted = s.freeEngine.decodeDone := State.jobCompleted_live hengine
    refine ⟨_, hrow, State.eq_of_bare ?_ rfl⟩
    rw [hlive, State.decodeDone_eq (s := s.freeEngine) hline, State.bare_setPrint]
    rfl
  case expand =>
    intro x e
    have hrow : exec .expandComplete s = .next s.expandCompleted.settleStep := rfl
    have hlive : s.expandCompleted = s.freeEngine.expandDone n := State.jobCompleted_live hengine
    refine ⟨_, hrow, State.eq_of_bare ?_ rfl⟩
    rw [hlive, State.expandDone_eq (s := s.freeEngine) hline, State.bare_setStream]
    rfl
  case arbiter =>
    intro has turn takes
    refine ⟨fun hruns => ?_, fun hidle => ⟨fun n hn hfirst => ?_, fun hcheck => ⟨fun n hn hfirst => ?_, fun hexpand =>
      ⟨fun hprint => ?_, fun hprint hscan => ?_, fun hprint hscan => ?_⟩⟩⟩⟩
    · obtain ⟨j, hj⟩ := Option.ne_none_iff_exists'.mp hruns
      rw [State.arbitrateCoder, hj]
    · exact State.arbitrateCoder_check hidle (roundRobin_eq_some ((s.jobQueued_iff ..).mpr hn)
        fun m hm hqueued => hfirst m hm ((s.jobQueued_iff ..).mp hqueued))
    · exact State.arbitrateCoder_expand hidle hcheck (roundRobin_eq_some ((s.jobQueued_iff ..).mpr hn)
        fun m hm hqueued => hfirst m hm ((s.jobQueued_iff ..).mp hqueued))
    · exact (State.arbitrateCoder_rest hidle hcheck hexpand).trans (if_pos ((s.jobQueued_iff ..).mpr hprint))
    all_goals
      have hrest := State.arbitrateCoder_rest hidle hcheck hexpand
      rw [State.jobQueued_eq_false hprint, if_neg (by decide)] at hrest
    · exact hrest.trans (if_pos ((s.jobQueued_iff ..).mpr hscan))
    · rw [hrest, State.jobQueued_eq_false hscan, if_neg (by decide)]

end Sys2Proof.Machine

/-! PROOF. What every ring command shares, and STORE SETUP (R23, R24, R28, R40, R61, R62). -/

namespace Sys2Proof.Machine

/-! ## Taking ring commands (R23, R28, R40) -/

theorem ringCommand_inRunning {c : Instr} (hring : c.isRingCommand = true) (hsetup : c.isSetupCommand = false) :
    ∃ f, State.ringCommand c = State.inRunning f := by
  cases c <;> first | contradiction | exact ⟨_, rfl⟩

/-- Settles O34: `exec_ringCommand`, and the two answers that change nothing. -/
theorem ringCommandsTaken : Obligations.RingCommandsTaken := by
  refine ⟨fun c s hring hup => State.ring_command_runs hup (exec_ringCommand hring s),
    ⟨fun code s hup => State.ring_command_answers hup (exec_ringCommand rfl s) rfl,
      fun c s hring hsetup hup hpass => ?_, fun base log count reserve s hup hrun => ?_⟩, fun c s hring hteardown => ?_⟩
  · obtain ⟨f, hf⟩ := ringCommand_inRunning hring hsetup
    refine State.ring_command_answers hup (exec_ringCommand hring s) ?_
    rw [hf, State.inRunning_refused f hpass]
    rfl
  · exact State.ring_command_answers hup (exec_ringCommand rfl s) (if_pos hrun)
  · rw [exec_ringCommand hring, State.after, State.runCommand_teardown _ hteardown]

/-! ## STORE SETUP (R24, R61, R62) -/

/-- The checks of an accepted STORE SETUP. -/
theorem State.storeFits_iff (base count log : Nat) (reserve : BitVec 16) (s : State) :
    s.storeFits base count log reserve = true ↔
      base % 1024 = 0 ∧ 64 ≤ count ∧ count ≤ 8192 ∧ log % 65536 = 0 ∧ (reserve.toNat ≤ 255 ∨ reserve.toNat = 65535) ∧
        s.newReserve reserve < count ∧ base + count * 1024 ≤ 67108864 ∧ log + 65536 ≤ 67108864 ∧
        (base + count * 1024 ≤ s.path.controlBase.toNat ∨ s.path.controlBase.toNat + 65536 ≤ base) ∧
        (log + 65536 ≤ s.path.controlBase.toNat ∨ s.path.controlBase.toNat + 65536 ≤ log) ∧
        (base + count * 1024 ≤ log ∨ log + 65536 ≤ base) := by
  have apart {a n b m : Nat} (hn : 0 < n) (hm : 0 < m) : overlaps a n b m = false ↔ a + n ≤ b ∨ b + m ≤ a := by
    simp only [overlaps, Bool.and_eq_false_iff, decide_eq_false_iff_not]
    omega
  simp only [State.storeFits, Bool.and_eq_true, Bool.or_eq_true, decide_eq_true_eq, Bool.not_eq_true', and_assoc]
  simp only [Config.keepReserve, Config.blockBytes, Config.memoryBytes, Config.logBytes, Config.controlBytes]
  constructor
  · rintro ⟨hbase, hmin, hmax, hlog, hreserve, hless, hstore, hend, hcontrol, hcontrol', hapart⟩
    rw [apart (by omega) (by omega)] at hcontrol hcontrol' hapart
    exact ⟨hbase, hmin, hmax, hlog, hreserve, hless, hstore, hend, hcontrol, hcontrol', hapart⟩
  · rintro ⟨hbase, hmin, hmax, hlog, hreserve, hless, hstore, hend, hcontrol, hcontrol', hapart⟩
    rw [apart (by omega) (by omega), apart (by omega) (by omega), apart (by omega) (by omega)]
    exact ⟨hbase, hmin, hmax, hlog, hreserve, hless, hstore, hend, hcontrol, hcontrol', hapart⟩

/-- A window's shadow with its pending entry checked again and active. -/
def State.rechecked (w : Fin 6) (s : State) : WindowShadow :=
  (s.window w).pending.elim (s.window w) fun e =>
    let f : PendingWindow := { e with refused := e.refused || s.entryRefused e.base e.sizeCode }
    { s.window w with active := f.entry, pending := none, status := f.status }

theorem State.recheckWindow_form (w : Fin 6) (s : State) :
    ∃ q, s.recheckWindow w = ({ s with
      path := { s.path with windows := s.path.windows.set w (s.rechecked w) } } : State).withQueue q ∧ Keeps s.ctl.queue q := by
  cases hpending : (s.window w).pending with
  | none =>
    have hsame : s.path.windows.set w (s.rechecked w) = s.path.windows := by
      rw [State.rechecked, hpending]
      exact Table.set_get _ _
    refine ⟨s.ctl.queue, ?_, Keeps.refl _⟩
    rw [State.recheckWindow, hpending, hsame]
    rfl
  | some e =>
    have hrechecked : s.rechecked w = { s.window w with
        active := ({ e with refused := e.refused || s.entryRefused e.base e.sizeCode } : PendingWindow).entry, pending := none,
        status := ({ e with refused := e.refused || s.entryRefused e.base e.sizeCode } : PendingWindow).status } := by
      rw [State.rechecked, hpending]
      rfl
    obtain ⟨q, hq, hkeeps, -⟩ := State.setWindow_form w (s.rechecked w) s
    refine ⟨q, ?_, hkeeps⟩
    rw [State.recheckWindow, hpending, ← hq, hrechecked]
    rfl

/-- All of a list of windows checked again: the windows are all that changes, each by its own check. -/
theorem State.foldl_recheckWindow {l : List (Fin 6)} (hl : l.Nodup) (s : State) :
    ∃ q windows, l.foldl State.recheckWindow s = ({ s with path := { s.path with windows := windows } } : State).withQueue q ∧
      Keeps s.ctl.queue q ∧ ∀ w, windows.get w = if w ∈ l then s.rechecked w else s.window w := by
  induction l generalizing s with
  | nil => exact ⟨s.ctl.queue, s.path.windows, rfl, Keeps.refl _, fun w => by simp [State.window]⟩
  | cons v l ih =>
    obtain ⟨hv, hl⟩ := List.nodup_cons.mp hl
    obtain ⟨q₁, hfirst, hkeeps₁⟩ := State.recheckWindow_form v s
    obtain ⟨u, hu⟩ : ∃ u, u = s.recheckWindow v := ⟨_, rfl⟩
    obtain ⟨q, windows, hrest, hkeeps, hwindows⟩ := ih hl u
    rw [← hu] at hfirst
    refine ⟨q, windows, ?_, ?_, fun w => ?_⟩
    · rw [List.foldl_cons, ← hu, hrest, hfirst]
      rfl
    · rw [hfirst] at hkeeps
      exact hkeeps₁.trans hkeeps
    · have hother (h : w ≠ v) : u.window w = s.window w := by
        rw [hfirst]
        exact Table.get_set_of_ne _ _ (Ne.symm h)
      rw [hwindows]
      by_cases hwv : w = v
      · subst hwv
        rw [if_neg hv, if_pos List.mem_cons_self, hfirst]
        exact Table.get_set_self _ _ _
      · have hrefused (base : Addr) (size : Nat) : u.entryRefused base size = s.entryRefused base size :=
          State.entryRefused_congr (by rw [hfirst]; rfl) (by rw [hfirst]; rfl) (by rw [hfirst]; rfl) base size
        have hchecked : u.rechecked w = s.rechecked w := by
          simp only [State.rechecked, hother hwv, hrefused]
        simp only [hchecked, hother hwv, List.mem_cons, hwv, false_or]

theorem mem_allRecords (x : RecordId) : x ∈ allRecords := by
  cases x <;> simp [allRecords]

theorem State.mem_fullRewrite (x : RecordId) (s : State) : QueueEntry.record x ∈ s.fullRewrite.ctl.queue := by
  rw [State.fullRewrite, List.mem_append, List.mem_filter]
  by_cases h : QueueEntry.record x ∈ s.ctl.queue
  · exact .inl h
  · exact .inr ⟨List.mem_map_of_mem (mem_allRecords x), by simpa using h⟩

/-- Settles O35: the checks by `State.storeFits_iff`, the windows by `State.foldl_recheckWindow`. -/
theorem storeSetup : Obligations.StoreSetup := by
  intro base log count reserve s hup hpass r control fits
  have hfits : s.storeFits base.toNat count.toNat log.toNat reserve = true ↔ fits := State.storeFits_iff ..
  have hcmd : s.cmdStoreSetup base count log reserve = if s.storeFits base.toNat count.toNat log.toNat reserve then
      (s.enterRunning (StoreManager.setUp base.toNat count.toNat log.toNat r)).okay (le 2 count.toNat ++ le 2 r)
      else s.not .badArg := if_neg (by simp [hpass])
  have hrow := exec_ringCommand (c := .storeSetup base count log reserve) rfl s
  refine ⟨fun hbad => ?_, fun hgood => ?_⟩
  · exact State.ring_command_answers hup hrow (hcmd.trans (if_neg (by rw [hfits]; exact hbad)))
  · refine State.ring_command_leaves _ hup hrow (hcmd.trans (if_pos (hfits.mpr hgood))) ?_
    obtain ⟨u, hu⟩ : ∃ u : State, u = { s with
      store := StoreManager.setUp base.toNat count.toNat log.toNat r, ctl := { s.ctl with engine := .running } } := ⟨_, rfl⟩
    obtain ⟨q, windows, hform, hkeeps, hwindows⟩ :=
      State.foldl_recheckWindow (l := allWindows) (by decide) u.fullRewrite
    have hentered : s.enterRunning (StoreManager.setUp base.toNat count.toNat log.toNat r) =
        ({ u.fullRewrite with path := { u.fullRewrite.path with windows := windows } } : State).withQueue q := by
      rw [← hform, hu]
      rfl
    have hwindow (w : Fin 6) : windows.get w = u.fullRewrite.rechecked w := by
      rw [hwindows, if_pos (mem_allWindows w)]
    have hsame (w : Fin 6) : u.fullRewrite.window w = s.window w := by rw [hu]; rfl
    rw [State.okay, hentered]
    refine ⟨?_, fun x => hkeeps _ (u.mem_fullRewrite x), fun w hnone => ?_, fun w e hsome => ?_⟩
    · rw [hu]
      rfl
    · refine (hwindow w).trans ?_
      rw [State.rechecked, hsame, hnone]
      rfl
    · intro off
      refine (hwindow w).trans ?_
      have hoff : off = (e.refused || u.fullRewrite.entryRefused e.base e.sizeCode) := rfl
      rw [State.rechecked, hsame, hsome, hoff]
      rfl

end Sys2Proof.Machine

/-! PROOF. The charge unit's commands: the clock, the calendar, tariffs, prefixes, accounts and the log (chapters 10 and 11). -/

namespace Sys2Proof.Machine

/-! ## Noted outcomes -/

theorem indexBelow_eq_some_iff {n k : Nat} (i : Fin n) : indexBelow n k = some i ↔ k = i.val := by
  refine ⟨fun h => ?_, indexBelow_of_eq i⟩
  rw [indexBelow] at h
  split at h
  · cases h
    rfl
  · cases h

/-! ## TIME SET (R173, R175) -/

theorem reached_reading_eq_false (c : ChargeUnit) (b : ClockValue) :
    reached c.reading b = false ↔ c.clockSet = false ∨ c.clock.day.toNat < b.day.toNat ∨
      (c.clock.day = b.day ∧ c.clock.second < b.second) := by
  rw [ChargeUnit.reading]
  cases hset : c.clockSet with
  | false => simp [reached]
  | true =>
    simp only [reached, ClockValue.before, if_true, Bool.not_eq_false', Bool.or_eq_true, Bool.and_eq_true, decide_eq_true_eq,
      Bool.true_eq_false, false_or]

theorem reached_some (c b : ClockValue) :
    reached (some c) b = true ↔ ¬(c.day.toNat < b.day.toNat ∨ (c.day = b.day ∧ c.second < b.second)) := by
  simp only [reached, ClockValue.before, Bool.not_eq_true', ← Bool.not_eq_true, Bool.or_eq_true, Bool.and_eq_true,
    decide_eq_true_eq]

/-- A document whose not-before time a change of the clock passes. -/
theorem passed_iff (old new : Option ClockValue) (r : DocRecord) :
    passed old new r = true ↔
      ∃ b, r.notBefore = some b ∧ r.inUse = true ∧ r.complete = false ∧ reached old b = false ∧ reached new b = true := by
  rw [passed]
  cases r.notBefore with
  | none => simp
  | some b => simp [and_assoc]

theorem State.hasPending_iff (r : DocRecord) (s : State) :
    s.hasPending r = true ↔ ∃ x, x ∈ r.dests ∧ (s.dest x).state = .pending := by
  simp [State.hasPending]

/-- The documents whose not-before time a change of the clock passes, with a PENDING destination. -/
def State.notBeforePassed (old : Option ClockValue) (s : State) : Prop :=
  ∃ d, passed old s.charge.reading (s.doc d) = true ∧ s.hasPending (s.doc d) = true

/-- Judging the not-before times, by whether one has passed (R175). -/
theorem State.judgeNotBefore_eq (old : Option ClockValue) (s : State) :
    (s.notBeforePassed old → s.judgeNotBefore old = (s.raise .clock).askArbiter) ∧
      (¬s.notBeforePassed old → s.judgeNotBefore old = s) := by
  have hany : s.dispatch.docs.any (fun r => passed old s.charge.reading r && s.hasPending r) = true ↔ s.notBeforePassed old := by
    rw [Table.any_eq_true]
    exact exists_congr fun d => Bool.and_eq_true_iff
  exact ⟨fun h => if_pos (hany.mpr h), fun h => if_neg fun hall => h (hany.mp hall)⟩

theorem or_or_self (x y : BitVec 12) : x ||| y ||| y = x ||| y := by
  rw [BitVec.or_assoc, BitVec.or_self]

theorem Notice.pending_of_or {f : Notice} {s : State} {x : BitVec 12} (h : s.ctl.notices = x ||| f.bit) : s.isPending f = true := by
  rw [State.isPending, h, BitVec.getLsbD_or, Notice.bit_getLsbD f f.position_lt, decide_eq_true rfl, Bool.or_true]

/-- The charge unit with the clock set, before the period is judged. -/
def State.clockSet (day : BitVec 16) (dayOfWeek second : Nat) (s : State) : State :=
  { s with charge := { s.charge with
      clockSet := true, clock := { day := day, second := second }, dayOfWeek := dayOfWeek, dividerDue := s.now + 1000000 } }

/-- Settles O36. -/
theorem timeSet : Obligations.TimeSet := by
  intro day dayOfWeek second s hup
  have hrow := exec_ringCommand (c := .timeSet day dayOfWeek second) rfl s
  refine ⟨fun hbad => ?_, fun hday hsecond => ?_⟩
  · exact State.ring_command_answers hup hrow (if_neg (by simp only [Config.secondsPerDay]; omega))
  · have hcmd : s.cmdTimeSet day dayOfWeek second = (s.setClock day dayOfWeek.toNat second.toNat).okPeriod :=
      if_pos ⟨hday, by simp only [Config.secondsPerDay]; omega⟩
    obtain ⟨u, hu⟩ : ∃ u, u = s.clockSet day dayOfWeek.toNat second.toNat := ⟨_, rfl⟩
    obtain ⟨q₁, hcounters, -, hqueued⟩ := State.rewrite_form .counters u
    obtain ⟨q₂, hperiod, hkeeps₂⟩ := State.judgePeriod_form (u.withQueue q₁)
    obtain ⟨v, hv⟩ : ∃ v, v = (u.withQueue q₁).judgePeriod := ⟨_, rfl⟩
    obtain ⟨q, notices, due, hjudged, hkeeps, hnotices⟩ := State.judgeNotBefore_form s.charge.reading v
    rw [← hv] at hperiod
    have hset : s.setClock day dayOfWeek.toNat second.toNat = (v.judgeNotBefore s.charge.reading).askArbiter := by
      rw [hv, ← hcounters, hu]
      rfl
    have hdata : v.charge.period = u.charge.judged ∧ v.charge.reading = some ⟨day, second.toNat⟩ ∧
        (∀ d, v.doc d = s.doc d) ∧ (∀ x, v.dest x = s.dest x) := by
      rw [hperiod, hu]
      exact ⟨rfl, rfl, fun _ => rfl, fun _ => rfl⟩
    obtain ⟨hv_period, hreading, hdoc, hdest⟩ := hdata
    have hpassed : v.notBeforePassed s.charge.reading ↔
        ∃ d b, (s.doc d).inUse = true ∧ (s.doc d).complete = false ∧ (s.doc d).notBefore = some b ∧
          (∃ x, x ∈ (s.doc d).dests ∧ (s.dest x).state = .pending) ∧
          (s.charge.clockSet = false ∨ s.charge.clock.day.toNat < b.day.toNat ∨
            (s.charge.clock.day = b.day ∧ s.charge.clock.second < b.second)) ∧
          ¬(day.toNat < b.day.toNat ∨ (day = b.day ∧ second.toNat < b.second)) := by
      refine exists_congr fun d => ?_
      rw [passed_iff, State.hasPending_iff, hdoc, hreading]
      simp only [hdest, reached_reading_eq_false, reached_some]
      constructor
      · rintro ⟨⟨b, hb, huse, hcomplete, hold, hnew⟩, hpending⟩
        exact ⟨b, huse, hcomplete, hb, hpending, hold, hnew⟩
      · rintro ⟨b, huse, hcomplete, hb, hpending, hold, hnew⟩
        exact ⟨⟨b, hb, huse, hcomplete, hold, hnew⟩, hpending⟩
    have hvnotices : v.ctl.notices =
        if v.charge.period = s.charge.period then s.ctl.notices else s.ctl.notices ||| Notice.clock.bit := by
      rw [hv_period, hperiod, hu]
      rfl
    have hvcounters : QueueEntry.record .counters ∈ v.ctl.queue := by
      rw [hperiod]
      exact hkeeps₂ _ hqueued
    obtain ⟨w, hw⟩ : ∃ w, w = v.judgeNotBefore s.charge.reading := ⟨_, rfl⟩
    have hwcharge : w.charge = v.charge := by rw [hw, hjudged]
    have hwnotices : w.ctl.notices = notices := by rw [hw, hjudged]
    rw [← hw] at hset hjudged
    refine State.ring_command_leaves _ hup hrow (hcmd.trans rfl) ?_
    rw [hset]
    have hflags : w.ctl.notices = s.ctl.notices ∨ w.ctl.notices = s.ctl.notices ||| Notice.clock.bit := by
      rw [hwnotices]
      split at hvnotices
      · exact hvnotices ▸ hnotices
      · refine .inr (hnotices.elim (fun h => h.trans hvnotices) fun h => ?_)
        rw [h, hvnotices, or_or_self]
    have hchanged (h : v.charge.period ≠ s.charge.period) : w.isPending .clock = true := by
      rw [if_neg h] at hvnotices
      refine Notice.pending_of_or (x := s.ctl.notices) ?_
      rw [hwnotices]
      obtain h | h := hnotices
      · rw [h, hvnotices]
      · rw [h, hvnotices, or_or_self]
    obtain ⟨hraises, hrests⟩ := State.judgeNotBefore_eq s.charge.reading v
    rw [hpassed, ← hw] at hraises hrests
    refine ⟨?frame, hflags, fun hnew => hchanged (hwcharge ▸ hnew), ?counters, fun hp => ?raised, fun hp hsame => ?same⟩
    case frame =>
      rw [hjudged, hperiod, hu]
      rfl
    case counters =>
      have hwcounters : QueueEntry.record .counters ∈ w.ctl.queue := by
        rw [hjudged]
        exact hkeeps _ hvcounters
      exact hwcounters
    case raised =>
      have hwclock : w.isPending .clock = true := by
        rw [hraises hp]
        exact Notice.pending_of_or (State.raise_notices .clock v)
      exact hwclock
    case same =>
      have hwsame : w.ctl.notices = s.ctl.notices := by
        rw [hrests hp, hvnotices, if_pos (hwcharge ▸ hsame)]
      exact hwsame

/-! ## PERIOD SET (R176, R177) -/

/-- The later of the best entry so far and one more that qualifies; the best so far among equals. -/
def laterEntry (day second : Nat) (best : Option CalendarEntry) (e : CalendarEntry) : Option CalendarEntry :=
  if e.qualifies day second then best.elim (some e) fun x => if x.start < e.start then some e else some x else best

theorem latestEntry_cons (day second : Nat) (e : CalendarEntry) (l : List CalendarEntry) (best : Option CalendarEntry) :
    latestEntry day second (e :: l) best = latestEntry day second l (laterEntry day second best e) := by
  cases best <;> rfl

theorem latestEntry_none {day second : Nat} {l : List CalendarEntry} {best : Option CalendarEntry}
    (h : ∀ e ∈ l, e.qualifies day second = false) : latestEntry day second l best = best := by
  induction l with
  | nil => rfl
  | cons e l ih =>
    rw [latestEntry_cons, laterEntry, h e List.mem_cons_self, if_neg (by decide)]
    exact ih fun f hf => h f (List.mem_cons_of_mem _ hf)

/-- An entry that none of those to come is later than stays the latest. -/
theorem latestEntry_keeps {day second : Nat} {l : List CalendarEntry} {e : CalendarEntry}
    (h : ∀ f ∈ l, f.qualifies day second = true → f.start ≤ e.start) : latestEntry day second l (some e) = some e := by
  induction l with
  | nil => rfl
  | cons f l ih =>
    have hkept : laterEntry day second (some e) f = some e := by
      rw [laterEntry]
      split
      · next hf => exact if_neg (by have := h f List.mem_cons_self hf; omega)
      · rfl
    rw [latestEntry_cons, hkept]
    exact ih fun g hg => h g (List.mem_cons_of_mem _ hg)

/-- The latest entry, the first among equals, is the one found. -/
theorem latestEntry_eq_some {day second : Nat} {l : List CalendarEntry} {best : Option CalendarEntry} {i : Nat} (hi : i < l.length)
    (hqualifies : l[i].qualifies day second = true) (hbest : ∀ x, best = some x → x.start < l[i].start)
    (hlatest : ∀ j (hj : j < l.length), l[j].qualifies day second = true →
      l[j].start < l[i].start ∨ (l[j].start = l[i].start ∧ i ≤ j)) :
    latestEntry day second l best = some l[i] := by
  induction l generalizing best i with
  | nil => cases hi
  | cons f l ih =>
    rw [latestEntry_cons]
    cases i with
    | zero =>
      rw [List.getElem_cons_zero] at hqualifies hbest hlatest ⊢
      have hlater : ∀ g ∈ l, g.qualifies day second = true → g.start ≤ f.start := by
        intro g hg hq
        obtain ⟨j, hj, rfl⟩ := List.getElem_of_mem hg
        have := hlatest (j + 1) (by simpa using hj) (by simpa using hq)
        simp only [List.getElem_cons_succ] at this
        omega
      have htaken : laterEntry day second best f = some f := by
        rw [laterEntry, if_pos hqualifies]
        cases best with
        | none => rfl
        | some x => exact if_pos (hbest x rfl)
      rw [htaken]
      exact latestEntry_keeps hlater
    | succ k =>
      simp only [List.getElem_cons_succ] at hqualifies hbest hlatest ⊢
      refine ih (by simpa using hi) hqualifies (fun x hx => ?_) (fun j hj hq => ?_)
      · rw [laterEntry] at hx
        split at hx
        · next hf =>
          have hk : k < l.length := by simpa using hi
          have hless : f.start < l[k].start := by
            have := hlatest 0 (by simp) hf
            simp only [List.getElem_cons_zero] at this
            omega
          cases best with
          | none =>
            cases hx
            exact hless
          | some y =>
            have hy := hbest y rfl
            dsimp only [Option.elim] at hx
            split at hx
            · cases hx
              exact hless
            · cases hx
              exact hy
        · exact hbest x hx
      · have := hlatest (j + 1) (by simpa using hj) (by simpa using hq)
        simp only [List.getElem_cons_succ] at this
        omega

theorem ChargeUnit.judged_eq {c : ChargeUnit} (h : c.clockSet = true) :
    c.judged = ((latestEntry c.dayOfWeek c.clock.second c.calendar.cells none).map (·.period)).getD 0 := if_pos h

/-- Settles O37: the command's chain as one equation, and the calendar judged by `latestEntry_eq_some`. -/
theorem periodSet : Obligations.PeriodSet := by
  refine ⟨fun entry daySet period start s hup => ?command, fun c => ⟨fun hunset => ?unset, fun hset hnone => ?none,
    fun e hset hqualifies hlatest => ?latest⟩⟩
  case command =>
    have hrow := exec_ringCommand (c := .periodSet entry daySet period start) rfl s
    refine ⟨fun hbad => ?bad, fun e p he hp hdays hstart => ?good⟩
    case bad =>
      refine State.ring_command_answers hup hrow (?_ : s.cmdPeriodSet entry daySet period start = s.not .badArg)
      rw [State.cmdPeriodSet]
      split
      · next e p he hp =>
        have := (indexBelow_eq_some_iff e).mp he
        have := (indexBelow_eq_some_iff p).mp hp
        exact if_neg (by simp only [Config.secondsPerDay]; omega)
      · rfl
    case good =>
      obtain ⟨x, hx⟩ : ∃ x : CalendarEntry, x = ⟨daySet.truncate 7, start.toNat, p⟩ := ⟨_, rfl⟩
      obtain ⟨u, hu⟩ : ∃ u : State, u = { s with charge := { s.charge with calendar := s.charge.calendar.set e x } } := ⟨_, rfl⟩
      have hcmd : s.cmdPeriodSet entry daySet period start = ((u.rewrite .tariff).judgePeriod).okPeriod := by
        rw [State.cmdPeriodSet, indexBelow_of_eq e he, indexBelow_of_eq p hp]
        dsimp only
        rw [if_pos ⟨hdays, by simp only [Config.secondsPerDay]; omega⟩, hu, hx]
      obtain ⟨q₁, htariff, -, hqueued⟩ := State.rewrite_form .tariff u
      obtain ⟨q, hjudged, hkeeps⟩ := State.judgePeriod_form (u.withQueue q₁)
      refine State.ring_command_leaves _ hup hrow hcmd ?_
      rw [htariff, hjudged, hu, hx]
      exact ⟨rfl, hkeeps _ hqueued⟩
  case unset =>
    rw [ChargeUnit.judged, hunset]
    rfl
  case none =>
    rw [ChargeUnit.judged_eq hset, latestEntry_none]
    · rfl
    · intro e he
      obtain ⟨i, hi, rfl⟩ := List.getElem_of_mem he
      exact hnone ⟨i, by rwa [c.calendar.size] at hi⟩
  case latest =>
    have hfound := latestEntry_eq_some (best := none) (i := e.val) (by rw [c.calendar.size]; exact e.isLt) hqualifies
      (fun x hx => by cases hx) fun j hj hq => hlatest ⟨j, by rwa [c.calendar.size] at hj⟩ hq
    rw [ChargeUnit.judged_eq hset, hfound]
    rfl

/-! ## TARIFF SET and PREFIX SET (R178, R179) -/

theorem prefixDigits_eq_some {l : List (Fin 10)} {v : Nat} (h : ∀ i (hi : i < l.length), v / 256 ^ i % 256 = l[i].val) :
    prefixDigits l.length v = some l := by
  induction l generalizing v with
  | nil => rfl
  | cons d l ih =>
    have hfirst : v % 256 = d.val := by
      have := h 0 (by simp)
      rwa [Nat.pow_zero, Nat.div_one, List.getElem_cons_zero] at this
    have hrest : prefixDigits l.length (v / 256) = some l := by
      refine ih fun i hi => ?_
      have := h (i + 1) (by simpa using hi)
      rwa [Nat.pow_succ', ← Nat.div_div_eq_div_mul, List.getElem_cons_succ] at this
    rw [List.length_cons, prefixDigits, indexBelow_of_eq d hfirst, hrest]

theorem prefixDigits_eq_none {n v i : Nat} (hi : i < n) (h : 10 ≤ v / 256 ^ i % 256) : prefixDigits n v = none := by
  induction n generalizing v i with
  | zero => cases hi
  | succ n ih =>
    rw [prefixDigits]
    cases i with
    | zero => rw [indexBelow_of_le (by simpa using h)]
    | succ j =>
      have hrest : prefixDigits n (v / 256) = none := by
        refine ih (Nat.lt_of_succ_lt_succ hi) ?_
        rwa [Nat.div_div_eq_div_mul, ← Nat.pow_succ']
      rw [hrest]
      split
      · contradiction
      · rfl

theorem extractLsb'_byte_toNat (x : BitVec 64) (i : Nat) : (x.extractLsb' (8 * i) 8).toNat = x.toNat / 256 ^ i % 256 := by
  rw [BitVec.extractLsb'_toNat, Nat.shiftRight_eq_div_pow, Nat.pow_mul]

theorem between_eq_some {low high k : Nat} (hlow : low ≤ k) (hhigh : k ≤ high) : between low high k = some k :=
  if_pos ⟨hlow, hhigh⟩

/-- The entry that PREFIX SET gives, its digits as they are spelt. -/
theorem prefixOperand_eq_some {count cls band : BitVec 8} {digits : BitVec 64} {x : PrefixEntry}
    (hcount : count.toNat = x.digits.length) (hlength : x.digits.length ≤ 8)
    (hdigits : ∀ i (h : i < x.digits.length), (digits.extractLsb' (8 * i) 8).toNat = x.digits[i].val)
    (hfields : if count = 0 then x.cls = 0 ∧ x.band = 0
      else 1 ≤ x.cls ∧ x.cls ≤ 4 ∧ cls.toNat = x.cls ∧ band.toNat = x.band.val) :
    prefixOperand count cls band digits = some x := by
  rw [prefixOperand]
  split at hfields
  · next hzero =>
    obtain ⟨hcls, hband⟩ := hfields
    have hempty : x.digits = [] := List.length_eq_zero_iff.mp (by rw [← hcount, hzero]; rfl)
    rw [if_pos hzero, ← hcls, ← hband, ← hempty]
  · next hzero =>
    obtain ⟨hlow, hhigh, hcls, hband⟩ := hfields
    have hpos : count.toNat ≠ 0 := fun h => hzero (BitVec.eq_of_toNat_eq h)
    have hspelt : prefixDigits x.digits.length digits.toNat = some x.digits := prefixDigits_eq_some fun i hi => by
      rw [← extractLsb'_byte_toNat, hdigits i hi]
    rw [if_neg hzero, hcount, hcls, between_eq_some (by omega) hlength, between_eq_some hlow hhigh, indexBelow_of_eq x.band hband]
    dsimp only
    rw [hspelt]
    rfl

theorem prefixOperand_eq_none {count cls band : BitVec 8} {digits : BitVec 64}
    (h : 8 < count.toNat ∨ (∃ i, i < count.toNat ∧ 10 ≤ (digits.extractLsb' (8 * i) 8).toNat) ∨
      (1 ≤ count.toNat ∧ (cls = 0 ∨ 4 < cls.toNat ∨ 8 ≤ band.toNat))) : prefixOperand count cls band digits = none := by
  have hpos : 1 ≤ count.toNat := by
    obtain h | ⟨i, hi, -⟩ | ⟨h, -⟩ := h <;> omega
  have hzero : count ≠ 0 := by
    rintro rfl
    exact absurd hpos (by decide)
  rw [prefixOperand, if_neg hzero]
  split
  · next n c b hn hc hb =>
    have hcount : n = count.toNat ∧ count.toNat ≤ 8 := by
      rw [between] at hn
      split at hn
      · cases hn
        omega
      · cases hn
    have hcls : cls ≠ 0 ∧ cls.toNat ≤ 4 := by
      rw [between] at hc
      split at hc
      · refine ⟨?_, by omega⟩
        rintro rfl
        simp at *
      · cases hc
    have hband : band.toNat < 8 := by
      have := (indexBelow_eq_some_iff b).mp hb
      omega
    obtain h | ⟨i, hi, hdigit⟩ | ⟨-, h⟩ := h
    · omega
    · rw [extractLsb'_byte_toNat] at hdigit
      rw [hcount.1, prefixDigits_eq_none hi hdigit]
      rfl
    · obtain h | h | h := h
      · exact absurd h hcls.1
      · omega
      · omega
  · rfl

/-- Settles O38: the rows by their operands. -/
theorem tariffSetAndPrefixSet : Obligations.TariffSetAndPrefixSet := by
  refine ⟨fun band v0 v1 v2 v3 s hup => ⟨fun hbad => ?tariffBad, fun b hb h0 h1 h2 h3 => ?tariff⟩,
    fun entry count cls band digits s hup => ⟨fun hbad => ?prefixBad, fun e x he hcount hlength hdigits hfields => ?prefixGood⟩⟩
  case tariffBad =>
    refine State.ring_command_answers hup (exec_ringCommand (c := .tariffSet band v0 v1 v2 v3) rfl s)
      (?_ : s.cmdTariffSet band v0 v1 v2 v3 = s.not .badArg)
    rw [State.cmdTariffSet]
    split
    · next b hb =>
      have := (indexBelow_eq_some_iff b).mp hb
      exact if_neg (by omega)
    · rfl
  case tariff =>
    obtain ⟨u, hu⟩ : ∃ u : State, u = { s with
      charge := { s.charge with grid := s.charge.grid.set b (gridRow v0 v1 v2 v3) } } := ⟨_, rfl⟩
    have hcmd : s.cmdTariffSet band v0 v1 v2 v3 = (u.rewrite .tariff).okay [] := by
      rw [State.cmdTariffSet, indexBelow_of_eq b hb, hu]
      exact if_pos ⟨h0, h1, h2, h3⟩
    obtain ⟨q, htariff, -, hqueued⟩ := State.rewrite_form .tariff u
    have hexec := State.ring_command_runs hup (exec_ringCommand (c := .tariffSet band v0 v1 v2 v3) rfl s)
    have hdone : State.ringCommand (.tariffSet band v0 v1 v2 v3) s = (u.rewrite .tariff).okay [] := hcmd
    rw [hdone, htariff] at hexec
    refine ⟨_, gridRow v0 v1 v2 v3, hexec, rfl, rfl, rfl, rfl, ?_, hqueued⟩
    rw [hu]
    rfl
  case prefixBad =>
    refine State.ring_command_answers hup (exec_ringCommand (c := .prefixSet entry count cls band digits) rfl s)
      (?_ : s.cmdPrefixSet entry count cls band digits = s.not .badArg)
    rw [State.cmdPrefixSet]
    split
    · next e x he hx =>
      have := (indexBelow_eq_some_iff e).mp he
      rw [prefixOperand_eq_none (hbad.resolve_left (by omega))] at hx
      cases hx
    · rfl
  case prefixGood =>
    obtain ⟨u, hu⟩ : ∃ u : State, u = { s with charge := { s.charge with prefixes := s.charge.prefixes.set e x } } := ⟨_, rfl⟩
    have hcmd : s.cmdPrefixSet entry count cls band digits = (u.rewrite (.prefixEntry e)).okay [] := by
      rw [State.cmdPrefixSet, indexBelow_of_eq e he, prefixOperand_eq_some hcount hlength hdigits hfields, hu]
    obtain ⟨q, hrewrite, -, hqueued⟩ := State.rewrite_form (.prefixEntry e) u
    refine State.ring_command_leaves _ hup (exec_ringCommand (c := .prefixSet entry count cls band digits) rfl s) hcmd ?_
    rw [hrewrite, hu]
    exact ⟨rfl, hqueued⟩

/-! ## ACCOUNT SET and ACCOUNT CLEAR (R185 to R187) -/

theorem namesAbove_iff (a : Fin 32) (limit : Option Nat) (c : Option CallContext) :
    namesAbove a limit c = true ↔ ∃ x, c = some x ∧ x.account = a ∧ ∀ n, limit = some n → n < x.cls := by
  cases c <;> cases limit <;> simp [namesAbove]

theorem le_flag (b : Bool) : le 1 (flag b) = [if b then 1 else 0] := by
  cases b <;> rfl

theorem policyField_eq_some {policy : BitVec 8} (h : policy.toNat < 2) :
    policyField policy = some (if policy = 0 then .warn else .cut) := by
  rw [policyField]
  split
  · rfl
  · next hzero =>
    have hpos : policy.toNat ≠ 0 := fun h => hzero (BitVec.eq_of_toNat_eq h)
    exact if_pos (BitVec.eq_of_toNat_eq (show policy.toNat = 1 by omega))

theorem policyField_eq_none {policy : BitVec 8} (h : 2 ≤ policy.toNat) : policyField policy = none := by
  rw [policyField, if_neg, if_neg]
  · rintro rfl
    exact absurd h (by decide)
  · rintro rfl
    exact absurd h (by decide)

/-- The contexts left by a policy that finds none of them on the account. -/
theorem State.policedContext_of_not_named {a : Fin 32} {x : Account} {n : Fin 4} {s : State}
    (h : ∀ c, s.context n = some c → c.account ≠ a) : s.policedContext a x n = s.context n := by
  rw [State.policedContext]
  cases hc : s.context n with
  | none => rfl
  | some c => exact congrArg some (if_neg (h c hc))

/-- An account replaced and its budget judged: the account as judged, and the contexts under its policy. -/
theorem State.judgeBudget_setAccount (a : Fin 32) (x : Account) (s : State) :
    ∃ q contexts due, (s.setAccount a x).judgeBudget a = { s with
        charge := { s.charge with accounts := s.charge.accounts.set a x.judgedAccount, contexts := contexts },
        dispatch := { s.dispatch with arbiterDue := due },
        ctl := { s.ctl with
          queue := q,
          notices := if x.atBudget = false ∧ x.overBudget = true then s.ctl.notices ||| Notice.budget.bit else s.ctl.notices } } ∧
      ∀ n, contexts.get n = s.policedContext a x.judgedAccount n := by
  obtain ⟨q₁, hset, -⟩ := State.setAccount_form a x s
  obtain ⟨u, hu⟩ : ∃ u, u = s.setAccount a x := ⟨_, rfl⟩
  have haccount : u.account a = x := by
    rw [hu, hset]
    exact Table.get_set_self _ _ _
  obtain ⟨q, contexts, due, hjudged, -, hcontexts⟩ := State.judgeBudget_form a u
  rw [haccount] at hjudged hcontexts
  rw [← hu] at hset
  refine ⟨q, contexts, due, ?_, fun n => ?_⟩
  · rw [← hu, hjudged, hset]
    exact congrArg (fun l => ({ s with
      charge := { s.charge with accounts := l, contexts := contexts }, dispatch := { s.dispatch with arbiterDue := due },
      ctl := { s.ctl with
        queue := q,
        notices := if x.atBudget = false ∧ x.overBudget = true then s.ctl.notices ||| Notice.budget.bit else s.ctl.notices } } :
          State)) (Table.set_set ..)
  · rw [hcontexts, hset]
    rfl

/-- What the policy does to a context of the account (R187). -/
theorem CallContext.policed_cases (x : Account) (now : Nat) (c : CallContext) :
    let cut : Prop := x.atBudget = true ∧ x.policy = .cut
    (c.method = .none ∨ c.phase = .unanswered → c.policed x now = c) ∧
    (c.method ≠ .none → c.phase = .charging →
      (cut → c.policed x now = { c with phase := .grace, graceTimer := some (now + 30000000) }) ∧
      (¬cut → c.policed x now = c)) ∧
    (c.method ≠ .none → c.phase = .grace →
      (cut → c.policed x now = c) ∧ (¬cut → c.policed x now = { c with phase := .charging, graceTimer := none })) := by
  intro cut
  refine ⟨fun h => ?_, fun hmethod hphase => ?_, fun hmethod hphase => ?_⟩
  · rw [CallContext.policed]
    split
    · rfl
    · next hmethod =>
      rw [h.resolve_left hmethod]
  · rw [CallContext.policed, if_neg hmethod, hphase]
    exact ⟨fun h => if_pos h, fun h => if_neg h⟩
  · rw [CallContext.policed, if_neg hmethod, hphase]
    exact ⟨fun h => if_pos h, fun h => if_neg h⟩

/-- Settles O39: the command's answers in their order, the accepted one by `State.judgeBudget_setAccount`. -/
theorem accountSet : Obligations.AccountSet := by
  refine ⟨fun account cls policy code budget s hup => ?_, CallContext.policed_cases⟩
  have hrow := exec_ringCommand (c := .accountSet account cls policy code budget) rfl s
  refine ⟨fun hbad => ?bad, fun a ha hcode hcls hbudget hpolicy => ?_⟩
  case bad =>
    refine State.ring_command_answers hup hrow (?_ : s.cmdAccountSet account cls policy code budget = s.not .badArg)
    rw [State.cmdAccountSet]
    split
    · next a p ha hp =>
      have := (indexBelow_eq_some_iff a).mp ha
      have hpolicy : policy.toNat < 2 := by
        by_contra h
        rw [policyField_eq_none (by omega)] at hp
        cases hp
      exact if_neg (by omega)
    · rfl
  obtain ⟨x, hx⟩ : ∃ x : Account, x = { s.account a with
    code := code.toNat, cls := cls.toNat, budget := budget.toNat, policy := if policy = 0 then .warn else .cut } := ⟨_, rfl⟩
  have hcmd : s.cmdAccountSet account cls policy code budget =
      if s.charge.contexts.any (namesAbove a (some cls.toNat)) then s.not .barred
      else (((s.setAccount a x).judgeBudget a).askArbiter).okay
        (le 1 (flag ((((s.setAccount a x).judgeBudget a).askArbiter).account a).atBudget)) := by
    rw [State.cmdAccountSet, indexBelow_of_eq a ha, policyField_eq_some hpolicy, hx]
    exact if_pos ⟨hcode, hcls, hbudget⟩
  have hnamed : s.charge.contexts.any (namesAbove a (some cls.toNat)) = true ↔
      ∃ n c, s.context n = some c ∧ c.account = a ∧ cls.toNat < c.cls := by
    rw [Table.any_eq_true]
    simp only [namesAbove_iff, Option.some.injEq, forall_eq']
    rfl
  refine ⟨fun hbarred => ?barred, fun hallowed => ?set⟩
  case barred => exact State.ring_command_answers hup hrow (hcmd.trans (if_pos (hnamed.mpr hbarred)))
  case set =>
    intro full
    obtain ⟨q, contexts, due, hjudged, hcontexts⟩ := State.judgeBudget_setAccount a x s
    have hover : x.overBudget = full := by
      rw [hx]
      exact (Bool.decide_and ..).symm
    have haccount : x.judgedAccount = { s.account a with
        code := code.toNat, cls := cls.toNat, budget := budget.toNat,
        policy := if policy = 0 then .warn else .cut, atBudget := full } := by
      rw [Account.judgedAccount, hover, hx]
    have hat : x.atBudget = (s.account a).atBudget := by rw [hx]
    obtain ⟨u, hu⟩ : ∃ u, u = ((s.setAccount a x).judgeBudget a).askArbiter := ⟨_, rfl⟩
    rw [← hu] at hcmd
    rw [hjudged, haccount, hover, hat] at hu
    have hdata : le 1 (flag (u.account a).atBudget) = [if full then 1 else 0] := by
      have huaccount : (u.account a).atBudget = full := by
        rw [hu]
        exact congrArg Account.atBudget (Table.get_set_self _ _ _)
      rw [huaccount, le_flag]
    rw [hdata] at hcmd
    refine State.ring_command_leaves _ hup hrow (hcmd.trans (if_neg ?_)) ?_
    · rw [hnamed]
      rintro ⟨n, c, hc, hca, hlt⟩
      exact absurd (hallowed n c hc hca) (by omega)
    · have hcontext (n : Fin 4) : (u.context n) = (s.context n).map fun c =>
          if c.account = a then c.policed (u.account a) s.now else c := by
        have huaccount : u.account a = x.judgedAccount := by
          rw [hu, haccount]
          exact Table.get_set_self _ _ _
        rw [huaccount, hu]
        exact hcontexts n
      refine ⟨?_, hcontext⟩
      rw [hu]
      rfl

/-- Settles O40: an account that nothing names is judged at no charge, and no context is under its policy. -/
theorem accountClear : Obligations.AccountClear := by
  intro account s hup hrun
  have hrow := exec_ringCommand (c := .accountClear account) rfl s
  refine ⟨fun hbad => ?bad, fun a ha => ?_⟩
  case bad =>
    refine State.ring_command_answers hup hrow (?_ : State.cmdAccountClear account s = s.not .badArg)
    rw [State.cmdAccountClear, State.inRunning_taken _ hrun, indexBelow_of_le (by omega)]
  intro named
  have hcmd : State.cmdAccountClear account s =
      if s.charge.contexts.any (namesAbove a none) || s.charge.recordQueue.any (fun r => decide (r.account = a)) then s.not .busy
      else (((s.setAccount a { s.account a with charged := 0, calls := 0 }).judgeBudget a).askArbiter).okay [] := by
    rw [State.cmdAccountClear, State.inRunning_taken _ hrun, indexBelow_of_eq a ha]
  have hnamed : (s.charge.contexts.any (namesAbove a none) ||
      s.charge.recordQueue.any (fun r => decide (r.account = a))) = true ↔ named := by
    rw [Bool.or_eq_true, Table.any_eq_true, List.any_eq_true]
    simp only [namesAbove_iff, decide_eq_true_eq, reduceCtorEq, false_implies, implies_true, and_true]
    rfl
  refine ⟨fun hbusy => ?busy, fun hfree => ?clear⟩
  case busy => exact State.ring_command_answers hup hrow (hcmd.trans (if_pos (hnamed.mpr hbusy)))
  case clear =>
    obtain ⟨x, hx⟩ : ∃ x : Account, x = { s.account a with charged := 0, calls := 0 } := ⟨_, rfl⟩
    obtain ⟨q, contexts, due, hjudged, hcontexts⟩ := State.judgeBudget_setAccount a x s
    have hover : x.overBudget = false := by
      rw [Account.overBudget, hx]
      simp
    have hsame : contexts = s.charge.contexts := by
      refine Table.ext_get fun n => (hcontexts n).trans (State.policedContext_of_not_named fun c hc hca => ?_)
      exact hfree (.inl ⟨n, c, hc, hca⟩)
    rw [if_neg (by simp [hover]), hsame, Account.judgedAccount, hover] at hjudged
    refine State.ring_command_leaves _ hup hrow (hcmd.trans (if_neg (by rw [hnamed]; exact hfree))) ?_
    rw [← hx, hjudged, hx]
    rfl

/-! ## LOG RELEASE (R196) -/

/-- Settles O41. -/
theorem logRelease : Obligations.LogRelease := by
  intro count s hup hrun
  have hrow := exec_ringCommand (c := .logRelease count) rfl s
  have hcmd : State.cmdLogRelease count s =
      if s.charge.written < count.toNat then s.not .badArg
      else if count = 0 then s.okLog
      else ((({ s with charge := { s.charge with readIndex := s.charge.readIndex + count } } : State).rewrite
        .counters).askArbiter).okLog := by
    rw [State.cmdLogRelease, State.inRunning_taken _ hrun]
  refine ⟨fun hbad => ?bad, fun hgood => ?_⟩
  case bad => exact State.ring_command_answers hup hrow (hcmd.trans (if_pos hbad))
  intro index data
  rw [if_neg (show ¬s.charge.written < count.toNat from Nat.not_lt.mpr hgood)] at hcmd
  refine ⟨fun hzero => ?zero, fun hsome => ?release⟩
  case zero =>
    have hindex : index = s.charge.readIndex := by
      refine (congrArg (s.charge.readIndex + ·) hzero).trans ?_
      exact BitVec.add_zero _
    have hdata : data = le 2 s.charge.readIndex.toNat ++ le 2 s.charge.written := by
      rw [ChargeUnit.written, ← hindex]
    rw [hdata]
    exact State.ring_command_answers hup hrow (hcmd.trans (if_pos hzero))
  case release =>
    obtain ⟨u, hu⟩ : ∃ u : State, u = { s with charge := { s.charge with readIndex := s.charge.readIndex + count } } := ⟨_, rfl⟩
    obtain ⟨q, hrewrite, -, hqueued⟩ := State.rewrite_form .counters u
    refine State.ring_command_leaves _ hup hrow (hcmd.trans (if_neg hsome)) ?_
    rw [← hu, hrewrite, hu]
    exact ⟨rfl, hqueued⟩

end Sys2Proof.Machine

/-! PROOF. LINE SETUP (R117, R118). -/

namespace Sys2Proof.Machine

/-! ## Settings in range (R117) -/

theorem directionField_eq_some_iff (x : BitVec 8) (d : LineDirection) :
    directionField x = some d ↔ x = BitVec.ofNat 8 d.code := by
  unfold directionField
  split_ifs with h0 h1 h2 h3
  all_goals cases d <;> simp_all [LineDirection.code]

theorem dialMethodField_eq_some_iff (x : BitVec 8) (m : DialMethod) :
    dialMethodField x = some m ↔ x = BitVec.ofNat 8 m.code := by
  unfold dialMethodField
  split_ifs with h0 h1
  all_goals cases m <;> simp_all [DialMethod.code]

theorem chargeMethodField_eq_some_iff (x : BitVec 8) (m : ChargeMethod) :
    chargeMethodField x = some m ↔ x = BitVec.ofNat 8 m.code := by
  unfold chargeMethodField
  split_ifs with h0 h1
  all_goals cases m <;> simp_all [ChargeMethod.code]

theorem between_eq_some_iff {low high k n : Nat} : between low high k = some n ↔ k = n ∧ low ≤ n ∧ n ≤ high := by
  unfold between
  split_ifs with h
  · simp only [Option.some.injEq]
    omega
  · simp only [reduceCtorEq, false_iff]
    omega

theorem settingsOperand_eq_some_iff (f : SettingsField) (x : LineSettings) : settingsOperand f = some x ↔
    f.direction = BitVec.ofNat 8 x.direction.code ∧ f.dialMethod = BitVec.ofNat 8 x.dialMethod.code ∧
      f.chargeMethod = BitVec.ofNat 8 x.chargeMethod.code ∧
      f.rings.toNat = x.rings ∧ x.rings ≤ 9 ∧ f.seizeDelay.toNat = x.seizeDelay ∧ 1 ≤ x.seizeDelay ∧ x.seizeDelay ≤ 8 ∧
      f.noAnswer.toNat = x.noAnswer ∧ 20 ≤ x.noAnswer ∧ x.noAnswer ≤ 180 ∧
      f.clearGuard.toNat = x.clearGuard ∧ 1 ≤ x.clearGuard ∧ x.clearGuard ≤ 10 ∧
      f.pauseLength.toNat = x.pauseLength ∧ 1 ≤ x.pauseLength ∧ x.pauseLength ≤ 10 ∧
      f.toneOn.toNat = x.toneOn ∧ 50 ≤ x.toneOn ∧ x.toneOn ≤ 200 ∧
      f.toneGap.toNat = x.toneGap ∧ 50 ≤ x.toneGap ∧ x.toneGap ≤ 200 := by
  simp only [settingsOperand, bind, pure, Option.bind_eq_some_iff, directionField_eq_some_iff, dialMethodField_eq_some_iff,
    chargeMethodField_eq_some_iff, between_eq_some_iff, Option.some.injEq]
  constructor
  · rintro ⟨d, hd, m, hm, c, hc, r, hr, s, hs, a, ha, g, hg, p, hp, o, ho, t, ht, rfl⟩
    simp only [hd, hm, hc, hr, hs, ha, hg, hp, ho, ht, true_and, and_self]
  · rintro ⟨hd, hm, hc, hr, hr9, hs, hs1, hs8, ha, ha1, ha2, hg, hg1, hg2, hp, hp1, hp2, ho, ho1, ho2, ht, ht1, ht2⟩
    exact ⟨_, hd, _, hm, _, hc, _, ⟨hr, Nat.zero_le _, hr9⟩, _, ⟨hs, hs1, hs8⟩, _, ⟨ha, ha1, ha2⟩, _, ⟨hg, hg1, hg2⟩, _,
      ⟨hp, hp1, hp2⟩, _, ⟨ho, ho1, ho2⟩, _, ⟨ht, ht1, ht2⟩, rfl⟩

/-! ## Taking the settings up (R118) -/

theorem State.setLine_lineUnit_same (n : Fin 4) (u : LineUnit) (s : State) : (s.setLine n u).lineUnit n = u := by
  rw [State.lineUnit, State.setLine_lines]
  exact Table.get_set_self _ _ _

/-- A line with settings that wait. -/
def LineUnit.withPending (x : LineSettings) (u : LineUnit) : LineUnit := { u with record := { u.record with pending := some x } }

theorem State.modRecord_withPending (n : Fin 4) (x : LineSettings) (s : State) :
    s.modRecord n (fun r => { r with pending := some x }) = s.setLine n ((s.lineUnit n).withPending x) := rfl

/-- A line unit replaced twice is replaced by the last. -/
theorem State.bare_setLine_setLine (n : Fin 4) (u v : LineUnit) (s : State) :
    ((s.setLine n u).setLine n v).bare = { s.bare with lines := s.lines.set n v } := by
  rw [State.bare_setLine, State.setLine_lines, Table.set_set, State.bare_setLine]

section Apply

variable {n : Fin 4} {x : LineSettings} {u : LineUnit} {s : State} (hu : s.lineUnit n = u.withPending x)

include hu

theorem State.applyIdle_off (hoff : x.direction = .off) : s.applyIdle n = s.setLine n { u.quiet with
    record := { u.record with active := x, pending := none, state := .disabled, disabledReason := .off, ringCount := 0 } } := by
  rw [State.applyIdle, hu]
  exact if_pos ⟨rfl, hoff⟩

theorem State.applyIdle_on (hon : x.direction ≠ .off) : s.applyIdle n = (s.setLine n { u with
    record := { u.record with active := x, pending := none, state := .idle } }).askArbiter := by
  rw [State.applyIdle, hu]
  exact if_neg fun h => hon h.2

theorem State.applyDisabled_off (hoff : x.direction = .off) : s.applyDisabled n = s.setLine n { u with
    record := { u.record with active := x, pending := none, disabledReason := .off, noLoopRun := 0 } } := by
  rw [State.applyDisabled, State.modRecord, State.modLine, hu]
  exact if_pos hoff

theorem State.applyDisabled_on (hon : x.direction ≠ .off) : s.applyDisabled n = (s.setLine n { u with
    record := { u.record with
      active := x, pending := none, state := .idle, disabledReason := .none, noLoopRun := 0, ringCount := 0 } }).askArbiter := by
  rw [State.applyDisabled, State.modRecord, State.modRecord, State.modLine, State.modLine, hu]
  exact if_neg hon

end Apply

/-- What LINE SETUP leaves, from the line unit and the arbiter's mark that it leaves. -/
theorem exec_lineSetup_leaves {line : BitVec 8} {f : SettingsField} {n : Fin 4} {y : LineUnit} {due : Bool} {data : List Byte}
    {s w : State} (hup : s.ctl.teardown = none) (hdone : s.cmdLineSetup line f = w.okay data)
    (hw : w.bare = { s.bare with lines := s.lines.set n y, dispatch := { s.dispatch with arbiterDue := due } }) :
    ∃ t : State, exec (.lineSetup line f) s = .next t.settleStep ∧
      t = { s with
        lines := s.lines.set n (t.lineUnit n), dispatch := { s.dispatch with arbiterDue := due },
        ctl := s.ctl.noted t s.ctl.notices .ok data } ∧ t.lineUnit n = y := by
  refine State.ring_command_leaves _ hup (exec_ringCommand (c := .lineSetup line f) rfl s) hdone ?_
  have hy : (w.noteResult ⟨.ok, data⟩).lineUnit n = y := by
    have hlines : w.lines = s.lines.set n y := congrArg State.lines hw
    rw [State.lineUnit, State.noteResult_lines, hlines]
    exact Table.get_set_self _ _ _
  refine ⟨State.eq_of_bare ?_ rfl, hy⟩
  rw [show (State.noteResult (w.okay data).result (w.okay data).state).lineUnit n = y from hy]
  exact congrArg (State.noteResult ⟨.ok, data⟩) hw

/-- Settles O42: the operands by `settingsOperand_eq_some_iff`, the accepted command by the line's state. -/
theorem lineSetup : Obligations.LineSetup := by
  intro line f s hup
  have hrow := exec_ringCommand (c := .lineSetup line f) rfl s
  refine ⟨fun hbad => ?bad, settingsOperand_eq_some_iff f, fun n x hn hx => ?good⟩
  case bad =>
    refine State.ring_command_answers hup hrow (?_ : s.cmdLineSetup line f = s.not .badArg)
    rw [State.cmdLineSetup]
    split
    · next n x hn hx =>
      have := (indexBelow_eq_some_iff n).mp hn
      have hnone := hbad.resolve_left (by omega)
      rw [hx] at hnone
      cases hnone
    · rfl
  case good =>
    intro u
    obtain ⟨v, hv⟩ : ∃ v, v = s.setLine n (u.withPending x) := ⟨_, rfl⟩
    have hunit : v.lineUnit n = u.withPending x := by rw [hv, State.setLine_lineUnit_same]
    have hreplace (y : LineUnit) : (v.setLine n y).bare = { s.bare with lines := s.lines.set n y } := by
      rw [hv, State.bare_setLine_setLine]
    have hidle (h : u.record.state = .idle) : s.cmdLineSetup line f = (v.applyIdle n).okay [1] := by
      rw [State.cmdLineSetup, indexBelow_of_eq n hn, hx, hv]
      dsimp only
      rw [show (s.lineUnit n).record.state = .idle from h, State.modRecord_withPending]
    have hdisabled (h : u.record.state = .disabled) : s.cmdLineSetup line f = (v.applyDisabled n).okay [1] := by
      rw [State.cmdLineSetup, indexBelow_of_eq n hn, hx, hv]
      dsimp only
      rw [show (s.lineUnit n).record.state = .disabled from h, State.modRecord_withPending]
    have hother (h : u.record.state ≠ .idle) (h' : u.record.state ≠ .disabled) : s.cmdLineSetup line f = v.okay [0] := by
      rw [State.cmdLineSetup, indexBelow_of_eq n hn, hx, hv]
      dsimp only
      split
      · next hst => exact absurd hst h
      · next hst => exact absurd hst h'
      · rw [State.modRecord_withPending]
    have hpending : v.bare = { s.bare with
        lines := s.lines.set n (u.withPending x), dispatch := { s.dispatch with arbiterDue := s.dispatch.arbiterDue } } := by
      rw [hv, State.bare_setLine]
      rfl
    cases hst : u.record.state with
    | idle =>
      by_cases hoff : x.direction = .off
      · simp only [hoff, if_true, ne_eq, not_true, decide_false, Bool.and_false, Bool.or_false, true_or]
        refine exec_lineSetup_leaves hup (hidle hst) ?_
        rw [State.applyIdle_off hunit hoff]
        exact hreplace _
      · simp only [hoff, if_false, ne_eq, not_false_eq_true, decide_true, Bool.and_true, Bool.or_true, true_or, if_true]
        refine exec_lineSetup_leaves hup (hidle hst) ?_
        rw [State.applyIdle_on hunit hoff, ← hst]
        exact congrArg State.askArbiter (hreplace _)
    | disabled =>
      by_cases hoff : x.direction = .off
      · simp only [hoff, if_true, ne_eq, not_true, decide_false, Bool.and_false, Bool.or_false, or_true]
        refine exec_lineSetup_leaves hup (hdisabled hst) ?_
        rw [State.applyDisabled_off hunit hoff]
        exact hreplace _
      · simp only [hoff, if_false, ne_eq, not_false_eq_true, decide_true, Bool.and_true, Bool.or_true, or_true, if_true]
        refine exec_lineSetup_leaves hup (hdisabled hst) ?_
        rw [State.applyDisabled_on hunit hoff]
        exact congrArg State.askArbiter (hreplace _)
    | _ =>
      simp only [reduceCtorEq, or_self, decide_false, Bool.false_and, Bool.or_false, if_false]
      exact exec_lineSetup_leaves hup (hother (by simp [hst]) (by simp [hst])) hpending

end Sys2Proof.Machine

/-! PROOF. DOC CREATE and DOC RELEASE (R100, R104). -/

namespace Sys2Proof.Machine

/-! ## Operands of DOC CREATE (R100) -/

theorem eq_of_toNat_le_one {x : BitVec 8} (h : x.toNat ≤ 1) : x = 0 ∨ x = 1 := by
  have hcases : x.toNat = 0 ∨ x.toNat = 1 := by omega
  exact hcases.imp BitVec.eq_of_toNat_eq BitVec.eq_of_toNat_eq

theorem kindField_eq_some {x : BitVec 8} (h : x.toNat ≤ 1) : kindField x = some (if x = 0 then .out else .copy) := by
  obtain rfl | rfl := eq_of_toNat_le_one h <;> rfl

theorem priorityField_eq_some {x : BitVec 8} (h : x.toNat ≤ 2) :
    priorityField x = some (if x = 0 then .flash else if x = 1 then .urgent else .routine) := by
  have hcases : x.toNat = 0 ∨ x.toNat = 1 ∨ x.toNat = 2 := by omega
  obtain rfl | rfl | rfl : x = 0 ∨ x = 1 ∨ x = 2 :=
    hcases.imp BitVec.eq_of_toNat_eq (Or.imp BitVec.eq_of_toNat_eq BitVec.eq_of_toNat_eq)
  all_goals rfl

theorem flagField_eq_some {x : BitVec 8} (h : x = 0 ∨ x = 1) : flagField x = some (decide (x = 1)) := by
  obtain rfl | rfl := h <;> rfl

theorem clockOperand_eq_some {f : ClockField} (h : f.present ≠ 0 → f.second.toNat < 86400) :
    clockOperand f = some (if f.present = 0 then none else some ⟨f.day, f.second.toNat⟩) := by
  rw [clockOperand]
  split
  · rfl
  · next hpresent => exact if_pos (h hpresent)

theorem orDefault_between {low high d : Nat} {x : BitVec 8} (hd : low ≤ d) (hd' : d ≤ high) (hlow : low = 1) (h : x.toNat ≤ high) :
    between low high (orDefault d x) = some (if x = 0 then d else x.toNat) := by
  rw [orDefault]
  split
  · exact between_eq_some hd hd'
  · next hx =>
    have hpos : x.toNat ≠ 0 := fun h => hx (BitVec.eq_of_toNat_eq h)
    exact between_eq_some (by omega) h

theorem kindField_cases {x : BitVec 8} {k : DocKind} (h : kindField x = some k) : (x = 0 ∧ k = .out) ∨ (x = 1 ∧ k = .copy) := by
  unfold kindField at h
  split_ifs at h with h0 h1
  · exact .inl ⟨h0, (Option.some.inj h).symm⟩
  · exact .inr ⟨h1, (Option.some.inj h).symm⟩

theorem flagField_cases {x : BitVec 8} {b : Bool} (h : flagField x = some b) : (x = 0 ∧ b = false) ∨ (x = 1 ∧ b = true) := by
  unfold flagField at h
  split_ifs at h with h0 h1
  · exact .inl ⟨h0, (Option.some.inj h).symm⟩
  · exact .inr ⟨h1, (Option.some.inj h).symm⟩

theorem toNat_le_of_priorityField {x : BitVec 8} {p : Priority} (h : priorityField x = some p) : x.toNat ≤ 2 := by
  unfold priorityField at h
  split_ifs at h with h0 h1 h2
  · simp [h0]
  · simp [h1]
  · simp [h2]

theorem toNat_le_of_orDefault {x : BitVec 8} {d high : Nat} (h : orDefault d x ≤ high) : x.toNat ≤ high := by
  rw [orDefault] at h
  split at h
  · next hx => simp [hx]
  · exact h

theorem second_lt_of_clockOperand {f : ClockField} {b : Option ClockValue} (h : clockOperand f = some b) :
    f.present ≠ 0 → f.second.toNat < 86400 := by
  intro hpresent
  by_contra hlate
  rw [clockOperand, if_neg hpresent, if_neg (show ¬f.second.toNat < Config.secondsPerDay from hlate)] at h
  cases h

/-- The arguments that DOC CREATE takes. -/
def docValid (kind priority account interval limit localCopy copies : BitVec 8) (notBefore : ClockField) : Prop :=
  kind.toNat ≤ 1 ∧ priority.toNat ≤ 2 ∧ account.toNat ≤ 31 ∧ interval.toNat ≤ 60 ∧ limit.toNat ≤ 9 ∧
    1 ≤ copies.toNat ∧ copies.toNat ≤ 9 ∧ (notBefore.present ≠ 0 → notBefore.second.toNat < 86400) ∧
    (localCopy = 0 ∨ (localCopy = 1 ∧ kind = 0))

/-- The record that DOC CREATE makes of its arguments. -/
def createdDoc (kind priority interval limit localCopy copies : BitVec 8) (notBefore : ClockField) (a : Fin 32) : DocRecord :=
  { DocRecord.empty with
    inUse := true, building := true, kind := if kind = 0 then .out else .copy,
    priority := if priority = 0 then .flash else if priority = 1 then .urgent else .routine, account := a,
    notBefore := if notBefore.present = 0 then none else some ⟨notBefore.day, notBefore.second.toNat⟩,
    retryInterval := if interval = 0 then 5 else interval.toNat, attemptLimit := if limit = 0 then 3 else limit.toNat,
    localCopy := decide (localCopy = 1), copies := copies.toNat,
    obligation := if kind = 1 ∨ localCopy = 1 then .pending else .none }

section DocOperand

variable {kind priority account interval limit localCopy copies : BitVec 8} {notBefore : ClockField}

theorem docOperand_eq_some (h : docValid kind priority account interval limit localCopy copies notBefore) {a : Fin 32}
    (ha : a.val = account.toNat) : docOperand kind priority account interval limit localCopy copies notBefore =
      some (createdDoc kind priority interval limit localCopy copies notBefore a) := by
  obtain ⟨hkind, hpriority, -, hinterval, hlimit, hcopies, hcopies', hnotBefore, hlocal⟩ := h
  have hflag : localCopy = 0 ∨ localCopy = 1 := hlocal.imp_right And.left
  have hprinted : ¬(decide (localCopy = 1) = true ∧ (if kind = 0 then DocKind.out else .copy) ≠ .out) := by
    rw [decide_eq_true_eq]
    rintro ⟨rfl, hcopy⟩
    obtain h | ⟨-, h⟩ := hlocal
    · cases h
    · exact hcopy (if_pos h)
  have hobligation : (if (if kind = 0 then DocKind.out else .copy) = .copy ∨ decide (localCopy = 1) = true then PrintObligation.pending
      else .none) = if kind = 1 ∨ localCopy = 1 then .pending else .none := by
    obtain rfl | rfl := eq_of_toNat_le_one hkind <;> simp
  simp only [docOperand, bind, pure, Option.bind, kindField_eq_some hkind, priorityField_eq_some hpriority,
    indexBelow_of_eq a ha.symm, orDefault_between (show 1 ≤ 5 by decide) (show 5 ≤ 60 by decide) rfl hinterval,
    orDefault_between (show 1 ≤ 3 by decide) (show 3 ≤ 9 by decide) rfl hlimit, between_eq_some hcopies hcopies',
    clockOperand_eq_some hnotBefore, flagField_eq_some hflag]
  rw [if_neg hprinted, hobligation]
  rfl

theorem docOperand_eq_none (h : ¬docValid kind priority account interval limit localCopy copies notBefore) :
    docOperand kind priority account interval limit localCopy copies notBefore = none := by
  rw [Option.eq_none_iff_forall_ne_some]
  intro r hr
  refine h ?_
  simp only [docOperand, bind, Option.bind_eq_some_iff, between_eq_some_iff] at hr
  obtain ⟨k, hk, p, hp, a, ha, i, ⟨hi, hi1, hi60⟩, l, ⟨hl, hl1, hl9⟩, n, ⟨hn, hn1, hn9⟩, b, hb, f, hf, hr⟩ := hr
  have haccount := (indexBelow_eq_some_iff a).mp ha
  have hprinted : ¬(f = true ∧ k ≠ .out) := by
    intro hnone
    rw [if_pos hnone] at hr
    cases hr
  refine ⟨?_, toNat_le_of_priorityField hp, by omega, toNat_le_of_orDefault (hi ▸ hi60), toNat_le_of_orDefault (hl ▸ hl9), by omega,
    by omega, second_lt_of_clockOperand hb, ?_⟩
  · obtain ⟨rfl, -⟩ | ⟨rfl, -⟩ := kindField_cases hk <;> decide
  · obtain ⟨rfl, -⟩ | ⟨rfl, rfl⟩ := flagField_cases hf
    · exact .inl rfl
    · obtain ⟨hzero, -⟩ | ⟨-, rfl⟩ := kindField_cases hk
      · exact .inr ⟨rfl, hzero⟩
      · exact absurd ⟨rfl, by decide⟩ hprinted

end DocOperand

/-- The first entry that a search finds is the lowest. -/
theorem Table.first_of_lowest {α : Type} {n : Nat} {t : Table α n} {p : α → Bool} {x : Fin n} (hx : p (t.get x) = true)
    (hlow : ∀ y, y < x → p (t.get y) = false) : t.first p = some x := by
  obtain ⟨e, he, hfound, hfirst⟩ := Table.first_eq_some ⟨x, hx⟩
  have hex : ¬e < x := fun hlt => by
    rw [hlow e hlt] at hfound
    cases hfound
  have hxe : ¬x < e := fun hlt => by
    rw [hfirst x hlt] at hx
    cases hx
  rw [he, le_antisymm (not_lt.mp hxe) (not_lt.mp hex)]

theorem State.freeDocEntry_of_lowest {d : Fin 64} {s : State} (hfree : (s.doc d).inUse = false)
    (hlow : ∀ e, e < d → (s.doc e).inUse = true) : s.freeDocEntry = some d :=
  Table.first_of_lowest (Bool.not_eq_true' _ ▸ hfree) fun e he => Bool.not_eq_false' _ ▸ hlow e he

theorem State.freeDocEntry_of_full {s : State} (hfull : ∀ d, (s.doc d).inUse = true) : s.freeDocEntry = none :=
  Table.first_eq_none fun d => Bool.not_eq_false' _ ▸ hfull d

/-- Settles O43: the operands, the lowest free entry, and the entry taken. -/
theorem docCreate : Obligations.DocCreate := by
  intro kind priority account interval limit localCopy copies notBefore s hup hrun row valid
  have hrow : exec row s = s.after (State.runCommand (State.ringCommand row)) := exec_ringCommand rfl s
  refine ⟨fun hbad => ?bad, fun hvalid hfull => ?full, fun d a hvalid ha hfree hlow => ?create⟩
  case bad =>
    refine State.ring_command_answers hup hrow
      (?_ : State.cmdDocCreate kind priority account interval limit localCopy copies notBefore s = s.not .badArg)
    rw [State.cmdDocCreate, State.inRunning_taken _ hrun, docOperand_eq_none hbad]
  case full =>
    obtain ⟨-, -, haccount, -⟩ := id hvalid
    have hentry := State.freeDocEntry_of_full hfull
    refine State.ring_command_answers hup hrow
      (?_ : State.cmdDocCreate kind priority account interval limit localCopy copies notBefore s = s.not .noSpace)
    rw [State.cmdDocCreate, State.inRunning_taken _ hrun,
      docOperand_eq_some hvalid (a := ⟨account.toNat, by omega⟩) rfl, hentry]
  case create =>
    have hentry := State.freeDocEntry_of_lowest hfree hlow
    obtain ⟨r, hr⟩ : ∃ r, r = createdDoc kind priority interval limit localCopy copies notBefore a := ⟨_, rfl⟩
    have hcmd : State.cmdDocCreate kind priority account interval limit localCopy copies notBefore s =
        (s.createDoc d r).okay (le 1 d.val) := by
      rw [State.cmdDocCreate, State.inRunning_taken _ hrun, docOperand_eq_some hvalid ha, ← hr]
      dsimp only
      rw [hentry]
    have hnew : r ≠ s.doc d := by
      intro e
      rw [← e, hr] at hfree
      cases hfree
    obtain ⟨q₁, hdoc, -, hqueued⟩ := State.setDoc_form d r s
    obtain ⟨q₂, hpages, hkeeps, -⟩ := State.setPageList_form d [] (s.setDoc d r)
    refine State.ring_command_leaves _ hup hrow hcmd ?_
    rw [hdoc] at hpages hkeeps
    rw [State.createDoc, hdoc, hpages, hr]
    exact ⟨rfl, hkeeps _ (hqueued hnew)⟩

/-! ## DOC RELEASE (R104) -/

/-- The release counter gains 1; at its top it takes a free value. -/
theorem State.bump32_form (x : BitVec 32) (s : State) :
    ∃ y free, s.bump32 x = (y, { s with freeCount := free }) ∧ (x ≠ BitVec.allOnes 32 → y = x + 1 ∧ free = s.freeCount) := by
  rw [State.bump32]
  split
  · next h => exact ⟨_, _, rfl, fun hne => absurd h hne⟩
  · exact ⟨_, s.freeCount, rfl, fun _ => ⟨rfl, rfl⟩⟩

theorem State.cmdDocRelease_of_eq {document : BitVec 8} {d : Fin 64} {s : State} (hrun : s.ctl.engine = .running)
    (h : document.toNat = d.val) : State.cmdDocRelease document s =
      if (s.doc d).inUse = false then s.not .notFound
      else if (s.doc d).kind = .copy ∨ (s.doc d).complete = true then s.not .badArg
      else if (s.doc d).kind = .incoming ∧ (s.doc d).building = true then s.not .busy
      else if (s.doc d).released then s.okOrder d
      else (s.release d).okOrder d := by
  rw [State.cmdDocRelease, State.inRunning_taken _ hrun, indexBelow_of_eq d h]

/-- Settles O45: the command's checks in their order, and the release. -/
theorem docRelease : Obligations.DocRelease := by
  intro document s hup hrun
  have hrow := exec_ringCommand (c := .docRelease document) rfl s
  refine ⟨fun hbad => ?bad, fun d hd => ?_⟩
  case bad =>
    refine State.ring_command_answers hup hrow (?_ : State.cmdDocRelease document s = s.not .badArg)
    rw [State.cmdDocRelease, State.inRunning_taken _ hrun, indexBelow_of_le hbad]
  intro r
  have hcmd := State.cmdDocRelease_of_eq hrun hd
  refine ⟨fun hfree => ?free, fun huse => ?_⟩
  case free => exact State.ring_command_answers hup hrow (hcmd.trans (if_pos hfree))
  rw [if_neg (show ¬(s.doc d).inUse = false by simp [show (s.doc d).inUse = true from huse])] at hcmd
  refine ⟨fun hkind => ?kind, fun hkind hcomplete hbuilding => ?busy, fun hkind hcomplete hbuilt => ⟨fun hreleased => ?again,
    fun hreleased => ?release⟩⟩
  case kind => exact State.ring_command_answers hup hrow (hcmd.trans (if_pos hkind))
  case busy =>
    refine State.ring_command_answers hup hrow (hcmd.trans ((if_neg ?_).trans (if_pos ⟨hkind, hbuilding⟩)))
    rintro (h | h)
    · exact absurd (hkind.symm.trans h) (by decide)
    · exact absurd (hcomplete.symm.trans h) (by decide)
  all_goals
    rw [if_neg (show ¬((s.doc d).kind = .copy ∨ (s.doc d).complete = true) from
        fun h => h.elim hkind fun h => absurd (hcomplete.symm.trans h) (by decide)),
      if_neg (show ¬((s.doc d).kind = .incoming ∧ (s.doc d).building = true) from fun h => hbuilt.elim
        (fun hout => absurd (hout.symm.trans h.1) (by decide)) fun hb => absurd (hb.symm.trans h.2) (by decide))] at hcmd
  case again => exact State.ring_command_answers hup hrow (hcmd.trans (if_pos hreleased))
  case release =>
    obtain ⟨y, free, hbump, hcount⟩ := s.bump32_form s.dispatch.releaseCounter
    obtain ⟨q, hset, -⟩ := State.setDoc_form d { r with released := true, releaseOrder := s.dispatch.releaseCounter }
      ({ s with freeCount := free } : State)
    have hrelease : s.release d = ({ s with
        freeCount := free,
        dispatch := { s.dispatch with
          docs := s.dispatch.docs.set d { r with released := true, releaseOrder := s.dispatch.releaseCounter },
          releaseCounter := y, arbiterDue := true } } : State).withQueue q := by
      rw [State.release, hbump]
      dsimp only
      exact (congrArg (fun u : State => ({ u with dispatch := { u.dispatch with releaseCounter := y } } : State).askArbiter) hset)
    have horder : ((s.release d).doc d).releaseOrder = s.dispatch.releaseCounter := by
      rw [hrelease]
      exact congrArg DocRecord.releaseOrder (Table.get_set_self _ _ _)
    refine State.ring_command_leaves _ hup hrow (hcmd.trans (if_neg (by simp [show (s.doc d).released = false from hreleased]))) ?_
    rw [State.okOrder, horder, hrelease]
    exact ⟨rfl, hcount⟩

end Sys2Proof.Machine

/-! PROOF. The line arbiter: which lines are free, which destinations are eligible, and their order (R107 to R109, R180). -/

namespace Sys2Proof

namespace Table

variable {α : Type} {n : Nat}

/-- The records of a table in index order. -/
theorem cells_eq_map (t : Table α n) : t.cells = (List.finRange n).map t.get := by
  refine List.ext_getElem (by simp [t.size]) fun i hi hj => ?_
  simp [Table.get]

end Table

namespace Machine

/-! ## Destinations listed, lines free (R107) -/

theorem State.listedDests_eq (s : State) : s.listedDests = (List.finRange 64).flatMap (fun d => (s.doc d).dests) := by
  rw [State.listedDests, Table.cells_eq_map, List.flatMap_map]
  rfl

theorem LineDirection.seizes_iff (d : LineDirection) : d.seizes = true ↔ d = .out ∨ d = .both := by
  cases d <;> simp [LineDirection.seizes]

theorem State.lineFree_iff (n : Fin 4) (s : State) : s.lineFree n = true ↔
    s.ctl.teardown = none ∧ (s.lineUnit n).record.state = .idle ∧
      ((s.lineUnit n).record.active.direction = .out ∨ (s.lineUnit n).record.active.direction = .both) ∧
      ∀ b, (s.lineUnit n).lastBurst = some b → b + 8000000 ≤ s.now := by
  cases hburst : (s.lineUnit n).lastBurst with
  | none => simp [State.lineFree, hburst, LineDirection.seizes_iff, and_assoc]
  | some b =>
    simp only [State.lineFree, hburst, Bool.and_eq_true, decide_eq_true_eq, LineDirection.seizes_iff, and_assoc,
      Option.some.injEq, forall_eq']
    rfl

/-! ## Block reasons (R107) -/

theorem State.tooEarly_iff (r : DocRecord) (s : State) : s.tooEarly r = true ↔
    ∃ b, r.notBefore = some b ∧ (s.charge.clockSet = false ∨ s.charge.clock.day.toNat < b.day.toNat ∨
      (s.charge.clock.day = b.day ∧ s.charge.clock.second < b.second)) := by
  rw [State.tooEarly]
  cases r.notBefore with
  | none => simp
  | some b => simp only [Bool.not_eq_true', reached_reading_eq_false, Option.some.injEq, exists_eq_left']

theorem State.mayReserve_iff (s : State) : s.mayReserve = true ↔
    s.ctl.engine = .running ∧ s.charge.unread + s.charge.reservations < 1024 := by
  rw [State.mayReserve, Bool.and_eq_true, decide_eq_true_iff, decide_eq_true_iff]
  rfl

theorem State.eligible_iff (x : Fin 512) (s : State) :
    s.eligible x = true ↔ (s.dest x).state = .pending ∧ s.blockedBy x = .noLine := by
  simp [State.eligible]

/-- A block reason depends on the destination's document and on what the part holds beside the destinations. -/
theorem State.blockedBy_congr {s t : State} {x : Fin 512} (hdocument : (t.dest x).document = (s.dest x).document)
    (hdocs : t.dispatch.docs = s.dispatch.docs) (hcharge : t.charge = s.charge) (hengine : t.ctl.engine = s.ctl.engine) :
    t.blockedBy x = s.blockedBy x := by
  simp only [State.blockedBy, State.tooEarly, State.mayReserve, State.account, State.doc, hdocument, hdocs, hcharge, hengine]
  rfl

/-- Is a destination of the list held up by a full log? -/
def State.logHolds (l : List (Fin 512)) (s : State) : Prop :=
  ∃ x, x ∈ l ∧ (s.dest x).state = .pending ∧ s.blockedBy x = .logFull

/-- A destination with its block reason, if it is PENDING. -/
def State.reasoned (x : Fin 512) (s : State) : DestRecord :=
  if (s.dest x).state = .pending then { s.dest x with blockReason := s.blockedBy x } else s.dest x

theorem State.setBlockReason_form (x : Fin 512) (s : State) : ∃ q, s.setBlockReason x = { s with
    dispatch := { s.dispatch with dests := s.dispatch.dests.set x (s.reasoned x) },
    ctl := { s.ctl with
      queue := q,
      notices := if (s.dest x).state = .pending ∧ s.blockedBy x = .logFull then s.ctl.notices ||| Notice.log.bit
        else s.ctl.notices } } := by
  by_cases hpending : (s.dest x).state = .pending
  · obtain ⟨r, hr⟩ : ∃ r, r = { s.dest x with blockReason := s.blockedBy x } := ⟨_, rfl⟩
    obtain ⟨q, hset, -⟩ := State.setDest_form x r s
    rw [State.setBlockReason, State.reasoned, if_pos hpending, if_pos hpending, ← hr]
    dsimp only
    rw [← hr, hset]
    by_cases hfull : s.blockedBy x = .logFull
    · obtain ⟨q', hraise, -⟩ := State.raise_form .log
        (({ s with dispatch := { s.dispatch with dests := s.dispatch.dests.set x r } } : State).withQueue q)
      refine ⟨q', ?_⟩
      rw [if_pos hfull, if_pos ⟨hpending, hfull⟩, hraise]
      rfl
    · refine ⟨q, ?_⟩
      rw [if_neg hfull, if_neg fun h => hfull h.2]
      rfl
  · refine ⟨s.ctl.queue, ?_⟩
    rw [State.setBlockReason, State.reasoned, if_neg hpending, if_neg hpending, if_neg fun h => hpending h.1]
    exact congrArg (fun l => ({ s with dispatch := { s.dispatch with dests := l } } : State)) (Table.set_get _ _).symm

/-- Block reasons set along a list: each PENDING destination of it has its own, and LOG is raised with LOGFULL. -/
theorem State.foldl_setBlockReason (l : List (Fin 512)) (s : State) : ∃ q dests notices,
    l.foldl State.setBlockReason s =
      { s with dispatch := { s.dispatch with dests := dests }, ctl := { s.ctl with queue := q, notices := notices } } ∧
      (∀ x, dests.get x =
        if x ∈ l ∧ (s.dest x).state = .pending then { s.dest x with blockReason := s.blockedBy x } else s.dest x) ∧
      (s.logHolds l → notices = s.ctl.notices ||| Notice.log.bit) ∧ (¬s.logHolds l → notices = s.ctl.notices) := by
  induction l generalizing s with
  | nil =>
    exact ⟨s.ctl.queue, s.dispatch.dests, s.ctl.notices, rfl, fun x => by simp [State.dest],
      fun ⟨x, hx, _⟩ => absurd hx (List.not_mem_nil), fun _ => rfl⟩
  | cons x l ih =>
    obtain ⟨q₁, hfirst⟩ := State.setBlockReason_form x s
    obtain ⟨u, hu⟩ : ∃ u, u = s.setBlockReason x := ⟨_, rfl⟩
    rw [← hu] at hfirst
    obtain ⟨q, dests, notices, hrest, hdests, hholds, hfree⟩ := ih u
    have hsame : u.dest x = s.reasoned x := by
      rw [hfirst]
      exact Table.get_set_self _ _ _
    have hother {y : Fin 512} (h : y ≠ x) : u.dest y = s.dest y := by
      rw [hfirst]
      exact Table.get_set_of_ne _ _ (Ne.symm h)
    have hdest (y : Fin 512) : (u.dest y).state = (s.dest y).state ∧ (u.dest y).document = (s.dest y).document := by
      by_cases h : y = x
      · subst h
        rw [hsame, State.reasoned]
        split <;> exact ⟨rfl, rfl⟩
      · rw [hother h]
        exact ⟨rfl, rfl⟩
    have hblocked (y : Fin 512) : u.blockedBy y = s.blockedBy y :=
      State.blockedBy_congr (hdest y).2 (by rw [hfirst]) (by rw [hfirst]) (by rw [hfirst])
    have hlog : u.logHolds l ↔ s.logHolds l := by
      simp only [State.logHolds, hblocked, (hdest _).1]
    have hnotices : u.ctl.notices = if (s.dest x).state = .pending ∧ s.blockedBy x = .logFull
        then s.ctl.notices ||| Notice.log.bit else s.ctl.notices := by rw [hfirst]
    have hcons : s.logHolds (x :: l) ↔ ((s.dest x).state = .pending ∧ s.blockedBy x = .logFull) ∨ s.logHolds l := by
      simp [State.logHolds]
    rw [hlog] at hholds hfree
    refine ⟨q, dests, notices, ?_, fun y => ?_, fun h => ?_, fun h => ?_⟩
    · rw [List.foldl_cons, ← hu, hrest, hfirst]
    · rw [hdests, (hdest y).1, hblocked]
      by_cases hyx : y = x
      · subst hyx
        rw [hsame, State.reasoned]
        by_cases hp : (s.dest y).state = .pending
        · simp [hp]
        · simp [hp]
      · simp [hother hyx, hyx]
    · by_cases hl : s.logHolds l
      · rw [hholds hl, hnotices]
        split
        · exact or_or_self _ _
        · rfl
      · rw [hfree hl, hnotices, if_pos ((hcons.mp h).resolve_right hl)]
    · rw [hcons, not_or] at h
      rw [hfree h.2, hnotices, if_neg h.1]

theorem State.serveLine_idle {n : Fin 4} {s : State} (h : s.lineFree n = false) : s.serveLine n = s := by
  rw [State.serveLine, h, if_neg (by decide)]

/-- A run of the arbiter with no free line sets the block reasons and does nothing else. -/
theorem State.runArbiter_idle {s : State} (h : ∀ n, s.lineFree n = false) :
    s.runArbiter = s.listedDests.foldl State.setBlockReason s := by
  rw [State.runArbiter]
  simp only [allLines, List.foldl_cons, List.foldl_nil, State.serveLine_idle (h _)]

/-! ## The destination a free line takes (R108) -/

/-- Does a destination stand before another, by their documents? -/
def State.destBefore (s : State) (x y : Fin 512) : Prop :=
  (s.doc (s.dest x).document).priority.rank < (s.doc (s.dest y).document).priority.rank ∨
    ((s.doc (s.dest x).document).priority.rank = (s.doc (s.dest y).document).priority.rank ∧
      (s.doc (s.dest x).document).releaseOrder.toNat < (s.doc (s.dest y).document).releaseOrder.toNat)

theorem DocRecord.standsBefore_iff (a b : DocRecord) : a.standsBefore b = true ↔
    a.priority.rank < b.priority.rank ∨ (a.priority.rank = b.priority.rank ∧ a.releaseOrder.toNat < b.releaseOrder.toNat) := by
  simp [DocRecord.standsBefore]

theorem State.better_eq (s : State) (best : Option (Fin 512)) (t : Fin 512) : s.better best t =
    if s.eligible t then best.elim (some t) fun b =>
      if (s.doc (s.dest t).document).standsBefore (s.doc (s.dest b).document) then some t else some b
    else best := by
  cases best <;> rfl

/-- The best destination along a list: the first, in the list's order, of those that none stands before. -/
def State.bestAlong (s : State) (l : List (Fin 512)) (best : Option (Fin 512)) : Prop :=
  (best = none → ∀ x, x ∈ l → s.eligible x = false) ∧
    ∀ x, best = some x → ∃ pre post, l = pre ++ x :: post ∧ s.eligible x = true ∧
      (∀ y, y ∈ pre → s.eligible y = true → s.destBefore x y) ∧ ∀ y, y ∈ post → s.eligible y = true → ¬s.destBefore y x

theorem State.foldl_better (s : State) (l : List (Fin 512)) : s.bestAlong l (l.foldl s.better none) := by
  induction l using List.reverseRecOn with
  | nil => exact ⟨fun _ x hx => absurd hx List.not_mem_nil, fun x hx => by cases hx⟩
  | append_singleton l t ih =>
    obtain ⟨hnone, hsome⟩ := ih
    rw [List.foldl_append, List.foldl_cons, List.foldl_nil, State.better_eq]
    cases ht : s.eligible t with
    | false =>
      rw [if_neg (by decide)]
      refine ⟨fun h x hx => ?_, fun x hx => ?_⟩
      · rw [List.mem_append, List.mem_singleton] at hx
        obtain hx | rfl := hx
        · exact hnone h x hx
        · exact ht
      · obtain ⟨pre, post, rfl, hx, hpre, hpost⟩ := hsome x hx
        refine ⟨pre, post ++ [t], by simp, hx, hpre, fun y hy hey => ?_⟩
        rw [List.mem_append, List.mem_singleton] at hy
        obtain hy | rfl := hy
        · exact hpost y hy hey
        · exact absurd (ht.symm.trans hey) (by decide)
    | true =>
      rw [if_pos rfl]
      cases hbest : l.foldl s.better none with
      | none =>
        refine ⟨fun h => (by cases h), fun x hx => ?_⟩
        cases hx
        exact ⟨l, [], rfl, ht, fun y hy hey => absurd ((hnone hbest y hy).symm.trans hey) (by decide),
          fun y hy => absurd hy List.not_mem_nil⟩
      | some b =>
        obtain ⟨pre, post, hl, hb, hpre, hpost⟩ := hsome b hbest
        dsimp only [Option.elim]
        by_cases hbefore : s.destBefore t b
        · rw [if_pos ((DocRecord.standsBefore_iff ..).mpr hbefore)]
          refine ⟨fun h => (by cases h), fun x hx => ?_⟩
          cases hx
          refine ⟨l, [], rfl, ht, fun y hy hey => ?_, fun y hy => absurd hy List.not_mem_nil⟩
          rw [hl, List.mem_append, List.mem_cons] at hy
          unfold State.destBefore at *
          obtain hy | rfl | hy := hy
          · have := hpre y hy hey
            omega
          · exact hbefore
          · have := hpost y hy hey
            omega
        · rw [if_neg fun h => hbefore ((DocRecord.standsBefore_iff ..).mp h)]
          refine ⟨fun h => (by cases h), fun x hx => ?_⟩
          cases hx
          refine ⟨pre, post ++ [t], by simp [hl], hb, hpre, fun y hy hey => ?_⟩
          rw [List.mem_append, List.mem_singleton] at hy
          obtain hy | rfl := hy
          · exact hpost y hy hey
          · exact hbefore

/-! ## A number's class and band (R180) -/

theorem digitsLead_iff (l : List (Fin 10)) (number : List DialChar) :
    digitsLead l number = true ↔ number.take l.length = l.map DialChar.digit := by
  induction l generalizing number with
  | nil => simp [digitsLead]
  | cons d l ih =>
    cases number with
    | nil => simp [digitsLead]
    | cons c rest =>
      cases c with
      | digit e =>
        rw [digitsLead, Bool.and_eq_true, ih, decide_eq_true_eq, List.length_cons, List.take_succ_cons, List.map_cons,
          List.cons.injEq, DialChar.digit.injEq]
        exact and_congr_left fun _ => eq_comm
      | star => simp [digitsLead]
      | hash => simp [digitsLead]
      | pause => simp [digitsLead]

/-- Do an entry's digits lead a number? -/
def PrefixEntry.leads (number : List DialChar) (e : PrefixEntry) : Prop :=
  e.digits ≠ [] ∧ number.take e.digits.length = e.digits.map DialChar.digit


/-- The longer of the best entry so far and one more that leads the number; the best so far among equals. -/
def longerEntry (number : List DialChar) (best : Option PrefixEntry) (e : PrefixEntry) : Option PrefixEntry :=
  if e.digits ≠ [] ∧ digitsLead e.digits number = true
  then best.elim (some e) fun x => if x.digits.length < e.digits.length then some e else some x else best

theorem longerEntry_of_leads {number : List DialChar} {e : PrefixEntry} (h : e.leads number) (best : Option PrefixEntry) :
    longerEntry number best e = best.elim (some e) fun x => if x.digits.length < e.digits.length then some e else some x :=
  if_pos ⟨h.1, (digitsLead_iff ..).mpr h.2⟩

theorem longerEntry_of_not_leads {number : List DialChar} {e : PrefixEntry} (h : ¬e.leads number) (best : Option PrefixEntry) :
    longerEntry number best e = best := if_neg fun hall => h ⟨hall.1, (digitsLead_iff ..).mp hall.2⟩

theorem longestMatch_cons (number : List DialChar) (e : PrefixEntry) (l : List PrefixEntry) (best : Option PrefixEntry) :
    longestMatch number (e :: l) best = longestMatch number l (longerEntry number best e) := by
  cases best <;> rfl

theorem longestMatch_none {number : List DialChar} {l : List PrefixEntry} {best : Option PrefixEntry}
    (h : ∀ e ∈ l, ¬e.leads number) : longestMatch number l best = best := by
  induction l with
  | nil => rfl
  | cons e l ih =>
    rw [longestMatch_cons, longerEntry_of_not_leads (h e List.mem_cons_self)]
    exact ih fun f hf => h f (List.mem_cons_of_mem _ hf)

theorem longestMatch_keeps {number : List DialChar} {l : List PrefixEntry} {e : PrefixEntry}
    (h : ∀ f ∈ l, f.leads number → f.digits.length ≤ e.digits.length) : longestMatch number l (some e) = some e := by
  induction l with
  | nil => rfl
  | cons f l ih =>
    have hkept : longerEntry number (some e) f = some e := by
      by_cases hf : f.leads number
      · rw [longerEntry_of_leads hf]
        exact if_neg (by have := h f List.mem_cons_self hf; omega)
      · exact longerEntry_of_not_leads hf _
    rw [longestMatch_cons, hkept]
    exact ih fun g hg => h g (List.mem_cons_of_mem _ hg)

/-- The longest entry that leads the number, the first among equals, is the one found. -/
theorem longestMatch_eq_some {number : List DialChar} {l : List PrefixEntry} {best : Option PrefixEntry} {i : Nat}
    (hi : i < l.length) (hleads : l[i].leads number) (hbest : ∀ x, best = some x → x.digits.length < l[i].digits.length)
    (hlongest : ∀ j (hj : j < l.length), l[j].leads number →
      l[j].digits.length < l[i].digits.length ∨ (l[j].digits.length = l[i].digits.length ∧ i ≤ j)) :
    longestMatch number l best = some l[i] := by
  induction l generalizing best i with
  | nil => cases hi
  | cons f l ih =>
    rw [longestMatch_cons]
    cases i with
    | zero =>
      rw [List.getElem_cons_zero] at hleads hbest hlongest ⊢
      have hlater : ∀ g ∈ l, g.leads number → g.digits.length ≤ f.digits.length := by
        intro g hg hq
        obtain ⟨j, hj, rfl⟩ := List.getElem_of_mem hg
        have := hlongest (j + 1) (by simpa using hj) (by simpa using hq)
        simp only [List.getElem_cons_succ] at this
        omega
      have htaken : longerEntry number best f = some f := by
        rw [longerEntry_of_leads hleads]
        cases best with
        | none => rfl
        | some x => exact if_pos (hbest x rfl)
      rw [htaken]
      exact longestMatch_keeps hlater
    | succ k =>
      have hk : k < l.length := by simpa using hi
      simp only [List.getElem_cons_succ] at hleads hbest hlongest ⊢
      refine ih hk hleads (fun x hx => ?_) (fun j hj hq => ?_)
      · by_cases hf : f.leads number
        · have hless : f.digits.length < l[k].digits.length := by
            have := hlongest 0 (by simp) hf
            simp only [List.getElem_cons_zero] at this
            omega
          rw [longerEntry_of_leads hf] at hx
          cases best with
          | none =>
            cases hx
            exact hless
          | some y =>
            have hy := hbest y rfl
            dsimp only [Option.elim] at hx
            split at hx
            · cases hx
              exact hless
            · cases hx
              exact hy
        · rw [longerEntry_of_not_leads hf] at hx
          exact hbest x hx
      · have := hlongest (j + 1) (by simpa using hj) (by simpa using hq)
        simp only [List.getElem_cons_succ] at this
        omega

theorem ChargeUnit.classify_none {c : ChargeUnit} {number : List DialChar}
    (h : ∀ i, ¬(c.prefixes.get i).leads (number.filter (fun x => decide (x ≠ .pause)))) : c.classify number = (3, 7) := by
  rw [ChargeUnit.classify, longestMatch_none]
  intro e he
  obtain ⟨i, hi, rfl⟩ := List.getElem_of_mem he
  exact h ⟨i, by rwa [c.prefixes.size] at hi⟩

theorem ChargeUnit.classify_longest {c : ChargeUnit} {number : List DialChar} {i : Fin 32}
    (hleads : (c.prefixes.get i).leads (number.filter (fun x => decide (x ≠ .pause))))
    (hlongest : ∀ j, (c.prefixes.get j).leads (number.filter (fun x => decide (x ≠ .pause))) →
      (c.prefixes.get j).digits.length < (c.prefixes.get i).digits.length ∨
        ((c.prefixes.get j).digits.length = (c.prefixes.get i).digits.length ∧ i ≤ j)) :
    c.classify number = ((c.prefixes.get i).cls, (c.prefixes.get i).band) := by
  have hfound := longestMatch_eq_some (best := none) (i := i.val) (by rw [c.prefixes.size]; exact i.isLt) hleads
    (fun x hx => by cases hx) fun j hj hq => hlongest ⟨j, by rwa [c.prefixes.size] at hj⟩ hq
  rw [ChargeUnit.classify, hfound]
  rfl

end Machine

end Sys2Proof

/-! PROOF. DEST ADD, and what a free line does with the destination it takes (R103, R107 to R109, R126, R188). -/

namespace Sys2Proof.Machine

/-! ## Numbers (R103, section 12.1) -/

theorem dialChar_eq_some_iff (k : Nat) (c : DialChar) : dialChar k = some c ↔ k = c.code := by
  unfold dialChar
  cases c with
  | digit d =>
    split_ifs with h h10 h11 h12
    · simp [DialChar.code, Fin.ext_iff]
    all_goals
      have := d.isLt
      simp [DialChar.code]
      omega
  | star => split_ifs with h h10 h11 h12 <;> simp_all [DialChar.code]; omega
  | hash => split_ifs with h h10 h11 h12 <;> simp_all [DialChar.code]; omega
  | pause => split_ifs with h h10 h11 h12 <;> simp_all [DialChar.code]; omega

theorem dialChars_eq_some_iff {n v : Nat} {l : List DialChar} :
    dialChars n v = some l ↔ l.length = n ∧ ∀ i (h : i < l.length), v / 16 ^ i % 16 = l[i].code := by
  induction n generalizing v l with
  | zero =>
    rw [dialChars, List.length_eq_zero_iff, Option.some.injEq]
    constructor
    · rintro rfl
      exact ⟨rfl, fun i h => absurd h (Nat.not_lt_zero i)⟩
    · rintro ⟨rfl, -⟩
      rfl
  | succ n ih =>
    rw [dialChars]
    constructor
    · intro h
      split at h
      · next c rest hc hrest =>
        obtain ⟨hlength, hchars⟩ := ih.mp hrest
        cases h
        refine ⟨congrArg Nat.succ hlength, fun i hi => ?_⟩
        cases i with
        | zero =>
          rw [Nat.pow_zero, Nat.div_one, List.getElem_cons_zero]
          exact (dialChar_eq_some_iff ..).mp hc
        | succ i =>
          rw [Nat.pow_succ', ← Nat.div_div_eq_div_mul, List.getElem_cons_succ]
          exact hchars i (Nat.lt_of_succ_lt_succ hi)
      · cases h
    · rintro ⟨hlength, hchars⟩
      obtain ⟨c, rest, rfl⟩ : ∃ c rest, l = c :: rest := List.exists_cons_of_length_eq_add_one hlength
      have hc : dialChar (v % 16) = some c := by
        have := hchars 0 (by simp)
        rw [Nat.pow_zero, Nat.div_one, List.getElem_cons_zero] at this
        exact (dialChar_eq_some_iff ..).mpr this
      have hrest : dialChars n (v / 16) = some rest := by
        refine ih.mpr ⟨Nat.succ.inj hlength, fun i hi => ?_⟩
        have := hchars (i + 1) (by simpa using hi)
        rwa [Nat.pow_succ', ← Nat.div_div_eq_div_mul, List.getElem_cons_succ] at this
      rw [hc, hrest]

theorem numberOperand_eq_some_iff (number : NumberField) (l : List DialChar) : numberOperand number = some l ↔
    number.count.toNat = l.length ∧ 1 ≤ l.length ∧ l.length ≤ 24 ∧ (∃ c, c ∈ l ∧ c ≠ .pause) ∧
      ∀ i (h : i < l.length), number.chars.toNat / 16 ^ i % 16 = l[i].code := by
  have hany : (l.any fun c => decide (c ≠ .pause)) = true ↔ ∃ c, c ∈ l ∧ c ≠ .pause := by simp
  rw [numberOperand]
  constructor
  · intro h
    split at h
    · cases h
    · next n hn =>
      obtain ⟨hcount, hlow, hhigh⟩ := between_eq_some_iff.mp hn
      split at h
      · next m hm =>
        obtain ⟨hlength, hchars⟩ := dialChars_eq_some_iff.mp hm
        split at h
        · next hpause =>
          cases h
          subst hlength
          exact ⟨hcount, hlow, hhigh, hany.mp hpause, hchars⟩
        · cases h
      · cases h
  · rintro ⟨hcount, hlow, hhigh, hpause, hchars⟩
    rw [hcount, between_eq_some hlow hhigh]
    dsimp only
    rw [dialChars_eq_some_iff.mpr ⟨rfl, hchars⟩]
    exact if_pos (hany.mpr hpause)

/-! ## The last obligation of a document (R77, R105) -/

theorem State.releasePage_form (p : Fin 512) (s : State) : ∃ q, s.releasePage p = ({ s with
    store := { s.store with
      freeList := s.store.freeList ++ (s.page p).chain, pages := s.store.pages.set p PageRecord.empty } } : State).withQueue q := by
  refine ⟨(s.releasePage p).ctl.queue, State.eq_of_bare ?_ rfl⟩
  rw [State.releasePage, State.bare_setPage, State.giveBack, State.setFreeList_store, State.bare_setFreeList]
  rfl

/-- Pages released along a list: each of them is free. -/
theorem State.foldl_releasePage (l : List (Fin 512)) (s : State) : ∃ q free, l.foldl State.releasePage s = ({ s with
    store := { s.store with freeList := free, pages := s.store.pages.setAll l PageRecord.empty } } : State).withQueue q := by
  induction l generalizing s with
  | nil => exact ⟨s.ctl.queue, s.store.freeList, rfl⟩
  | cons p l ih =>
    obtain ⟨q₁, hfirst⟩ := State.releasePage_form p s
    obtain ⟨q, free, hrest⟩ := ih (s.releasePage p)
    refine ⟨q, free, ?_⟩
    rw [List.foldl_cons, hrest, hfirst]
    rfl

/-- A document that becomes COMPLETE, its pages not yet released. -/
theorem State.completed_form (d : Fin 64) (s : State) : ∃ q,
    (s.setDoc d { s.doc d with complete := true }).raise .dispatch = { s with
      dispatch := { s.dispatch with docs := s.dispatch.docs.set d { s.doc d with complete := true } },
      ctl := { s.ctl with queue := q, notices := s.ctl.notices ||| Notice.dispatch.bit } } := by
  obtain ⟨q₁, hset, -⟩ := State.setDoc_form d { s.doc d with complete := true } s
  obtain ⟨q, hraise, -⟩ := State.raise_form .dispatch (({ s with
    dispatch := { s.dispatch with docs := s.dispatch.docs.set d { s.doc d with complete := true } } } : State).withQueue q₁)
  exact ⟨q, (congrArg (State.raise .dispatch) hset).trans hraise⟩

/-- The check for the last obligation acts on the store, the documents, the notices and the mirror write queue alone. -/
theorem State.checkComplete_form (d : Fin 64) (s : State) : ∃ q store docs notices, s.checkComplete d = { s with
    store := store, dispatch := { s.dispatch with docs := docs }, ctl := { s.ctl with queue := q, notices := notices } } ∧
    (notices = s.ctl.notices ∨ notices = s.ctl.notices ||| Notice.dispatch.bit) := by
  rw [State.checkComplete]
  split
  · obtain ⟨q₁, hcompleted⟩ := State.completed_form d s
    obtain ⟨q, free, hreleased⟩ := State.foldl_releasePage (s.pageList d)
      ((s.setDoc d { s.doc d with complete := true }).raise .dispatch)
    have hlist : ((s.setDoc d { s.doc d with complete := true }).raise .dispatch).pageList d = s.pageList d := by
      rw [hcompleted]
      rfl
    refine ⟨q, { s.store with freeList := free, pages := s.store.pages.setAll (s.pageList d) PageRecord.empty },
      s.dispatch.docs.set d { s.doc d with complete := true }, s.ctl.notices ||| Notice.dispatch.bit, ?_, .inr rfl⟩
    rw [State.releasePages, hlist, hreleased, hcompleted]
    rfl
  · exact ⟨s.ctl.queue, s.store, s.dispatch.docs, s.ctl.notices, rfl, .inl rfl⟩

/-- A destination becomes final: the destination, DISPATCH, and what the check of its document does. -/
theorem State.becomeFinal_form (x : Fin 512) (r : DestRecord) (final : DestState) (s : State) : ∃ q store docs,
    s.becomeFinal x r final = { s with
      store := store,
      dispatch := { s.dispatch with
        dests := s.dispatch.dests.set x { r with state := final, retryDue := none, blockReason := .none }, docs := docs },
      ctl := { s.ctl with queue := q, notices := s.ctl.notices ||| Notice.dispatch.bit } } := by
  obtain ⟨q₁, hset, -⟩ := State.setDest_form x { r with state := final, retryDue := none, blockReason := .none } s
  obtain ⟨q₂, hraise, -⟩ := State.raise_form .dispatch (({ s with
    dispatch := { s.dispatch with
      dests := s.dispatch.dests.set x { r with state := final, retryDue := none, blockReason := .none } } } : State).withQueue q₁)
  obtain ⟨q, store, docs, notices, hchecked, hnotices⟩ := State.checkComplete_form r.document
    ((s.setDest x { r with state := final, retryDue := none, blockReason := .none }).raise .dispatch)
  rw [hset, hraise] at hchecked hnotices
  have hsame : notices = s.ctl.notices ||| Notice.dispatch.bit := hnotices.elim id fun h => h.trans (or_or_self _ _)
  refine ⟨q, store, docs, ?_⟩
  rw [State.becomeFinal, hset, hraise, hchecked, hsame]
  rfl

/-! ## The choice (R109) -/

theorem State.choiceFails_cases (n : Fin 4) (x : Fin 512) (cls : Nat) (s : State) :
    let d := s.doc (s.dest x).document
    let pulse : Prop := (s.lineUnit n).record.active.dialMethod = .pulse ∧
      (DialChar.star ∈ (s.dest x).number ∨ DialChar.hash ∈ (s.dest x).number)
    let void : Prop := d.building = false ∧ s.pageList (s.dest x).document = []
    ((s.account d.account).cls < cls → s.choiceFails n x cls = some .barred) ∧
    (cls ≤ (s.account d.account).cls → pulse → s.choiceFails n x cls = some .badNumber) ∧
    (cls ≤ (s.account d.account).cls → ¬pulse → void → s.choiceFails n x cls = some .empty) ∧
    (cls ≤ (s.account d.account).cls → ¬pulse → ¬void → s.choiceFails n x cls = none) := by
  intro d pulse void
  have hchars : ((s.dest x).number.any fun c => decide (c = .star) || decide (c = .hash)) = true ↔
      DialChar.star ∈ (s.dest x).number ∨ DialChar.hash ∈ (s.dest x).number := by
    rw [List.any_eq_true]
    constructor
    · rintro ⟨c, hc, h⟩
      rw [Bool.or_eq_true, decide_eq_true_eq, decide_eq_true_eq] at h
      obtain rfl | rfl := h
      · exact .inl hc
      · exact .inr hc
    · rintro (h | h)
      · exact ⟨_, h, rfl⟩
      · exact ⟨_, h, rfl⟩
  have hpulse : (((s.dest x).number.any fun c => decide (c = .star) || decide (c = .hash)) = true ∧
      (s.lineUnit n).record.active.dialMethod = .pulse) ↔ pulse := by
    rw [hchars]
    exact and_comm
  have heq : s.choiceFails n x cls = if (s.account d.account).cls < cls then some .barred
      else if ((s.dest x).number.any fun c => decide (c = .star) || decide (c = .hash)) = true ∧
        (s.lineUnit n).record.active.dialMethod = .pulse then some .badNumber
      else if d.building = false ∧ s.pageList (s.dest x).document = [] then some .empty else none := rfl
  rw [heq]
  refine ⟨fun h => if_pos h, fun h hp => ?_, fun h hp hv => ?_, fun h hp hv => ?_⟩
  · rw [if_neg (Nat.not_lt.mpr h), if_pos (hpulse.mpr hp)]
  · rw [if_neg (Nat.not_lt.mpr h), if_neg (fun hall => hp (hpulse.mp hall))]
    exact if_pos hv
  · rw [if_neg (Nat.not_lt.mpr h), if_neg (fun hall => hp (hpulse.mp hall))]
    exact if_neg hv

section ChooseFor

variable {n : Fin 4} {k : Nat} {x : Fin 512} {s : State}

theorem State.chooseFor_none (h : s.bestDest = none) : State.chooseFor n (k + 1) s = s := by
  rw [State.chooseFor, h]

variable (h : s.bestDest = some x)

include h

theorem State.chooseFor_fails {cause : Cause} (hfails : s.choiceFails n x (s.charge.classify (s.dest x).number).1 = some cause) :
    State.chooseFor n (k + 1) s = State.chooseFor n k (s.becomeFinal x { s.dest x with
      cls := (s.charge.classify (s.dest x).number).1, band := (s.charge.classify (s.dest x).number).2, lastCause := cause } .failed) := by
  rw [State.chooseFor, h]
  dsimp only
  rw [hfails]

theorem State.chooseFor_dials (hfails : s.choiceFails n x (s.charge.classify (s.dest x).number).1 = none) :
    State.chooseFor n (k + 1) s =
      s.dialDest n x (s.charge.classify (s.dest x).number).1 (s.charge.classify (s.dest x).number).2 := by
  rw [State.chooseFor, h]
  dsimp only
  rw [hfails]

end ChooseFor

/-- A reservation taken: the count, its mirror, and LOG as the log is full. -/
theorem State.takeReservation_form (s : State) : ∃ q, s.takeReservation = { s with
    charge := { s.charge with reservations := s.charge.reservations + 1 },
    ctl := { s.ctl with
      queue := q,
      notices := if s.charge.unread + s.charge.reservations + 1 = 1024 then s.ctl.notices ||| Notice.log.bit
        else s.ctl.notices } } := by
  obtain ⟨u, hu⟩ : ∃ u : State, u = { s with charge := { s.charge with reservations := s.charge.reservations + 1 } } := ⟨_, rfl⟩
  obtain ⟨q₁, hrewrite, -⟩ := State.rewrite_form .counters u
  have htake : s.takeReservation =
      if s.charge.unread + s.charge.reservations + 1 = 1024 then (u.withQueue q₁).raise .log else u.withQueue q₁ := by
    rw [State.takeReservation, ← hu, hrewrite, hu]
    rfl
  rw [htake]
  split
  · obtain ⟨q, hraise, -⟩ := State.raise_form .log (u.withQueue q₁)
    refine ⟨q, ?_⟩
    rw [hraise, hu]
    rfl
  · refine ⟨q₁, ?_⟩
    rw [hu]
    rfl

/-- The context of an outgoing call, as its destination gives it. -/
def State.outgoingContext (n : Fin 4) (x : Fin 512) (cls : Nat) (band : Fin 8) (s : State) : CallContext :=
  { account := (s.doc (s.dest x).document).account, incoming := false, destination := some x,
    document := some (s.dest x).document, number := (s.dest x).number, cls := cls, band := band,
    method := match (s.lineUnit n).record.active.chargeMethod with | .meter => .meter | .time => .time,
    phase := .unanswered, seizeTime := s.charge.clock, clockWasSet := s.charge.clockSet, answerTime := none,
    answeredAt := none, units := 0, qualified := 0, rejected := 0, pagesConfirmed := 0, unitTimer := none,
    graceTimer := none }

/-- A line as it is seized for a destination with a number. -/
def LineUnit.seized (x : Fin 512) (number : List DialChar) (now : Nat) (u : LineUnit) : LineUnit :=
  { u with
    record := { u.record with
      state := .seizing, callDirection := .out, destination := some x, charsSent := 0, ringCount := 0 },
    offHook := true, number := number, loopSeen := false, loopCheck := some (now + 1000000),
    seizeDelay := some (now + u.record.active.seizeDelay * 1000000) }

/-- A chosen destination is dialled: the destination, the reservation, the context and the line. -/
theorem State.dialDest_bare (n : Fin 4) (x : Fin 512) (cls : Nat) (band : Fin 8) (s : State) :
    (s.dialDest n x cls band).bare = { s.bare with
      dispatch := { s.dispatch with
        dests := s.dispatch.dests.set x { s.dest x with
          cls := cls, band := band, state := .dialling, line := some n, pageRetries := 0, blockReason := .none } },
      lines := s.lines.set n ((s.lineUnit n).seized x (s.dest x).number s.now),
      charge := { s.charge with
        reservations := s.charge.reservations + 1,
        contexts := s.charge.contexts.set n (some (s.outgoingContext n x cls band)) },
      ctl := { s.bare.ctl with
        notices := if s.charge.unread + s.charge.reservations + 1 = 1024 then s.ctl.notices ||| Notice.log.bit
          else s.ctl.notices } } := by
  obtain ⟨r, hr⟩ : ∃ r : DestRecord, r = { s.dest x with
    cls := cls, band := band, state := .dialling, line := some n, pageRetries := 0, blockReason := .none } := ⟨_, rfl⟩
  obtain ⟨q₁, hset, -⟩ := State.setDest_form x r s
  obtain ⟨q₂, htake⟩ := State.takeReservation_form (s.setDest x r)
  obtain ⟨u, hu⟩ : ∃ u, u = (s.setDest x r).takeReservation := ⟨_, rfl⟩
  rw [← hu, hset] at htake
  have hdest : u.dest x = r := by
    rw [htake]
    exact Table.get_set_self _ _ _
  have hopen : u.openOutgoing n x band cls = u.setContext n (some (s.outgoingContext n x cls band)) := by
    rw [State.openOutgoing, hdest, htake, hr]
    rfl
  obtain ⟨q₃, hcontext, -⟩ := State.setContext_form n (some (s.outgoingContext n x cls band)) u
  obtain ⟨v, hv⟩ : ∃ v, v = u.setContext n (some (s.outgoingContext n x cls band)) := ⟨_, rfl⟩
  rw [← hv] at hopen hcontext
  have hdest' : v.dest x = r := by rw [hcontext]; exact hdest
  have hseize : v.seize n x = v.setLine n ((s.lineUnit n).seized x (s.dest x).number s.now) := by
    have hunit : v.lineUnit n = s.lineUnit n := by
      rw [hcontext, htake]
      rfl
    have hnow : v.now = s.now := by
      rw [hcontext, htake]
      rfl
    rw [State.seize, State.modLine, hdest', hunit, hnow, hr]
    rfl
  have hchain : s.dialDest n x cls band = (u.openOutgoing n x band cls).seize n x := by
    rw [hu, hr]
    rfl
  rw [hchain, hopen, hseize, State.bare_setLine, hcontext, htake, hr]
  rfl

/-! ## DEST ADD (R103) -/

theorem State.cmdDestAdd_of_eq {document : BitVec 8} {number : NumberField} {d : Fin 64} {l : List DialChar} {s : State}
    (hrun : s.ctl.engine = .running) (hd : document.toNat = d.val) (hl : numberOperand number = some l) :
    State.cmdDestAdd document number s =
      if (s.doc d).inUse = false then s.not .notFound
      else if (s.doc d).kind = .copy ∨ (s.doc d).complete = true then s.not .badArg
      else if (s.doc d).kind = .incoming ∧ (s.doc d).building = true then s.not .busy
      else if 64 ≤ (s.doc d).dests.length then s.not .noSpace
      else s.freeDestEntry.elim (s.not .noSpace) fun t =>
        (s.addDest t d l).okay (le 2 t.val ++ le 1 ((s.doc d).dests.length + 1)) := by
  rw [State.cmdDestAdd, State.inRunning_taken _ hrun, indexBelow_of_eq d hd, hl]
  cases s.freeDestEntry <;> rfl

/-- The entry that is found is the lowest free one. -/
theorem State.freeDestEntry_of_lowest {x : Fin 512} {s : State} (hfree : (s.dest x).inUse = false)
    (hlow : ∀ y, y < x → (s.dest y).inUse = true) : s.freeDestEntry = some x :=
  Table.first_of_lowest (Bool.not_eq_true' _ ▸ hfree) fun y hy => Bool.not_eq_false' _ ▸ hlow y hy

/-- A destination added: the pool entry, the document's list and the arbiter's mark. -/
theorem State.addDest_form {x : Fin 512} {d : Fin 64} {l : List DialChar} {s : State} (hfree : (s.dest x).inUse = false) :
    ∃ q, s.addDest x d l = ({ s with
      dispatch := { s.dispatch with
        docs := s.dispatch.docs.set d { s.doc d with dests := (s.doc d).dests ++ [x] },
        dests := s.dispatch.dests.set x { DestRecord.empty with inUse := true, document := d, number := l },
        arbiterDue := true } } : State).withQueue q ∧
      QueueEntry.record (.document d) ∈ q ∧ QueueEntry.record (.destination x) ∈ q := by
  obtain ⟨r, hr⟩ : ∃ r : DestRecord, r = { DestRecord.empty with inUse := true, document := d, number := l } := ⟨_, rfl⟩
  obtain ⟨y, hy⟩ : ∃ y : DocRecord, y = { s.doc d with dests := (s.doc d).dests ++ [x] } := ⟨_, rfl⟩
  obtain ⟨q₁, hset, -, hqueued⟩ := State.setDest_form x r s
  have hrnew : r ≠ s.dest x := by
    intro e
    rw [← e, hr] at hfree
    cases hfree
  obtain ⟨q, hdoc, hkeeps, hqueued'⟩ := State.setDoc_form d y
    (({ s with dispatch := { s.dispatch with dests := s.dispatch.dests.set x r } } : State).withQueue q₁)
  have hynew : y ≠ s.doc d := by
    intro e
    have hlength := congrArg (fun z => z.dests.length) e
    rw [hy] at hlength
    simp at hlength
  have hchain : s.addDest x d l = ((s.setDest x r).setDoc d y).askArbiter := by
    rw [hr, hy]
    rfl
  refine ⟨q, ?_, hqueued' hynew, hkeeps _ (hqueued hrnew)⟩
  rw [hchain, hset, hdoc, hr, hy]
  rfl

/-- Settles O44: the command, then the arbiter's laws in the order of the statement. -/
theorem destAdd : Obligations.DestAdd := by
  refine ⟨fun document number s hup hrun => ?command, fun s => ⟨fun h => ?rests, fun h => ?runs, fun served hserved => ?run,
    s.listedDests_eq, fun n => s.lineFree_iff n, fun hnone => ?idle⟩, fun x s => ?blocked, fun s => ?best,
    fun c number => ⟨fun h => ChargeUnit.classify_none h, fun i hleads hlongest => ChargeUnit.classify_longest hleads hlongest⟩,
    State.choiceFails_cases, fun n k s => ?choose⟩
  case command =>
    have hrow := exec_ringCommand (c := .destAdd document number) rfl s
    refine ⟨fun hbad => ?_, numberOperand_eq_some_iff number, fun d l hd hl => ?_⟩
    · refine State.ring_command_answers hup hrow (?_ : State.cmdDestAdd document number s = s.not .badArg)
      rw [State.cmdDestAdd, State.inRunning_taken _ hrun]
      split
      · next d l hd hl =>
        have := (indexBelow_eq_some_iff d).mp hd
        have hnone := hbad.resolve_left (by omega)
        rw [hl] at hnone
        cases hnone
      · rfl
    intro r
    have hcmd := State.cmdDestAdd_of_eq hrun hd hl
    refine ⟨fun hfree => ?free, fun huse => ?_⟩
    case free => exact State.ring_command_answers hup hrow (hcmd.trans (if_pos hfree))
    rw [if_neg (show ¬(s.doc d).inUse = false by simp [show (s.doc d).inUse = true from huse])] at hcmd
    refine ⟨fun hkind => ?kind, fun hkind hcomplete => ?_⟩
    case kind => exact State.ring_command_answers hup hrow (hcmd.trans (if_pos hkind))
    rw [if_neg (show ¬((s.doc d).kind = .copy ∨ (s.doc d).complete = true) from
      fun h => h.elim hkind fun h => absurd (hcomplete.symm.trans h) (by decide))] at hcmd
    refine ⟨fun hin hbuilding => ?busy, fun hout => ?_⟩
    case busy => exact State.ring_command_answers hup hrow (hcmd.trans (if_pos ⟨hin, hbuilding⟩))
    rw [if_neg (show ¬((s.doc d).kind = .incoming ∧ (s.doc d).building = true) from fun h => hout.elim
      (fun hk => absurd (hk.symm.trans h.1) (by decide)) fun hb => absurd (hb.symm.trans h.2) (by decide))] at hcmd
    refine ⟨fun hfull => ?full, fun x hroom hfree hlow => ?add⟩
    case full =>
      refine State.ring_command_answers hup hrow (hcmd.trans ?_)
      split
      · rfl
      · next hroom =>
        have hentry : s.freeDestEntry = none := Table.first_eq_none fun t => by
          rw [Bool.not_eq_false']
          exact hfull.resolve_left hroom t
        rw [hentry]
        rfl
    case add =>
      rw [if_neg (Nat.not_le.mpr hroom), State.freeDestEntry_of_lowest hfree hlow] at hcmd
      obtain ⟨q, hadd, hdoc, hdest⟩ := State.addDest_form (d := d) (l := l) hfree
      have hdone : State.cmdDestAdd document number s =
          (s.addDest x d l).okay (le 2 x.val ++ le 1 ((s.doc d).dests.length + 1)) := hcmd
      refine State.ring_command_leaves _ hup hrow hdone ?_
      rw [State.okay, hadd]
      exact ⟨rfl, hdoc, hdest⟩
  case rests => rw [State.runDueArbiter, h, if_neg (by decide)]
  case runs => rw [State.runDueArbiter, if_pos h]
  case run =>
    rw [hserved]
    rfl
  case idle =>
    obtain ⟨q, dests, notices, hfold, hdests, hholds, hfree⟩ := State.foldl_setBlockReason s.listedDests s
    rw [State.runArbiter_idle hnone, hfold]
    refine ⟨rfl, hdests, ?_⟩
    split
    · next h => exact hholds h
    · next h => exact hfree h
  case blocked =>
    intro d waits room
    have hreason : s.blockedBy x = if d.released = false then .unreleased else if s.tooEarly d then .notBefore
        else if (s.account d.account).atBudget then .budget else if s.mayReserve = false then .logFull else .noLine := rfl
    have hwaits : s.tooEarly d = true ↔ waits := s.tooEarly_iff d
    have hroom : s.mayReserve = true ↔ room := s.mayReserve_iff
    refine ⟨fun h => ?_, fun h hw => ?_, fun h hw hb => ?_, fun h hw hb => ⟨fun hr => ?_, fun hr => ?_⟩, s.eligible_iff x⟩
    · rw [hreason, if_pos h]
    all_goals rw [hreason, if_neg (by simp [h])]
    · rw [if_pos (hwaits.mpr hw)]
    · rw [if_neg (by rw [hwaits]; exact hw), if_pos hb]
    · rw [if_neg (by rw [hwaits]; exact hw), if_neg (by simp [hb]), if_pos (by rw [← Bool.not_eq_true, hroom]; exact hr)]
    · rw [if_neg (by rw [hwaits]; exact hw), if_neg (by simp [hb]), if_neg (by rw [hroom.mpr hr]; decide)]
  case best =>
    intro before
    obtain ⟨hnone, hsome⟩ := s.foldl_better s.listedDests
    refine ⟨fun h => ?_, fun x hx he hbest => ?_, fun x hx => hsome x hx⟩
    · rw [State.bestDest]
      cases hbest : s.listedDests.foldl s.better none with
      | none => rfl
      | some x =>
        obtain ⟨pre, post, hl, hx, -⟩ := hsome x hbest
        exact absurd ((h x (by simp [hl])).symm.trans hx) (by decide)
    · exact absurd ((hnone hbest x hx).symm.trans he) (by decide)
  case choose =>
    refine ⟨State.serveLine_idle, fun h => by rw [State.serveLine, if_pos h], State.chooseFor_none,
      fun x cls band hbest hclass => ⟨fun cause hfails => ?_, fun hfails => ?_⟩⟩
    · obtain ⟨q, store, docs, hfinal⟩ := State.becomeFinal_form x { s.dest x with cls := cls, band := band, lastCause := cause } .failed s
      have hchoose := State.chooseFor_fails (n := n) (k := k) hbest (by rw [hclass]; exact hfails)
      rw [hclass] at hchoose
      refine ⟨_, hchoose, ?_⟩
      rw [hfinal]
      exact ⟨Table.get_set_self _ _ _, fun y hy => Table.get_set_of_ne _ _ (Ne.symm hy), Notice.pending_of_or rfl, rfl, rfl⟩
    · have hchoose := State.chooseFor_dials (n := n) (k := k) hbest (by rw [hclass]; exact hfails)
      rw [hclass] at hchoose
      obtain ⟨t, ht⟩ : ∃ t, t = s.dialDest n x cls band := ⟨_, rfl⟩
      rw [← ht] at hchoose
      refine ⟨t, hchoose, State.eq_of_bare ?_ rfl⟩
      rw [ht, State.dialDest_bare]
      rfl

end Sys2Proof.Machine

/-! PROOF. Dialling (R127, R129, R130, R133). -/

namespace Sys2Proof.Machine

theorem State.modLine_eq (n : Fin 4) (f : LineUnit → LineUnit) (s : State) : s.modLine n f = s.setLine n (f (s.lineUnit n)) := rfl

@[simp] theorem State.bare_modLine (n : Fin 4) (f : LineUnit → LineUnit) (s : State) :
    (s.modLine n f).bare = { s.bare with lines := s.lines.set n (f (s.lineUnit n)) } := State.bare_setLine s n _

theorem State.seizeDelayEnded_loop {n : Fin 4} {due : Nat} {s : State} (hdelay : (s.lineUnit n).seizeDelay = some due)
    (hloop : (s.lineUnit n).loopSeen = true) : s.seizeDelayEnded n =
      ((s.reach due).setLine n { s.lineUnit n with seizeDelay := none }).setLine n
        (({ s.lineUnit n with
          seizeDelay := none, record := { (s.lineUnit n).record with state := .dialling } } : LineUnit).dialNext due) := by
  rw [State.seizeDelayEnded, hdelay]
  dsimp only
  rw [if_pos hloop, State.modLine_eq _ _ (State.modLine ..), State.modLine_eq, State.setLine_lineUnit_same]
  rfl

section Phases

variable {n : Fin 4} {e : DialElement} {s : State} (he : (s.lineUnit n).element = some e)

include he

theorem State.phaseEnded_goes {u : LineUnit} (hnext : (s.lineUnit n).nextPhase e = some u)
    (hrecord : u.record = (s.lineUnit n).record) : s.phaseEnded n = { s with now := max s.now e.due, lines := s.lines.set n u } := by
  rw [State.phaseEnded, he]
  dsimp only
  rw [hnext]
  exact State.setLine_of_record_eq (s := s.reach e.due) hrecord

theorem State.phaseEnded_last (hnext : (s.lineUnit n).nextPhase e = none) : s.phaseEnded n = s := by
  rw [State.phaseEnded, he]
  dsimp only
  rw [hnext]

theorem State.elementEnded_last (hnext : (s.lineUnit n).nextPhase e = none) : s.elementEnded n = (s.reach e.due).setLine n
    (({ s.lineUnit n with
      record := { (s.lineUnit n).record with charsSent := (s.lineUnit n).record.charsSent + 1 } } : LineUnit).dialNext e.due) := by
  rw [State.elementEnded]
  dsimp only
  rw [he]
  dsimp only
  rw [hnext]

end Phases

theorem LineUnit.nextPhase_last {u : LineUnit} {e : DialElement} (h : e.phase = .toneGap ∨ e.phase = .interdigit ∨ e.phase = .pause) :
    u.nextPhase e = none := by
  unfold LineUnit.nextPhase
  obtain h | h | h := h <;> rw [h]

theorem LineUnit.startElement_charsSent (u : LineUnit) (c : DialChar) (start : Nat) :
    (u.startElement c start).record = u.record := by
  unfold LineUnit.startElement
  dsimp only
  (repeat' split) <;> rfl

theorem LineUnit.dialNext_charsSent (u : LineUnit) (start : Nat) : (u.dialNext start).record.charsSent = u.record.charsSent := by
  unfold LineUnit.dialNext
  split
  · rw [LineUnit.startElement_charsSent]
  · rfl

theorem LineUnit.dialNext_char {u : LineUnit} {c : DialChar} (h : u.number[u.record.charsSent]? = some c) (start : Nat) :
    u.dialNext start = u.startElement c start := by
  rw [LineUnit.dialNext, h]

theorem LineUnit.dialNext_sent {u : LineUnit} (h : u.number[u.record.charsSent]? = none) (start : Nat) :
    u.dialNext start = { u with
      record := { u.record with state := .awaiting }, offHook := true, toneCode := 0, element := none,
      noAnswer := some (start + u.record.active.noAnswer * Config.second) } := by
  rw [LineUnit.dialNext, h]

/-- Settles O60: the timers' ends by the equations above, the phases by their constructors. -/
theorem dialling : Obligations.Dialling := by
  refine ⟨fun n due c s => ?delay, fun u start d => ⟨rfl, ?tone, ?signs, ?pulse⟩, fun n s => ?phases, fun n due phase s => ?last⟩
  case delay =>
    intro u hdelay hloop hchar
    refine ⟨s.seizeDelayEnded n, rfl, State.eq_of_bare ?_ rfl⟩
    obtain ⟨v, hv⟩ : ∃ v : LineUnit, v = { u with seizeDelay := none, record := { u.record with state := .dialling } } := ⟨_, rfl⟩
    have hvchar : v.number[v.record.charsSent]? = some c := by
      rw [hv]
      exact hchar
    rw [State.seizeDelayEnded_loop hdelay hloop, State.bare_setLine_setLine, ← hv, LineUnit.dialNext_char hvchar]
    rfl
  case tone =>
    intro hmethod
    simp only [LineUnit.startElement, hmethod]
    rfl
  case signs =>
    intro _
    exact ⟨rfl, rfl⟩
  case pulse =>
    intro hmethod
    simp only [LineUnit.startElement, hmethod]
    rfl
  case phases =>
    intro u goesTo
    have hgoes {e : DialElement} {v : LineUnit} (he : u.element = some e) (hnext : u.nextPhase e = some v)
        (hrecord : v.record = u.record) : goesTo e.due v :=
      congrArg (fun t : State => Host.Outcome.next t.settleStep) (State.phaseEnded_goes he hnext hrecord)
    refine ⟨fun hnone => ?_, fun due => ⟨fun he => hgoes (e := ⟨.toneOn, due⟩) he rfl rfl,
      fun left he => hgoes (e := ⟨.pulseBreak left, due⟩) he rfl rfl,
      fun left he => hgoes (e := ⟨.pulseMake (left + 1), due⟩) he rfl rfl,
      fun he => hgoes (e := ⟨.pulseMake 0, due⟩) he rfl rfl, fun hlast => ?_⟩⟩
    · refine congrArg (fun t : State => Host.Outcome.next t.settleStep) (?_ : s.phaseEnded n = s)
      rw [State.phaseEnded, show (s.lineUnit n).element = none from hnone]
    · refine congrArg (fun t : State => Host.Outcome.next t.settleStep) (?_ : s.phaseEnded n = s)
      obtain he | he | he := hlast
      · exact State.phaseEnded_last he (LineUnit.nextPhase_last (.inl rfl))
      · exact State.phaseEnded_last he (LineUnit.nextPhase_last (.inr (.inl rfl)))
      · exact State.phaseEnded_last he (LineUnit.nextPhase_last (.inr (.inr rfl)))
  case last =>
    intro u he hphase counted
    have heq : s.elementEnded n = (s.reach due).setLine n (counted.dialNext due) :=
      State.elementEnded_last he (LineUnit.nextPhase_last hphase)
    have hunit : (s.elementEnded n).lineUnit n = counted.dialNext due := by rw [heq, State.setLine_lineUnit_same]
    refine ⟨s.elementEnded n, rfl, State.eq_of_bare ?_ rfl, fun c hc => ?_, fun hnone => ?_, ?_⟩
    · rw [hunit, heq, State.bare_setLine]
      rfl
    · rw [hunit]
      exact LineUnit.dialNext_char hc _
    · rw [hunit]
      exact LineUnit.dialNext_sent hnone _
    · obtain ⟨q, hq, -, hmem⟩ := State.setLine_form n (counted.dialNext due) (s.reach due)
      rw [heq, hq]
      refine hmem fun h => ?_
      have hsent := congrArg LineRecord.charsSent h
      rw [LineUnit.dialNext_charsSent] at hsent
      exact Nat.succ_ne_self u.record.charsSent hsent

end Sys2Proof.Machine

/-! PROOF. The second event and the retry timers (R111, R172, R175). -/

namespace Sys2Proof.Machine

/-- What judging the period and the not-before times at a change of the clock leaves (R175, R177). -/
theorem State.clockJudged_form (old : Option ClockValue) (u : State) : ∃ q due notices,
    (((u.rewrite .counters).judgePeriod).judgeNotBefore old) = { u with
      charge := { u.charge with period := u.charge.judged }, dispatch := { u.dispatch with arbiterDue := due },
      ctl := { u.ctl with queue := q, notices := notices } } ∧
    QueueEntry.record .counters ∈ q ∧
    (notices = u.ctl.notices ∨ notices = u.ctl.notices ||| Notice.clock.bit) ∧
    (u.charge.judged ≠ u.charge.period → notices = u.ctl.notices ||| Notice.clock.bit) ∧
    (u.notBeforePassed old → notices = u.ctl.notices ||| Notice.clock.bit ∧ due = true) ∧
    (¬u.notBeforePassed old → due = u.dispatch.arbiterDue ∧ (u.charge.judged = u.charge.period → notices = u.ctl.notices)) := by
  obtain ⟨q₁, hcounters, -, hqueued⟩ := State.rewrite_form .counters u
  obtain ⟨q₂, hperiod, hkeeps⟩ := State.judgePeriod_form (u.withQueue q₁)
  obtain ⟨v, hv⟩ : ∃ v, v = (u.withQueue q₁).judgePeriod := ⟨_, rfl⟩
  have hmem : QueueEntry.record .counters ∈ q₂ := hkeeps _ hqueued
  have hpassed : v.notBeforePassed old ↔ u.notBeforePassed old := by
    rw [hv, hperiod]
    rfl
  obtain ⟨hraises, hrests⟩ := State.judgeNotBefore_eq old v
  rw [hpassed] at hraises hrests
  rw [hcounters, ← hv]
  rw [← hv] at hperiod
  by_cases hp : u.notBeforePassed old
  · obtain ⟨q₃, hraise, hkeeps₃⟩ := State.raise_form .clock v
    rw [hraises hp, hraise]
    refine ⟨q₃, true, u.ctl.notices ||| Notice.clock.bit, ?_, hkeeps₃ _ (hperiod ▸ hmem), .inr rfl, fun _ => rfl,
      fun _ => ⟨rfl, rfl⟩, fun h => absurd hp h⟩
    have hnotices : v.ctl.notices ||| Notice.clock.bit = u.ctl.notices ||| Notice.clock.bit := by
      rw [hperiod]
      dsimp only
      split
      · rfl
      · exact or_or_self _ _
    rw [hnotices, hperiod]
    rfl
  · rw [hrests hp, hperiod]
    refine ⟨q₂, u.dispatch.arbiterDue, _, rfl, hmem, ?_, fun h => if_neg h, fun h => absurd h hp, fun _ => ⟨rfl, fun h => if_pos h⟩⟩
    split
    · exact .inl rfl
    · exact .inr rfl

/-- The state with the second counted, before the period is judged. -/
def State.secondOn (s : State) : State :=
  let last := decide (86400 ≤ s.charge.clock.second + 1)
  { s with
    now := max s.now s.charge.dividerDue,
    charge := { s.charge with
      dividerDue := s.charge.dividerDue + 1000000,
      clock := if last then ⟨s.charge.clock.day + 1, 0⟩ else ⟨s.charge.clock.day, s.charge.clock.second + 1⟩,
      dayOfWeek := if last then (if s.charge.dayOfWeek < 6 then s.charge.dayOfWeek + 1 else 0) else s.charge.dayOfWeek } }

theorem ClockValue.next_eq (c : ClockValue) :
    c.next = if decide (86400 ≤ c.second + 1) then ⟨c.day + 1, 0⟩ else ⟨c.day, c.second + 1⟩ := by
  by_cases h : c.second + 1 < 86400
  · exact (if_pos h).trans (if_neg (by rw [decide_eq_true_eq]; omega)).symm
  · exact (if_neg h).trans (if_pos (by rw [decide_eq_true_eq]; omega)).symm

theorem State.secondPassed_set {s : State} (hset : s.charge.clockSet = true) :
    s.secondPassed = ((s.secondOn.rewrite .counters).judgePeriod).judgeNotBefore s.charge.reading := by
  rw [State.secondPassed]
  dsimp only
  rw [if_pos hset, State.advanceClock]
  dsimp only
  rw [ClockValue.next_eq]
  rfl

theorem State.becomePending_bare (x : Fin 512) (r : DestRecord) (s : State) : (s.becomePending x r).bare = { s.bare with
    dispatch := { s.dispatch with
      dests := s.dispatch.dests.set x { r with state := .pending, retryDue := none }, arbiterDue := true } } := by
  obtain ⟨q, hq, -⟩ := State.setDest_form x { r with state := .pending, retryDue := none } s
  rw [State.becomePending, hq]
  rfl

/-- A destination that becomes PENDING from another state has its rewrite queued. -/
theorem State.becomePending_queued {x : Fin 512} {s : State} (h : (s.dest x).state ≠ .pending) :
    QueueEntry.record (.destination x) ∈ (s.becomePending x (s.dest x)).ctl.queue := by
  obtain ⟨q, hq, -, hmem⟩ := State.setDest_form x { s.dest x with state := .pending, retryDue := none } s
  rw [State.becomePending, hq]
  exact hmem fun hsame => h (congrArg DestRecord.state hsame).symm

/-- The effect of a retry timer's end (R111). -/
theorem State.retryEnded_of_some {x : Fin 512} {due : Nat} {s : State} (h : s.dispatch.retryTimers.get x = some due) :
    s.retryEnded x = if (s.dest x).state = .waiting then ((s.reach due).setRetryTimer x none).becomePending x (s.dest x)
      else (s.reach due).setRetryTimer x none := by
  rw [State.retryEnded, h]

/-- Settles O56: the second by `State.clockJudged_form`, the retry timer by the destination's state. -/
theorem secondsAndRetries : Obligations.SecondsAndRetries := by
  refine ⟨fun s => ⟨fun hunset => ?unset, fun hset => ?set⟩, fun x s => ⟨fun hnone => ?stopped, fun due hdue => ?expired⟩⟩
  case unset =>
    refine congrArg (fun t : State => Host.Outcome.next t.settleStep) (?_ : s.secondPassed = _)
    exact if_neg (by rw [hunset]; decide)
  case set =>
    intro last
    obtain ⟨u, hu⟩ : ∃ u, u = s.secondOn := ⟨_, rfl⟩
    obtain ⟨q, due, notices, hform, hmem, hflags, hchanged, hp, hnp⟩ := State.clockJudged_form s.charge.reading u
    obtain ⟨t, ht⟩ : ∃ t, t = s.secondPassed := ⟨_, rfl⟩
    have hunotices : u.ctl.notices = s.ctl.notices := by rw [hu]; rfl
    have hudue : u.dispatch.arbiterDue = s.dispatch.arbiterDue := by rw [hu]; rfl
    have huperiod : u.charge.period = s.charge.period := by rw [hu]; rfl
    rw [hu, ← State.secondPassed_set hset, ← hu, ← ht] at hform
    rw [hunotices] at hflags hchanged hp hnp
    rw [huperiod] at hchanged hnp
    rw [hudue] at hnp
    have htnotices : t.ctl.notices = notices := by rw [hform]
    have htdue : t.dispatch.arbiterDue = due := by rw [hform]
    have htperiod : t.charge.period = u.charge.judged := by rw [hform]
    have htclock : t.charge.clock = u.charge.clock := by rw [hform]
    have htqueue : t.ctl.queue = q := by rw [hform]
    refine ⟨t, by rw [ht]; rfl, State.eq_of_bare ?_ rfl, htnotices ▸ hflags,
      fun h => Notice.pending_of_or (htnotices.trans (hchanged (htperiod ▸ h))),
      htqueue ▸ hmem, ?_⟩
    · rw [hform, hu]
      rfl
    · intro before passed
      have hpassed : u.notBeforePassed s.charge.reading ↔ passed := by
        have hreading : u.charge.reading = some t.charge.clock := by
          rw [htclock, hu]
          exact if_pos hset
        refine exists_congr fun d => ?_
        rw [passed_iff, State.hasPending_iff, hreading, show u.doc d = s.doc d by rw [hu]; rfl]
        simp only [show ∀ x, u.dest x = s.dest x by rw [hu]; exact fun _ => rfl, reached_reading_eq_false, reached_some, hset,
          Bool.true_eq_false, false_or]
        constructor
        · rintro ⟨⟨b, hb, huse, hcomplete, hold, hnew⟩, hpending⟩
          exact ⟨b, huse, hcomplete, hb, hpending, hold, hnew⟩
        · rintro ⟨b, huse, hcomplete, hb, hpending, hold, hnew⟩
          exact ⟨⟨b, hb, huse, hcomplete, hold, hnew⟩, hpending⟩
      rw [hpassed] at hp hnp
      rw [htnotices, htdue, htperiod]
      exact ⟨fun h => ⟨Notice.pending_of_or (htnotices.trans (hp h).1), (hp h).2⟩, fun h => hnp h⟩
  case stopped =>
    refine congrArg (fun t : State => Host.Outcome.next t.settleStep) (?_ : s.retryEnded x = s)
    rw [State.retryEnded, hnone]
  case expired =>
    refine ⟨s.retryEnded x, rfl, State.eq_of_bare ?_ rfl, fun hwaiting => ?_⟩
    · rw [State.retryEnded_of_some hdue]
      by_cases hwaiting : (s.dest x).state = .waiting
      · rw [if_pos hwaiting, State.becomePending_bare, if_pos hwaiting, decide_eq_true hwaiting, Bool.or_true]
        rfl
      · rw [if_neg hwaiting, if_neg hwaiting, decide_eq_false hwaiting, Bool.or_false]
        rfl
    · rw [State.retryEnded_of_some hdue, if_pos hwaiting]
      exact State.becomePending_queued (s := (s.reach due).setRetryTimer x none) fun h => by
        rw [show ((s.reach due).setRetryTimer x none).dest x = s.dest x from rfl, hwaiting] at h
        cases h

end Sys2Proof.Machine

/-! PROOF. Opening, cutting and closing of the scan stream (R82, R89, R93, R94). -/

namespace Sys2Proof.Machine

/-! ## The held access of a stream that closes (R13) -/

/-- Is a write held on the window? -/
def PathUnit.heldWrite (w : Fin 6) (p : PathUnit) : Bool :=
  p.held.any fun h => decide (h.window = some w) && isWrite h.access

/-- The path unit with an access held on the window completed as a closed-window access. -/
def PathUnit.voided (w : Fin 6) (p : PathUnit) : PathUnit :=
  match p.held with
  | some h =>
    if h.window = some w then { p with
      held := none,
      answer := some (match h.access with
        | .read r => .read (List.replicate r.size.bytes 0)
        | .write _ => .written) }
    else p
  | none => p

theorem PathUnit.voided_of_some {w : Fin 6} {h : HeldAccess} {p : PathUnit} (hheld : p.held = some h) :
    p.voided w = if h.window = some w then { p with
      held := none,
      answer := some (match h.access with
        | .read r => .read (List.replicate r.size.bytes 0)
        | .write _ => .written) }
    else p := by
  rw [PathUnit.voided, hheld]

theorem PathUnit.voided_of_none {w : Fin 6} {p : PathUnit} (hheld : p.held = none) : p.voided w = p := by
  rw [PathUnit.voided, hheld]

theorem PathUnit.voided_held (w : Fin 6) (p : PathUnit) : ∀ h, (p.voided w).held = some h → h.window ≠ some w := by
  intro h hh
  cases hp : p.held with
  | none =>
    rw [PathUnit.voided_of_none hp, hp] at hh
    cases hh
  | some g =>
    rw [PathUnit.voided_of_some hp] at hh
    split at hh
    · cases hh
    · next hne =>
      rw [hp] at hh
      cases hh
      exact hne

theorem PathUnit.voided_windows (w : Fin 6) (p : PathUnit) : (p.voided w).windows = p.windows := by
  unfold PathUnit.voided
  split
  · split <;> rfl
  · rfl

theorem State.countDropped_path (w : Fin 6) (s : State) : (s.countDropped w).path = s.path := by
  obtain ⟨q, hq⟩ := s.countDropped_form w
  rw [hq]
  rfl

theorem PathUnit.heldWrite_iff (w : Fin 6) (p : PathUnit) :
    p.heldWrite w = true ↔ ∃ h, p.held = some h ∧ h.window = some w ∧ isWrite h.access = true := by
  rw [PathUnit.heldWrite]
  cases p.held with
  | none => simp
  | some h => simp

/-- A held write is dropped and counted. -/
theorem State.closeHeld_of_write {w : Fin 6} {s : State} (h : s.path.heldWrite w = true) :
    s.closeHeld w = { s.countDropped w with path := s.path.voided w } := by
  obtain ⟨g, hheld, hw, hwrite⟩ := (PathUnit.heldWrite_iff w s.path).mp h
  rw [State.closeHeld, hheld, PathUnit.voided_of_some hheld]
  dsimp only
  rw [if_pos hw, if_pos hw, State.voidAccess_write w s hwrite, State.answerHost, State.countDropped_path]
  cases hacc : g.access with
  | read r =>
    rw [hacc] at hwrite
    cases hwrite
  | write x => rfl

/-- With no write held, only the path unit's part changes. -/
theorem State.closeHeld_of_not {w : Fin 6} {s : State} (h : s.path.heldWrite w = false) :
    s.closeHeld w = { s with path := s.path.voided w } := by
  rw [State.closeHeld]
  cases hheld : s.path.held with
  | none =>
    rw [PathUnit.voided_of_none hheld]
  | some g =>
    rw [PathUnit.voided_of_some hheld]
    dsimp only
    by_cases hw : g.window = some w
    · have hread : isWrite g.access = false := by
        cases hacc : isWrite g.access with
        | false => rfl
        | true =>
          rw [(PathUnit.heldWrite_iff w s.path).mpr ⟨g, hheld, hw, hacc⟩] at h
          cases h
      rw [if_pos hw, if_pos hw, State.voidAccess_read w s hread, State.answerHost]
      cases hacc : g.access with
      | read r => rfl
      | write x =>
        rw [hacc] at hread
        cases hread
    · rw [if_neg hw, if_neg hw]

theorem State.closeHeld_scan (s : State) : ∃ q, s.closeHeld 0 = ({ s with
    path := s.path.voided 0,
    scan := { s.scan with
      dropped := if s.path.heldWrite 0 = true then saturate 65535 s.scan.dropped else s.scan.dropped } } : State).withQueue q := by
  cases hwrite : s.path.heldWrite 0 with
  | false => exact ⟨s.ctl.queue, State.closeHeld_of_not hwrite⟩
  | true =>
    obtain ⟨q, hq⟩ := s.countDropped_form 0
    refine ⟨q, (State.closeHeld_of_write hwrite).trans ?_⟩
    rw [hq]
    rfl

/-! ## SCAN OPEN and SCAN RESUME (R82, R93) -/

theorem widthField_eq_some {x : BitVec 8} {w : Width} (h : x.toNat = w.code) : widthField x = some w := by
  have hx : x = BitVec.ofNat 8 w.code := by
    apply BitVec.eq_of_toNat_eq
    rw [h]
    cases w <;> rfl
  rw [hx]
  cases w <;> rfl

theorem widthField_eq_none {x : BitVec 8} (h : 2 < x.toNat) : widthField x = none := by
  have hne (k : Nat) (hk : k ≤ 2) : x ≠ BitVec.ofNat 8 k := by
    rintro rfl
    rw [BitVec.toNat_ofNat, Nat.mod_eq_of_lt (by omega)] at h
    omega
  exact (if_neg (hne 0 (by omega))).trans ((if_neg (hne 1 (by omega))).trans (if_neg (hne 2 (by omega))))

theorem kField_eq_some {x : BitVec 8} (h : x.toNat ≤ 16) : kField x = some x.toNat := if_pos h

theorem kField_eq_none {x : BitVec 8} (h : 16 < x.toNat) : kField x = none := if_neg (by omega)

theorem State.cmdScanOpen_of_bad {document width k : BitVec 8} {s : State} (hrun : s.ctl.engine = .running)
    (h : 64 ≤ document.toNat ∨ 2 < width.toNat ∨ 16 < k.toNat) : State.cmdScanOpen document width k s = s.not .badArg := by
  rw [State.cmdScanOpen, State.inRunning_taken _ hrun]
  split
  · next d w kk hd hw hk =>
    obtain h | h | h := h
    · rw [indexBelow_of_le h] at hd
      cases hd
    · rw [widthField_eq_none h] at hw
      cases hw
    · rw [kField_eq_none h] at hk
      cases hk
  · rfl

theorem State.cmdScanOpen_of_eq {document width k : BitVec 8} {d : Fin 64} {w : Width} {s : State}
    (hrun : s.ctl.engine = .running) (hd : document.toNat = d.val) (hw : width.toNat = w.code) (hk : k.toNat ≤ 16) :
    State.cmdScanOpen document width k s =
      if (s.doc d).inUse = false then s.not .notFound
      else if (s.doc d).kind = .incoming ∨ (s.doc d).building = false then s.not .badArg
      else if s.scan.state ≠ .closed then s.not .busy
      else (s.openScan d w k.toNat).okay [] := by
  rw [State.cmdScanOpen, State.inRunning_taken _ hrun, indexBelow_of_eq d hd, widthField_eq_some hw, kField_eq_some hk]

theorem State.freePageEntry_isSome (s : State) : s.freePageEntry.isSome = true ↔ ∃ p, (s.page p).state = .free := by
  constructor
  · intro h
    by_contra hnone
    have : s.freePageEntry = none := Table.first_eq_none fun p => decide_eq_false fun hp => hnone ⟨p, hp⟩
    rw [this] at h
    cases h
  · rintro ⟨p, hp⟩
    obtain ⟨i, hi, -⟩ := Table.first_eq_some (t := s.store.pages) (p := fun r => decide (r.state = .free)) ⟨p, decide_eq_true hp⟩
    rw [State.freePageEntry, hi]
    rfl

/-- A scan command that is carried out replaces the scan stream and shows it in its mirror. -/
theorem State.setScan_noted {x : ScanStream} {data : List Byte} {s : State} (h : x.state ≠ s.scan.state) :
    ((s.setScan x).noteResult ⟨.ok, data⟩) = { s with
      scan := x, ctl := s.ctl.noted ((s.setScan x).noteResult ⟨.ok, data⟩) s.ctl.notices .ok data } ∧
    QueueEntry.record (.stream 0) ∈ ((s.setScan x).noteResult ⟨.ok, data⟩).ctl.queue := by
  obtain ⟨q, hq, -, hmem⟩ := State.setScan_form x s
  rw [hq]
  exact ⟨rfl, hmem fun hshown => h (show (scanShown x).state = (scanShown s.scan).state by rw [hshown])⟩

/-- Settles O49: both commands by their checks. -/
theorem scanOpenAndResume : Obligations.ScanOpenAndResume := by
  refine ⟨fun document width k s hup hrun => ?opens, fun s hup hrun => ?resumes⟩
  case opens =>
    have hrow := exec_ringCommand (c := .scanOpen document width k) rfl s
    refine ⟨fun hbad => State.ring_command_answers hup hrow (State.cmdScanOpen_of_bad hrun hbad), fun d w hd hw hk => ?_⟩
    intro r
    have hcmd := State.cmdScanOpen_of_eq hrun hd hw hk
    refine ⟨fun huse => State.ring_command_answers hup hrow (hcmd.trans (if_pos huse)), fun huse hbad => ?_,
      fun huse hkind hbuilding => ?_⟩
    · rw [if_neg (by rw [show (s.doc d).inUse = true from huse]; decide)] at hcmd
      exact State.ring_command_answers hup hrow (hcmd.trans (if_pos hbad))
    · rw [if_neg (by rw [show (s.doc d).inUse = true from huse]; decide), if_neg (by
        rintro (h | h)
        · exact hkind h
        · rw [show (s.doc d).building = true from hbuilding] at h
          cases h)] at hcmd
      refine ⟨fun hbusy => State.ring_command_answers hup hrow (hcmd.trans (if_pos hbusy)), fun hclosed => ?_⟩
      rw [if_neg (not_not.mpr hclosed)] at hcmd
      refine State.ring_command_leaves _ hup hrow hcmd ?_
      exact State.setScan_noted (by simp [hclosed])
  case resumes =>
    have hrow := exec_ringCommand (c := .scanResume) rfl s
    have hcmd : State.cmdScanResume s =
        if s.scan.state ≠ .starved then s.not .busy
        else if s.scan.cause = .pages then s.not .badArg
        else if s.store.reserve < s.freeBlocks ∧ s.freePageEntry.isSome = true then
          (s.setScan { s.scan with state := .open, cause := .none }).okay []
        else s.not .busy := by
      rw [State.cmdScanResume, State.inRunning_taken _ hrun]
    refine ⟨fun hbusy => State.ring_command_answers hup hrow (hcmd.trans (if_pos hbusy)), fun hstarved hpages => ?_,
      fun hstarved hpages => ?_⟩
    · rw [if_neg (not_not.mpr hstarved)] at hcmd
      exact State.ring_command_answers hup hrow (hcmd.trans (if_pos hpages))
    · rw [if_neg (not_not.mpr hstarved), if_neg hpages] at hcmd
      rw [← State.freePageEntry_isSome]
      refine ⟨fun hroom => ?_, fun hroom => State.ring_command_answers hup hrow (hcmd.trans (if_neg hroom))⟩
      refine State.ring_command_leaves _ hup hrow (hcmd.trans (if_pos hroom)) ?_
      exact State.setScan_noted (by simp [hstarved])

end Sys2Proof.Machine

/-! PROOF. What the close of a line's stream and the end of a document's building leave alone, and what they leave there. -/

namespace Sys2Proof.Machine

/-! ## The parts apart from the streams -/

/-- The parts that the close of a line's stream and the end of building leave alone. -/
structure Apart where
  mem : List Host.Cell
  now : Nat
  engine : Engine
  teardown : Option Teardown
  scan : ScanStream
  print : PrintStream
  lines : Table LineUnit 4
  charge : ChargeUnit
  dests : Table DestRecord 512
  retryTimers : Table (Option Nat) 512

def State.apart (s : State) : Apart :=
  { mem := s.mem, now := s.now, engine := s.ctl.engine, teardown := s.ctl.teardown, scan := s.scan, print := s.print,
    lines := s.lines, charge := s.charge, dests := s.dispatch.dests, retryTimers := s.dispatch.retryTimers }

section Ops

variable (s : State)

@[simp] theorem State.withQueue_apart (q : List QueueEntry) : (s.withQueue q).apart = s.apart := rfl

@[simp] theorem State.raise_apart (f : Notice) : (s.raise f).apart = s.apart := by
  obtain ⟨q, hq, -⟩ := State.raise_form f s
  rw [hq]
  rfl

@[simp] theorem State.setStream_apart (n : Fin 4) (x : LineStream) : (s.setStream n x).apart = s.apart := by
  obtain ⟨q, hq, -⟩ := State.setStream_form n x s
  rw [hq]
  rfl

@[simp] theorem State.modStream_apart (n : Fin 4) (f : LineStream → LineStream) : (s.modStream n f).apart = s.apart :=
  s.setStream_apart n _

@[simp] theorem State.setDoc_apart (d : Fin 64) (r : DocRecord) : (s.setDoc d r).apart = s.apart := by
  obtain ⟨q, hq, -⟩ := State.setDoc_form d r s
  rw [hq]
  rfl

@[simp] theorem State.setPrintQueue_apart (l : List (Fin 64)) : (s.setPrintQueue l).apart = s.apart := rfl

@[simp] theorem State.setPage_apart (p : Fin 512) (r : PageRecord) : (s.setPage p r).apart = s.apart := by
  obtain ⟨q, hq, -⟩ := State.setPage_form p r s
  rw [hq]
  rfl

@[simp] theorem State.setFreeList_apart (l : List Nat) : (s.setFreeList l).apart = s.apart := by
  obtain ⟨q, hq, -⟩ := State.setFreeList_form l s
  rw [hq]
  rfl

@[simp] theorem State.setPageList_apart (d : Fin 64) (l : List (Fin 512)) : (s.setPageList d l).apart = s.apart := by
  obtain ⟨q, hq, -⟩ := State.setPageList_form d l s
  rw [hq]
  rfl

@[simp] theorem State.setSlot_apart (w : Writer) (x : WriterSlot) : (s.setSlot w x).apart = s.apart := rfl

@[simp] theorem State.setWindow_apart (w : Fin 6) (x : WindowShadow) : (s.setWindow w x).apart = s.apart := by
  obtain ⟨q, hq, -⟩ := State.setWindow_form w x s
  rw [hq]
  rfl

@[simp] theorem State.openCtx_apart (i : StreamId) (w : Width) (k : Nat) : (s.openCtx i w k).apart = s.apart := by
  rw [State.openCtx_eq]
  rfl

@[simp] theorem State.dropRead_apart (q : Requester) : (s.dropRead q).apart = s.apart := by
  unfold State.dropRead
  split
  · split <;> rfl
  · rfl

/-- A stream's context becomes IDLE, its job discarded (R53, R59). -/
theorem State.idleCtx_eq (i : StreamId) : s.idleCtx i = { s with
    coder := s.coder.restart i { s.ctx i with isOpen := false, reference := [], repeatRun := 0, job := .none } } := by
  have hctx : (s.discardJob i).ctx i = { s.ctx i with job := .none } := by
    unfold State.discardJob
    dsimp only
    split
    · split <;> exact Table.get_set_self _ _ _
    · exact Table.get_set_self _ _ _
  rw [State.idleCtx, hctx]
  exact State.discardJob_setCtx ..

@[simp] theorem State.idleCtx_apart (i : StreamId) : (s.idleCtx i).apart = s.apart := by
  rw [State.idleCtx_eq]
  rfl

/-! ### The end of building (R95) -/

@[simp] theorem State.startServing_apart (n : Fin 4) (p : Fin 512) : (s.startServing n p).apart = s.apart := by
  unfold State.startServing
  dsimp only
  split <;> simp

@[simp] theorem State.waitPage_apart (n : Fin 4) : (s.waitPage n).apart = s.apart := by
  unfold State.waitPage
  split <;> simp

@[simp] theorem State.seekPage_apart (n : Fin 4) : (s.seekPage n).apart = s.apart := by
  unfold State.seekPage State.sendDocEnd
  dsimp only
  split
  · rfl
  · split
    · split <;> simp
    · split <;> simp

theorem foldl_apart {α : Type} (F : State → α → State) (hF : ∀ s a, (F s a).apart = s.apart) (l : List α) (s : State) :
    (l.foldl F s).apart = s.apart := by
  induction l generalizing s with
  | nil => rfl
  | cons a l ih => exact (ih _).trans (hF s a)

@[simp] theorem State.tellSenders_apart (d : Fin 64) : (s.tellSenders d).apart = s.apart := by
  refine foldl_apart _ (fun s n => ?_) _ _
  unfold State.tellSender
  dsimp only
  split <;> simp

@[simp] theorem State.releasePages_apart (d : Fin 64) : (s.releasePages d).apart = s.apart :=
  foldl_apart _ (fun s p => by simp [State.releasePage, State.giveBack]) _ _

@[simp] theorem State.checkComplete_apart (d : Fin 64) : (s.checkComplete d).apart = s.apart := by
  unfold State.checkComplete
  split <;> simp

@[simp] theorem State.printDue_apart (d : Fin 64) : (s.printDue d).apart = s.apart := by
  unfold State.printDue State.joinPrintQueue
  dsimp only
  split
  · split
    · simp
    · split <;> simp
  · rfl

@[simp] theorem State.endBuilding_apart (d : Fin 64) : (s.endBuilding d).apart = s.apart := by
  unfold State.endBuilding
  split <;> simp

/-! ### The close of a line's stream (R157) -/

@[simp] theorem State.freePage_apart (w : Writer) : (s.freePage w).apart = s.apart := by
  unfold State.freePage State.dropFromList State.giveBack
  dsimp only
  split <;> simp

@[simp] theorem State.closePage_apart (w : Writer) (flags : CloseFlags) : (s.closePage w flags).apart = s.apart := by
  unfold State.closePage State.beginClosing
  dsimp only
  split
  · rfl
  · split <;> simp

@[simp] theorem State.endReceivePage_apart (n : Fin 4) : (s.endReceivePage n).apart = s.apart := by
  unfold State.endReceivePage
  split
  · rfl
  · split <;> simp

@[simp] theorem State.activatePending_apart (w : Fin 6) : (s.activatePending w).apart = s.apart := by
  unfold State.activatePending State.activate
  split <;> simp

@[simp] theorem State.enterClosed_apart (n : Fin 4) : (s.enterClosed n).apart = s.apart := by simp [State.enterClosed]

/-- Closing the held access of a line's window leaves its stream with another count, and the path unit. -/
theorem State.closeHeld_line (n : Fin 4) : ∃ q dropped, s.closeHeld (StreamId.index (.line n)) = ({ s with
    path := s.path.voided (StreamId.index (.line n)),
    streams := s.streams.set n { s.stream n with dropped := dropped } } : State).withQueue q := by
  cases hwrite : s.path.heldWrite (StreamId.index (.line n)) with
  | false =>
    refine ⟨s.ctl.queue, (s.stream n).dropped, (State.closeHeld_of_not hwrite).trans ?_⟩
    have hsame : s.streams.set n { s.stream n with dropped := (s.stream n).dropped } = s.streams := Table.set_get _ _
    rw [hsame]
    rfl
  | true =>
    obtain ⟨q, hq⟩ := s.countDropped_form (StreamId.index (.line n))
    refine ⟨q, saturate 65535 (s.stream n).dropped, (State.closeHeld_of_write hwrite).trans ?_⟩
    rw [hq, windowStream_line]
    rfl

@[simp] theorem State.endTraffic_apart (n : Fin 4) : (s.endTraffic n).apart = s.apart := by
  obtain ⟨q, dropped, hq⟩ := s.closeHeld_line n
  rw [State.endTraffic, hq]
  simp
  rfl

@[simp] theorem State.closeStream_apart (n : Fin 4) : (s.closeStream n).apart = s.apart := by
  unfold State.closeStream
  split
  · rfl
  · split <;> simp

@[simp] theorem State.endReceiving_apart (n : Fin 4) : (s.endReceiving n).apart = s.apart := by
  unfold State.endReceiving
  dsimp only
  split <;> simp

end Ops

/-! ### The pending window entry (R6) -/

/-- Activating the pending entry of a window, whether it has one or not. -/
theorem State.activatePending_form (w : Fin 6) (s : State) : ∃ q windows, s.activatePending w =
    ({ s with path := { s.path with windows := windows } } : State).withQueue q ∧
    (∀ v, v ≠ w → windows.get v = s.window v) ∧ (windows.get w).pending = none ∧
    ((s.window w).pending = none → windows.get w = s.window w) ∧
    ∀ e, (s.window w).pending = some e →
      windows.get w = { s.window w with active := e.entry, pending := none, status := e.status } := by
  cases hpending : (s.window w).pending with
  | none =>
    refine ⟨s.ctl.queue, s.path.windows, ?_, fun v _ => rfl, hpending, fun _ => rfl, nofun⟩
    rw [State.activatePending, hpending]
    rfl
  | some e =>
    refine ⟨(s.activatePending w).ctl.queue, s.path.windows.set w { s.window w with
        pending := none, active := e.entry, status := e.status }, ?_, fun v hv => Table.get_set_of_ne _ _ hv.symm, ?_, nofun, ?_⟩
    · exact State.eq_of_bare (congrArg State.bare (State.activatePending_of_some hpending)) rfl
    · rw [Table.get_set_self]
    · rintro f ⟨⟩
      exact Table.get_set_self _ _ _

theorem State.print_of_apart {s t : State} (h : t.apart = s.apart) : t.print = s.print := congrArg Apart.print h

end Sys2Proof.Machine

/-! PROOF. PAGE CUT and SCAN CLOSE (R89, R94). -/

namespace Sys2Proof.Machine

/-! ## PAGE CUT (R89) -/

/-- The scan stream as a cut begins, the FILLING buffer completed with white. -/
def ScanStream.whitened (x : ScanStream) : ScanStream :=
  { x with
    bufferA := x.bufferA.padded x.width.rawBytes, bufferB := x.bufferB.padded x.width.rawBytes, trailing := x.fillingBytes,
    state := .cutting }

theorem State.beginCut_marks {m : BufferId} {s : State} (h : s.scan.whitened.lastFull = some m) :
    s.beginCut = s.setScan { s.scan.whitened with cut := some m } := by
  rw [ScanStream.whitened] at h ⊢
  rw [State.beginCut]
  dsimp only at h ⊢
  rw [h]

theorem State.beginCut_closes {s : State} (h : s.scan.whitened.lastFull = none) :
    s.beginCut = ((s.setScan s.scan.whitened).closePage .scan {}).scanCutDone := by
  rw [ScanStream.whitened] at h ⊢
  rw [State.beginCut]
  dsimp only at h ⊢
  rw [h]

theorem ScanStream.whitened_empty {x : ScanStream} (ha : x.bufferA = .empty) (hb : x.bufferB = .empty) :
    x.whitened = { x with trailing := 0, state := .cutting } ∧ x.whitened.lastFull = none := by
  have heq : x.whitened = { x with trailing := 0, state := .cutting } := by
    rw [ScanStream.whitened, ScanStream.fillingBytes, ha, hb]
    rfl
  refine ⟨heq, ?_⟩
  rw [heq, ScanStream.lastFull]
  cases hf : x.first <;> simp [ScanStream.buffer, BufferId.other, ha, hb, RawBuffer.isFull]

/-- The FILLING buffer completed becomes the line that became FULL last. -/
theorem ScanStream.whitened_filling {x : ScanStream} {l : List Byte} {buf : BufferId} (hbuf : x.buffer buf = .filling l)
    (hsame : x.first = buf → x.buffer buf.other = .empty) (hother : x.first ≠ buf → (x.buffer buf.other).isFull = true) :
    x.whitened = { x.setBuffer buf (.full (padTo x.width.rawBytes l)) with state := .cutting, trailing := l.length } ∧
      x.whitened.lastFull = some buf := by
  by_cases hf : x.first = buf
  · have ho := hsame hf
    cases buf <;>
      simp_all [ScanStream.whitened, ScanStream.fillingBytes, ScanStream.lastFull, ScanStream.buffer, ScanStream.setBuffer,
        BufferId.other, RawBuffer.padded, RawBuffer.isFull]
  · have ho := hother hf
    cases buf with
    | a =>
      have hfirst : x.first = .b := by
        cases h : x.first with
        | a => exact absurd h hf
        | b => rfl
      have ha : x.bufferA = .filling l := hbuf
      rw [ScanStream.whitened, ScanStream.fillingBytes, ha]
      cases hb : x.bufferB <;>
        simp_all [ScanStream.lastFull, ScanStream.buffer, ScanStream.setBuffer, BufferId.other, RawBuffer.padded, RawBuffer.isFull]
    | b =>
      have hfirst : x.first = .a := by
        cases h : x.first with
        | a => rfl
        | b => exact absurd h hf
      have hb : x.bufferB = .filling l := hbuf
      rw [ScanStream.whitened, ScanStream.fillingBytes, hb]
      cases ha : x.bufferA <;>
        simp_all [ScanStream.lastFull, ScanStream.buffer, ScanStream.setBuffer, BufferId.other, RawBuffer.padded, RawBuffer.isFull]

theorem RawBuffer.padded_of_not_filling {r : RawBuffer} (h : ∀ m, r ≠ .filling m) (w : Nat) : r.padded w = r := by
  cases r with
  | filling l => exact absurd rfl (h l)
  | _ => rfl

theorem ScanStream.fillingBytes_of_not_filling {x : ScanStream} (ha : ∀ m, x.bufferA ≠ .filling m) (hb : ∀ m, x.bufferB ≠ .filling m) :
    x.fillingBytes = 0 := by
  rw [ScanStream.fillingBytes]
  cases hA : x.bufferA with
  | filling l => exact absurd hA (ha l)
  | _ =>
    cases hB : x.bufferB with
    | filling l => exact absurd hB (hb l)
    | _ => rfl

/-- With no FILLING buffer, nothing is completed. -/
theorem ScanStream.whitened_full {x : ScanStream} {l : List Byte} (hfull : x.buffer x.first = .full l)
    (hother : ∀ m, x.buffer x.first.other ≠ .filling m) :
    x.whitened = { x with state := .cutting, trailing := 0 } ∧
      x.whitened.lastFull = some (if (x.buffer x.first.other).isFull then x.first.other else x.first) := by
  have hfirst : ∀ m, x.buffer x.first ≠ .filling m := fun m h => by
    rw [hfull] at h
    cases h
  have hboth : (∀ m, x.bufferA ≠ .filling m) ∧ ∀ m, x.bufferB ≠ .filling m := by
    cases hf : x.first with
    | a =>
      rw [hf] at hfirst hother
      exact ⟨hfirst, hother⟩
    | b =>
      rw [hf] at hfirst hother
      exact ⟨hother, hfirst⟩
  have heq : x.whitened = { x with state := .cutting, trailing := 0 } := by
    rw [ScanStream.whitened, RawBuffer.padded_of_not_filling hboth.1, RawBuffer.padded_of_not_filling hboth.2,
      ScanStream.fillingBytes_of_not_filling hboth.1 hboth.2]
  refine ⟨heq, ?_⟩
  have hlast : x.whitened.lastFull = x.lastFull := by
    rw [heq]
    rfl
  rw [hlast, ScanStream.lastFull]
  split
  · rfl
  · rw [hfull]
    rfl

theorem le_two_zero : le 2 0 = [0, 0] := by decide

section Cut

variable {s : State} (hup : s.ctl.teardown = none) (hrun : s.ctl.engine = .running)

include hrun

theorem State.cmdPageCut_busy (h : s.scan.state = .closed ∨ s.scan.state = .closing) : State.cmdPageCut s = s.not .busy := by
  rw [State.cmdPageCut, State.inRunning_taken _ hrun]
  obtain h | h := h <;> rw [h]

theorem State.cmdPageCut_idle
    (h : s.scan.state = .starved ∨ s.scan.state = .cutting ∨ (s.scan.state = .open ∧ (s.slot .scan).page = none)) :
    State.cmdPageCut s = s.okTrailing := by
  rw [State.cmdPageCut, State.inRunning_taken _ hrun]
  obtain h | h | ⟨h, hpage⟩ := h
  · rw [h]
  · rw [h]
  · rw [h]
    exact if_pos hpage

theorem State.cmdPageCut_cuts (h : s.scan.state = .open) (hpage : (s.slot .scan).page ≠ none) :
    State.cmdPageCut s = s.beginCut.okTrailing := by
  rw [State.cmdPageCut, State.inRunning_taken _ hrun, h]
  exact if_neg hpage

include hup

/-- What PAGE CUT leaves, from the state that its cut leaves. -/
theorem exec_pageCut_cuts {t : State} {data : List Byte} (h : s.scan.state = .open) (hpage : (s.slot .scan).page ≠ none)
    (hcut : s.beginCut.bare = t.bare) (hdata : le 2 t.scan.trailing = data) :
    exec .pageCut s = .next (s.beginCut.noteResult ⟨.ok, data⟩).settleStep ∧
      (s.beginCut.noteResult ⟨.ok, data⟩).bare = t.bare.noteResult ⟨.ok, data⟩ := by
  have hscan : s.beginCut.scan = t.scan := (congrArg State.scan hcut :)
  refine ⟨?_, congrArg (State.noteResult ⟨.ok, data⟩) hcut⟩
  obtain ⟨u, hexec, rfl⟩ := State.ring_command_leaves (P := fun u => u = s.beginCut.noteResult ⟨.ok, data⟩) _ hup
    (exec_ringCommand (c := .pageCut) rfl s) (State.cmdPageCut_cuts hrun h hpage) (by rw [State.okTrailing, hscan, hdata]; rfl)
  exact hexec

end Cut

theorem WriterSlot.page_eq_some {x : WriterSlot} {h : PageInHand} (hpage : x.page = some h) : x.asked = none ∧ x.writing = some h := by
  unfold WriterSlot.page at hpage
  split at hpage
  · next hasked => exact ⟨hasked, hpage⟩
  · cases hpage

/-! ## SCAN CLOSE (R94) -/

/-- The scan stream as SCAN CLOSE is taken. -/
def ScanStream.closingOf (x : ScanStream) : ScanStream :=
  { x with
    bufferA := x.bufferA.dropFilling, bufferB := x.bufferB.dropFilling, cut := none, state := .closing,
    trailing := if x.state = .starved then x.trailing else x.fillingBytes }

theorem ScanStream.closingOf_anyFull (x : ScanStream) : x.closingOf.anyFull = x.anyFull := by
  rw [ScanStream.closingOf, ScanStream.anyFull, ScanStream.anyFull]
  cases x.bufferA <;> cases x.bufferB <;> rfl

theorem RawBuffer.dropFilling_of_not_full {r : RawBuffer} (h : r.isFull = false) : r.dropFilling = .empty := by
  cases r with
  | full l => cases h
  | _ => rfl

/-- With no FULL buffer, the buffers of a stream that closes are EMPTY. -/
theorem ScanStream.closingOf_emptied {x : ScanStream} (h : x.anyFull = false) :
    x.closingOf.emptied = { x.closingOf with first := .a } := by
  rw [ScanStream.anyFull, Bool.or_eq_false_iff] at h
  obtain ⟨ha, hb⟩ := h
  rw [ScanStream.emptied, ScanStream.closingOf, RawBuffer.dropFilling_of_not_full ha, RawBuffer.dropFilling_of_not_full hb]

theorem State.scanFinish_lineLeft {s : State} (h : s.scan.anyFull = true ∨ (s.ctx .scan).job ≠ .none) : s.scanFinish = s := by
  refine if_neg fun ⟨_, hfull, hjob⟩ => ?_
  obtain h | h := h
  · rw [hfull] at h
    cases h
  · exact h hjob

section Finish

variable {s : State} (hstate : s.scan.state = .closing) (hfull : s.scan.anyFull = false) (hjob : (s.ctx .scan).job = .none)

include hstate hfull hjob

theorem State.scanFinish_last : s.scanFinish =
    if ((s.closePage .scan {}).slot .scan).writing = none ∧ ((s.closePage .scan {}).slot .scan).closing = none
    then (s.closePage .scan {}).scanClosed else s.closePage .scan {} := if_pos ⟨hstate, hfull, hjob⟩

theorem State.scanFinish_waits (hpage : (s.slot .scan).page = none)
    (hslot : ¬((s.slot .scan).writing = none ∧ (s.slot .scan).closing = none)) : s.scanFinish = s := by
  have hsame : s.closePage .scan {} = s := by rw [State.closePage, hpage]
  rw [State.scanFinish_last hstate hfull hjob, hsame, if_neg hslot]

theorem State.scanFinish_closed (hwriting : (s.slot .scan).writing = none) (hclosing : (s.slot .scan).closing = none) :
    s.scanFinish = s.scanClosed := by
  have hpage : (s.slot .scan).page = none := by
    rw [WriterSlot.page, hwriting]
    exact ite_self _
  have hsame : s.closePage .scan {} = s := by rw [State.closePage, hpage]
  rw [State.scanFinish_last hstate hfull hjob, hsame, if_pos ⟨hwriting, hclosing⟩]

theorem State.scanFinish_page {h : PageInHand} (hpage : (s.slot .scan).page = some h) : s.scanFinish = s.closePage .scan {} := by
  rw [State.scanFinish_last hstate hfull hjob]
  by_cases hclosing : (s.slot .scan).closing = none
  · obtain ⟨q, hq⟩ := State.closePage_plain hpage hclosing
    have hslot : (s.closePage .scan {}).slot .scan =
        { writing := none, asked := none, closing := some { h with queued := h.queued ++ [0xF3] } } := by
      rw [hq]
      exact Table.get_set_self _ _ _
    exact if_neg fun ⟨_, hnone⟩ => by
      rw [hslot] at hnone
      cases hnone
  · have hslot : ((s.closePage .scan {}).slot .scan).closing = (s.slot .scan).closing := by
      rw [State.closePage, hpage]
      dsimp only
      rw [if_neg hclosing]
      have hset := Table.get_set_self s.store.slots Writer.scan.index { s.slot .scan with asked := some {} }
      exact (congrArg WriterSlot.closing hset :)
    exact if_neg fun ⟨_, hnone⟩ => hclosing (hslot ▸ hnone)

end Finish

/-- A page whose close must wait for another is asked to be closed (log entry 14). -/
theorem State.closePage_asked {w : Writer} {h : PageInHand} {flags : CloseFlags} {s : State} (hpage : (s.slot w).page = some h)
    (hclosing : (s.slot w).closing ≠ none) : s.closePage w flags = s.setSlot w { s.slot w with asked := some flags } := by
  rw [State.closePage, hpage]
  exact if_neg hclosing

/-- What the scan stream's CLOSED leaves before its document stops building (R94). -/
theorem State.scanClosed_form (s : State) : ∃ q windows, ∃ u : State, s.scanClosed = u.endBuilding s.scan.document ∧
    u = ({ s with
      scan := { s.scan.emptied with state := .closed }, path := { s.path with windows := windows },
      coder := s.coder.restart .scan { s.ctx .scan with isOpen := false, reference := [], repeatRun := 0, job := .none },
      ctl := { s.ctl with notices := s.ctl.notices ||| Notice.stream.bit } } : State).withQueue q ∧
    (∀ w, w ≠ 0 → windows.get w = s.window w) ∧ ((s.window 0).pending = none → windows.get 0 = s.window 0) ∧
    ∀ e, (s.window 0).pending = some e →
      windows.get 0 = { s.window 0 with active := e.entry, pending := none, status := e.status } := by
  obtain ⟨q₁, hset, -⟩ := State.setScan_form { s.scan.emptied with state := .closed } s
  obtain ⟨v, hv⟩ : ∃ v, v = ((s.setScan { s.scan.emptied with state := .closed }).idleCtx .scan).raise .stream := ⟨_, rfl⟩
  obtain ⟨q₂, windows, hactivate, hother, -, hnone, hsome⟩ := State.activatePending_form 0 v
  have hform : ∃ q, v = ({ s with
      scan := { s.scan.emptied with state := .closed },
      coder := s.coder.restart .scan { s.ctx .scan with isOpen := false, reference := [], repeatRun := 0, job := .none },
      ctl := { s.ctl with notices := s.ctl.notices ||| Notice.stream.bit } } : State).withQueue q := by
    obtain ⟨q, hq, -⟩ := State.raise_form .stream ((s.setScan { s.scan.emptied with state := .closed }).idleCtx .scan)
    refine ⟨q, ?_⟩
    rw [hv, hq, State.idleCtx_eq, hset]
    rfl
  obtain ⟨q, hq⟩ := hform
  have hwindow (w : Fin 6) : v.window w = s.window w := by
    rw [hq]
    rfl
  simp only [hwindow] at hother hnone hsome
  refine ⟨q₂, windows, v.activatePending 0, by rw [State.scanClosed, hv], ?_, hother, hnone, hsome⟩
  rw [hactivate, hq]
  rfl

theorem State.beginClose_form (s : State) (dropped : Nat)
    (hdropped : dropped = if s.path.heldWrite 0 = true then saturate 65535 s.scan.dropped else s.scan.dropped) : ∃ q,
    s.beginClose = (({ s with
      path := s.path.voided 0, scan := { s.scan.closingOf with dropped := dropped } } : State).withQueue q).scanFinish := by
  obtain ⟨q₁, hheld⟩ := s.closeHeld_scan
  rw [← hdropped] at hheld
  obtain ⟨q, hset, -⟩ := State.setScan_form ({ s.scan with dropped := dropped } : ScanStream).closingOf (s.closeHeld 0)
  have hscan : (s.closeHeld 0).scan = { s.scan with dropped := dropped } := by rw [hheld]; rfl
  refine ⟨q, ?_⟩
  have hclose : s.beginClose = ((s.closeHeld 0).setScan (s.closeHeld 0).scan.closingOf).scanFinish := rfl
  rw [hclose, hscan, hset, hheld]
  rfl

section Close

variable {s : State} (hup : s.ctl.teardown = none) (hrun : s.ctl.engine = .running)

include hrun

theorem State.cmdScanClose_busy (h : s.scan.state = .closed ∨ s.scan.state = .closing) : State.cmdScanClose s = s.not .busy := by
  rw [State.cmdScanClose, State.inRunning_taken _ hrun]
  obtain h | h := h <;> rw [h]

theorem State.cmdScanClose_closes (h : s.scan.state = .open ∨ s.scan.state = .cutting ∨ s.scan.state = .starved) :
    State.cmdScanClose s = s.beginClose.okTrailing := by
  rw [State.cmdScanClose, State.inRunning_taken _ hrun]
  obtain h | h | h := h <;> rw [h]

include hup

/-- SCAN CLOSE taken: its result shows the trailing byte count. -/
theorem exec_scanClose_closes {trailing : Nat} (h : s.scan.state = .open ∨ s.scan.state = .cutting ∨ s.scan.state = .starved)
    (htrailing : s.beginClose.scan.trailing = trailing) :
    exec .scanClose s = .next ((s.beginClose.noteResult ⟨.ok, le 2 trailing⟩)).settleStep := by
  obtain ⟨u, hexec, rfl⟩ := State.ring_command_leaves (P := fun u => u = s.beginClose.noteResult ⟨.ok, le 2 trailing⟩) _ hup
    (exec_ringCommand (c := .scanClose) rfl s) (State.cmdScanClose_closes hrun h) (by rw [State.okTrailing, htrailing]; rfl)
  exact hexec

end Close

/-- Settles O50: the cut by its buffers, the close by what is left of lines and pages. -/
theorem pageCutAndScanClose : Obligations.PageCutAndScanClose := by
  refine ⟨fun s hup hrun => ⟨fun hbusy => ?busy, fun hidle => ?idle, fun h hopen hpage ha hb => ?now,
    fun l buf hopen hpage hbuf hsame hother => ?filling, fun l hopen hpage hfull hother => ?full⟩,
    fun s hup hrun => ⟨fun hbusy => ?closed, fun hstate => ?closes⟩⟩
  case busy => exact State.ring_command_answers hup (exec_ringCommand (c := .pageCut) rfl s) (State.cmdPageCut_busy hrun hbusy)
  case idle => exact State.ring_command_answers hup (exec_ringCommand (c := .pageCut) rfl s) (State.cmdPageCut_idle hrun hidle)
  case now =>
    obtain ⟨hwhite, hlast⟩ := ScanStream.whitened_empty ha hb
    obtain ⟨q₁, hset, -⟩ := State.setScan_form s.scan.whitened s
    obtain ⟨v, hv⟩ : ∃ v, v = s.setScan s.scan.whitened := ⟨_, rfl⟩
    have hvslot : v.slot .scan = s.slot .scan := by rw [hv, hset]; rfl
    have hvpage : (v.slot .scan).page = some h := by rw [hvslot, hpage]
    have hcut : s.beginCut = (v.closePage .scan {}).scanCutDone := by rw [State.beginCut_closes hlast, hv]
    obtain ⟨q₂, hdone⟩ := (v.closePage .scan {}).scanCutDone_form
    have hopened : ({ s.scan.whitened with state := .open, cut := none } : ScanStream) =
        { s.scan with trailing := 0, cut := none } := by
      rw [hwhite, ← hopen]
    constructor
    · intro hclosing
      obtain ⟨q₃, hclose⟩ := State.closePage_plain (s := v) hvpage (by rw [hvslot]; exact hclosing)
      have hbare : s.beginCut.bare = State.bare { s with
          scan := { s.scan.whitened with state := .open, cut := none },
          store := { s.store with
            pages := s.store.pages.set h.page { s.page h.page with
              closing := true, byteCount := (s.page h.page).byteCount + 1 },
            slots := s.store.slots.set Writer.scan.index
              { writing := none, asked := none, closing := some { h with queued := h.queued ++ [0xF3] } } } } := by
        rw [hcut, hdone, hclose, hv, hset]
        rfl
      rw [hopened] at hbare
      obtain ⟨hexec, hnoted⟩ := exec_pageCut_cuts (data := [0, 0]) hup hrun hopen (by rw [hpage]; exact nofun) hbare le_two_zero
      exact ⟨_, hexec, State.eq_of_bare hnoted rfl⟩
    · intro hclosing
      have hclose := State.closePage_asked (s := v) (flags := {}) hvpage (by rw [hvslot]; exact hclosing)
      have hbare : s.beginCut.bare = State.bare { s with
          scan := { s.scan.whitened with state := .open, cut := none },
          store := { s.store with slots := s.store.slots.set Writer.scan.index { s.slot .scan with asked := some {} } } } := by
        rw [hcut, hdone, hclose, hvslot, hv, hset]
        rfl
      rw [hopened] at hbare
      obtain ⟨hexec, hnoted⟩ := exec_pageCut_cuts (data := [0, 0]) hup hrun hopen (by rw [hpage]; exact nofun) hbare le_two_zero
      exact ⟨_, hexec, State.eq_of_bare hnoted rfl⟩
  case filling =>
    obtain ⟨hwhite, hlast⟩ := ScanStream.whitened_filling hbuf hsame hother
    have hbare : s.beginCut.bare = State.bare { s with scan := { s.scan.whitened with cut := some buf } } := by
      rw [State.beginCut_marks hlast, State.bare_setScan]
      rfl
    rw [hwhite] at hbare
    obtain ⟨hexec, hnoted⟩ := exec_pageCut_cuts hup hrun hopen hpage hbare rfl
    exact ⟨_, hexec, State.eq_of_bare hnoted rfl⟩
  case full =>
    obtain ⟨hwhite, hlast⟩ := ScanStream.whitened_full hfull hother
    have hbare := congrArg State.bare (State.beginCut_marks hlast)
    rw [State.bare_setScan, hwhite] at hbare
    obtain ⟨hexec, hnoted⟩ := exec_pageCut_cuts (data := [0, 0]) (t := { s with scan := { s.scan with
      state := .cutting, trailing := 0,
      cut := some (if (s.scan.buffer s.scan.first.other).isFull then s.scan.first.other else s.scan.first) } })
      hup hrun hopen hpage hbare le_two_zero
    exact ⟨_, hexec, State.eq_of_bare hnoted rfl⟩
  case closed => exact State.ring_command_answers hup (exec_ringCommand (c := .scanClose) rfl s) (State.cmdScanClose_busy hrun hbusy)
  case closes =>
    intro x kept closing path data lineLeft
    obtain ⟨dropped, hdropped⟩ : ∃ n, n = if s.path.heldWrite 0 = true then saturate 65535 s.scan.dropped else s.scan.dropped :=
      ⟨_, rfl⟩
    obtain ⟨q₁, hbegin⟩ := s.beginClose_form dropped hdropped
    have hkept (b : RawBuffer) : kept b = b.dropFilling := by cases b <;> rfl
    have hclosing : closing = { s.scan.closingOf with dropped := dropped } := by
      rw [hdropped, ScanStream.closingOf, ← hkept, ← hkept]
      rfl
    have hpath : path = s.path.voided 0 := rfl
    obtain ⟨v, hv⟩ : ∃ v, v = ({ s with path := path, scan := closing } : State).withQueue q₁ := ⟨_, rfl⟩
    rw [← hclosing, ← hpath, ← hv] at hbegin
    have hvscan : v.scan = closing := by rw [hv]; rfl
    have hvslot : v.slot .scan = s.slot .scan := by rw [hv]; rfl
    have hvctx : v.ctx .scan = s.ctx .scan := by rw [hv]; rfl
    have hvbare : v.bare = { s.bare with path := path, scan := closing } := by rw [hv]; rfl
    have hvstate : v.scan.state = .closing := by rw [hvscan, hclosing]; rfl
    have hvfull : v.scan.anyFull = x.anyFull := by
      rw [hvscan, hclosing]
      exact ScanStream.closingOf_anyFull s.scan
    have hnone (hleft : ¬lineLeft) : v.scan.anyFull = false ∧ (v.ctx .scan).job = .none := by
      rw [hvfull, hvctx]
      exact ⟨Bool.eq_false_iff.mpr fun h => hleft (.inl h), not_not.mp fun h => hleft (.inr h)⟩
    have hrow {t : State} (hfinish : v.scanFinish = t) (hscan : t.scan = closing) :
        exec .scanClose s = .next (t.noteResult ⟨.ok, data⟩).settleStep := by
      rw [exec_scanClose_closes hup hrun hstate (trailing := closing.trailing) (by rw [hbegin, hfinish, hscan]), hbegin, hfinish]
    refine ⟨fun hwait => ?_, fun h hleft hpage => ⟨fun hfree => ?_, fun hbusy => ?_⟩, fun hleft hwriting hclose => ?_⟩
    · have hfinish : v.scanFinish = v := by
        by_cases hleft : lineLeft
        · exact State.scanFinish_lineLeft (by rw [hvfull, hvctx]; exact hleft)
        · obtain ⟨hpage, hslot⟩ := hwait.resolve_left hleft
          exact State.scanFinish_waits hvstate (hnone hleft).1 (hnone hleft).2 (by rw [hvslot, hpage]) (by rw [hvslot]; exact hslot)
      refine ⟨_, hrow hfinish hvscan, State.eq_of_bare ?_ rfl⟩
      exact congrArg (State.noteResult ⟨.ok, data⟩) hvbare
    · obtain ⟨q, hq⟩ := State.closePage_plain (s := v) (by rw [hvslot, hpage]) (by rw [hvslot, hfree])
      have hfinish := State.scanFinish_page hvstate (hnone hleft).1 (hnone hleft).2 (by rw [hvslot, hpage])
      refine ⟨_, hrow (hfinish.trans hq) hvscan, State.eq_of_bare ?_ rfl⟩
      rw [hv]
      rfl
    · have hq := State.closePage_asked (s := v) (flags := {}) (by rw [hvslot, hpage]) (by rw [hvslot]; exact hbusy)
      have hfinish := State.scanFinish_page hvstate (hnone hleft).1 (hnone hleft).2 (by rw [hvslot, hpage])
      refine ⟨_, hrow (hfinish.trans hq) hvscan, State.eq_of_bare ?_ rfl⟩
      rw [hvslot, hv]
      rfl
    · have hfinish := State.scanFinish_closed hvstate (hnone hleft).1 (hnone hleft).2 (by rw [hvslot, hwriting])
        (by rw [hvslot, hclose])
      obtain ⟨q, windows, u, hclosed, hu, hother, hnopending, hpending⟩ := v.scanClosed_form
      have hemptied : v.scan.emptied = { closing with first := .a } := by
        have hxfull : x.anyFull = false := hvfull ▸ (hnone hleft).1
        have := ScanStream.closingOf_emptied hxfull
        rw [hvscan, hclosing]
        exact congrArg (fun y : ScanStream => { y with dropped := dropped }) this
      have hdocument : v.scan.document = x.document := by rw [hvscan, hclosing]; rfl
      have hvwindow (w : Fin 6) : v.window w = s.window w := by
        have hsame := PathUnit.voided_windows 0 s.path
        rw [hv]
        exact congrArg (fun t => t.get w) hsame
      rw [hemptied] at hu
      rw [hdocument] at hclosed
      simp only [hvwindow] at hother hnopending hpending
      have huwindow (w : Fin 6) : u.window w = windows.get w := by rw [hu]; rfl
      have huscan : u.scan = { closing with first := .a, state := .closed } := by rw [hu]; rfl
      have hside : (u.endBuilding x.document).scan = u.scan := congrArg Prod.fst (u.endBuilding_scanSide x.document)
      have huprint : u.print = s.print := by rw [hu, hv]; rfl
      refine ⟨u, ?_, ?_, State.endBuilding_building _ _, ?_, State.eq_of_bare ?_ rfl, ?_, ?_, ?_⟩
      · rw [exec_scanClose_closes hup hrun hstate (trailing := closing.trailing)
          (by rw [hbegin, hfinish, hclosed, hside, huscan]), hbegin, hfinish, hclosed]
      · rw [hside, huscan]
      · rw [State.print_of_apart (State.endBuilding_apart ..), huprint]
      · rw [hu, hv]
        rfl
      · exact fun w hw => (huwindow w).trans (hother w hw)
      · exact fun h => (huwindow 0).trans (hnopending h)
      · exact fun e he => (huwindow 0).trans (hpending e he)

end Sys2Proof.Machine

/-! PROOF. PRINT OPEN, PRINT NEXT and PRINT CLOSE (R161, R162, R166 to R168). -/

namespace Sys2Proof.Machine

/-! ## Reads that are discarded (R144, R167) -/

/-- The path unit with a requester's read discarded: its bytes reach no stream. -/
def PathUnit.dropRead (q : Requester) (p : PathUnit) : PathUnit :=
  { p with port := p.port.map fun r =>
      if r.requester = q ∧ r.kind = .storeRead true then { r with kind := .storeRead false } else r }

theorem State.dropRead_eq (q : Requester) (s : State) : s.dropRead q = { s with path := s.path.dropRead q } := by
  unfold State.dropRead PathUnit.dropRead
  cases hport : s.path.port with
  | none =>
    dsimp only [Option.map_none]
    rw [← hport]
  | some p =>
    dsimp only [Option.map_some]
    split
    · rfl
    · rw [← hport]

/-! ## Starting a page (R162) -/

/-- The print stream with its record of a page that is begun. -/
def PrintStream.begun (p : Fin 512) (r : PageRecord) (x : PrintStream) : PrintStream :=
  { x with waiting := false, page := p, width := r.width, lineCount := r.lineCount, byteCount := r.byteCount }

theorem State.printBegin_lines {p : Fin 512} {s : State} (h : (s.page p).lineCount ≠ 0) : ∃ q, s.printBegin p = ({ s with
    print := s.print.begun p (s.page p),
    coder := s.coder.restart .print (LineContext.opened (s.page p).width (s.page p).k) } : State).withQueue q := by
  obtain ⟨q, hq, -⟩ := State.setPrint_form (s.print.begun p (s.page p)) s
  refine ⟨q, ?_⟩
  have hbegin : s.printBegin p = (s.setPrint (s.print.begun p (s.page p))).openCtx .print (s.page p).width (s.page p).k :=
    if_neg h
  rw [hbegin, State.openCtx_eq, hq]
  rfl

/-- The print stream as a page is started: nothing read, framed, decoded or served. -/
def PrintStream.restarted (x : PrintStream) : PrintStream :=
  { x.emptied with state := .open, waiting := false, readPos := 0, linesFramed := 0, linesServed := 0 }

section StartPage

variable {s : State} {p : Fin 512}

theorem State.printStartPage_missing (h : (s.pageList s.print.document)[s.print.position - 1]? = none) :
    ∃ q, s.printStartPage = ({ s with print := { s.print.restarted with waiting := true } } : State).withQueue q := by
  obtain ⟨q, hq, -⟩ := State.setPrint_form { s.print.restarted with waiting := true } s
  refine ⟨q, ?_⟩
  rw [State.printStartPage, ← hq]
  dsimp only
  rw [show (s.pageList s.print.emptied.document)[s.print.emptied.position - 1]? = none from h]
  rfl

variable (h : (s.pageList s.print.document)[s.print.position - 1]? = some p)

include h

theorem State.printStartPage_listed : s.printStartPage =
    if (s.page p).state = .closed then ((s.dropRead .print).setPrint { s.print.restarted with page := p }).printBegin p
    else ((s.dropRead .print).setPrint { s.print.restarted with page := p }).setPrint
      { s.print.restarted with page := p, waiting := true } := by
  rw [State.printStartPage]
  dsimp only
  rw [show (s.pageList s.print.emptied.document)[s.print.emptied.position - 1]? = some p from h]
  rfl

theorem State.printStartPage_waits (hstate : (s.page p).state ≠ .closed) : ∃ q, s.printStartPage = ({ s with
    print := { s.print.restarted with page := p, waiting := true }, path := s.path.dropRead .print } : State).withQueue q := by
  refine ⟨s.printStartPage.ctl.queue, State.eq_of_bare ?_ rfl⟩
  rw [State.printStartPage_listed h, if_neg hstate, State.bare_setPrint, State.bare_setPrint, State.dropRead_eq]
  rfl

theorem State.printStartPage_begins (hstate : (s.page p).state = .closed) (hlines : (s.page p).lineCount ≠ 0) :
    ∃ q, s.printStartPage = ({ s with
      print := s.print.restarted.begun p (s.page p), path := s.path.dropRead .print,
      coder := s.coder.restart .print (LineContext.opened (s.page p).width (s.page p).k) } : State).withQueue q := by
  obtain ⟨q₁, hset, -⟩ := State.setPrint_form { s.print.restarted with page := p } { s with path := s.path.dropRead .print }
  obtain ⟨q, hq⟩ := State.printBegin_lines (p := p) (s := ({ s with
    path := s.path.dropRead .print, print := { s.print.restarted with page := p } } : State).withQueue q₁) hlines
  refine ⟨q, ?_⟩
  rw [State.printStartPage_listed h, if_pos hstate, State.dropRead_eq, hset]
  exact hq

theorem State.printStartPage_empty (hstate : (s.page p).state = .closed) (hlines : (s.page p).lineCount = 0) :
    ∃ q, s.printStartPage = { s with
      print := { s.print.restarted.begun p (s.page p) with state := .pageEnd }, path := s.path.dropRead .print,
      coder := s.coder.restart .print (LineContext.opened (s.page p).width (s.page p).k),
      ctl := { s.ctl with queue := q, notices := s.ctl.notices ||| Notice.stream.bit } } := by
  obtain ⟨q₁, hset, -⟩ := State.setPrint_form { s.print.restarted with page := p } { s with path := s.path.dropRead .print }
  obtain ⟨q, hq⟩ := State.printBegin_empty (p := p) (s := ({ s with
    path := s.path.dropRead .print, print := { s.print.restarted with page := p } } : State).withQueue q₁) hlines
  refine ⟨q, ?_⟩
  rw [State.printStartPage_listed h, if_pos hstate, State.dropRead_eq, hset, PrintStream.begun, hlines]
  exact hq

end StartPage

/-- The page at a position of a document has been started (R162): the obligation's clauses. -/
def State.Started (s t : State) (d : Fin 64) (position : Nat) : Prop :=
  t.print.readPos = 0 ∧ t.print.readAhead = [] ∧ t.print.linesFramed = 0 ∧ t.print.linesServed = 0 ∧
    t.print.bufferA = .empty ∧ t.print.bufferB = .empty ∧
    (∀ p, (s.pageList d)[position - 1]? = some p →
      t.print.page = p ∧
      ((s.page p).state = .closed →
        t.print.waiting = false ∧ t.print.width = (s.page p).width ∧ t.print.lineCount = (s.page p).lineCount ∧
          t.print.byteCount = (s.page p).byteCount ∧
          t.print.state = (if (s.page p).lineCount = 0 then .pageEnd else .open) ∧
          ((s.page p).lineCount = 0 → t.isPending .stream = true) ∧
          t.ctx .print = LineContext.opened (s.page p).width (s.page p).k) ∧
      ((s.page p).state ≠ .closed → t.print.state = .open ∧ t.print.waiting = true) ∧
      t.path = s.path.dropRead .print)

/-- What a change of the print stream's page leaves: the document, the place in it, the counts, and the other parts. -/
def State.SamePrintout (s t : State) : Prop :=
  t.print.document = s.print.document ∧ t.print.copy = s.print.copy ∧ t.print.position = s.print.position ∧
    t.print.dropped = s.print.dropped ∧ t.print.expiries = s.print.expiries ∧ t.print.codeErrors = s.print.codeErrors ∧
    t.dispatch = s.dispatch ∧ t.mem = s.mem ∧ t.store = s.store ∧ t.lines = s.lines ∧ t.charge = s.charge ∧ t.scan = s.scan ∧
    t.streams = s.streams

theorem State.printStartPage_started (s : State) : s.Started s.printStartPage s.print.document s.print.position ∧
    s.SamePrintout s.printStartPage := by
  have hctx (c : Coder) (x : LineContext) : (c.restart .print x).contexts.get StreamId.print.index = x := Table.get_set_self _ _ _
  cases h : (s.pageList s.print.document)[s.print.position - 1]? with
  | none =>
    obtain ⟨q, hq⟩ := State.printStartPage_missing h
    rw [hq]
    refine ⟨⟨rfl, rfl, rfl, rfl, rfl, rfl, fun p hp => ?_⟩, rfl, rfl, rfl, rfl, rfl, rfl, rfl, rfl, rfl, rfl, rfl, rfl, rfl⟩
    rw [h] at hp
    cases hp
  | some p =>
    by_cases hstate : (s.page p).state = .closed
    · by_cases hlines : (s.page p).lineCount = 0
      · obtain ⟨q, hq⟩ := State.printStartPage_empty h hstate hlines
        rw [hq]
        refine ⟨⟨rfl, rfl, rfl, rfl, rfl, rfl, fun p' hp => ?_⟩, rfl, rfl, rfl, rfl, rfl, rfl, rfl, rfl, rfl, rfl, rfl, rfl, rfl⟩
        rw [h] at hp
        cases hp
        exact ⟨rfl, fun _ => ⟨rfl, rfl, rfl, rfl, (if_pos hlines).symm, fun _ => Notice.pending_of_or rfl, hctx _ _⟩,
          fun hne => absurd hstate hne, rfl⟩
      · obtain ⟨q, hq⟩ := State.printStartPage_begins h hstate hlines
        rw [hq]
        refine ⟨⟨rfl, rfl, rfl, rfl, rfl, rfl, fun p' hp => ?_⟩, rfl, rfl, rfl, rfl, rfl, rfl, rfl, rfl, rfl, rfl, rfl, rfl, rfl⟩
        rw [h] at hp
        cases hp
        exact ⟨rfl, fun _ => ⟨rfl, rfl, rfl, rfl, (if_neg hlines).symm, fun h0 => absurd h0 hlines, hctx _ _⟩,
          fun hne => absurd hstate hne, rfl⟩
    · obtain ⟨q, hq⟩ := State.printStartPage_waits h hstate
      rw [hq]
      refine ⟨⟨rfl, rfl, rfl, rfl, rfl, rfl, fun p' hp => ?_⟩, rfl, rfl, rfl, rfl, rfl, rfl, rfl, rfl, rfl, rfl, rfl, rfl, rfl⟩
      rw [h] at hp
      cases hp
      exact ⟨rfl, fun hc => absurd hc hstate, fun _ => ⟨rfl, rfl⟩, rfl⟩

/-! ## The end of printing (R167) -/

theorem State.printEnd_form (s : State) : ∃ q, s.printEnd = ({ s with
    print := { s.print.emptied with state := .docEnd, waiting := false }, path := s.path.dropRead .print,
    coder := s.coder.restart .print { s.ctx .print with isOpen := false, reference := [], repeatRun := 0, job := .none } } :
      State).withQueue q := by
  refine ⟨s.printEnd.ctl.queue, State.eq_of_bare ?_ rfl⟩
  obtain ⟨u, hu⟩ : ∃ u, u = (s.idleCtx .print).dropRead .print := ⟨_, rfl⟩
  have hprint : (u.setPrint u.print.emptied).print = u.print.emptied := State.setPrint_print ..
  have hend : s.printEnd = (u.setPrint u.print.emptied).setPrint { u.print.emptied with state := .docEnd, waiting := false } := by
    rw [State.printEnd, State.printDiscard, ← hu]
    dsimp only
    rw [hprint]
  rw [hend, State.bare_setPrint, State.bare_setPrint, hu, State.dropRead_eq, State.idleCtx_eq]
  rfl

/-- What the document printed to its end leaves (R167). -/
theorem State.printed_leaves (s : State) :
    s.printed.print = { s.print.emptied with state := .docEnd, waiting := false } ∧ s.printed.isPending .stream = true ∧
    (s.printed.doc s.print.document).obligation = .done ∧
    s.printed.dispatch.printQueue = s.dispatch.printQueue.filter (fun e => decide (e ≠ s.print.document)) ∧
    s.printed.apart = { s.apart with print := s.printed.print } ∧ s.printed.streams = s.streams := by
  obtain ⟨q₁, hend⟩ := s.printEnd_form
  obtain ⟨u, hu⟩ : ∃ u, u = (((s.printEnd).setDoc s.print.document { s.doc s.print.document with obligation := .done }).leavePrintQueue
    s.print.document).raise .stream := ⟨_, rfl⟩
  have hchain : s.printed = u.checkComplete s.print.document := by rw [hu]; rfl
  have hform : ∃ q, u = { s with
      print := { s.print.emptied with state := .docEnd, waiting := false }, path := s.path.dropRead .print,
      coder := s.coder.restart .print { s.ctx .print with isOpen := false, reference := [], repeatRun := 0, job := .none },
      dispatch := { s.dispatch with
        docs := s.dispatch.docs.set s.print.document { s.doc s.print.document with obligation := .done },
        printQueue := s.dispatch.printQueue.filter (fun e => decide (e ≠ s.print.document)) },
      ctl := { s.ctl with queue := q, notices := s.ctl.notices ||| Notice.stream.bit } } := by
    refine ⟨u.ctl.queue, State.eq_of_bare ?_ rfl⟩
    have hset := State.bare_setDoc s.printEnd s.print.document { s.doc s.print.document with obligation := .done }
    rw [hend] at hset
    rw [hu, State.bare_raise, State.leavePrintQueue, State.setDoc_dispatch, State.setPrintQueue, State.setDoc_ctl_notices, hend]
    exact congrArg (fun v : State => ({ v with
      dispatch := { v.dispatch with printQueue := s.dispatch.printQueue.filter (fun e => decide (e ≠ s.print.document)) },
      ctl := { v.ctl with notices := s.ctl.notices ||| Notice.stream.bit } } : State)) hset
  obtain ⟨q, hq⟩ := hform
  obtain ⟨q', store, docs, notices, hcheck, -⟩ := State.checkComplete_form s.print.document u
  obtain ⟨b, hdoc⟩ := State.checkComplete_doc s.print.document s.print.document u
  have hudoc : u.doc s.print.document = { s.doc s.print.document with obligation := .done } := by
    rw [hq]
    exact Table.get_set_self _ _ _
  refine ⟨?_, ?_, ?_, ?_, ?_, ?_⟩
  · rw [hchain, hcheck, hq]
  · rw [hchain]
    refine (State.checkComplete_notices _ _).pending ?_
    rw [hq]
    exact Notice.pending_of_or rfl
  · rw [hchain, hdoc, hudoc]
  · rw [hchain, hcheck, hq]
  · rw [hchain, hcheck, hq]
    rfl
  · rw [hchain, hcheck, hq]

/-! ## The commands -/

section Commands

variable {s : State} (hrun : s.ctl.engine = .running)

include hrun

theorem State.cmdPrintOpen_busy (h : s.print.state ≠ .closed) : State.cmdPrintOpen s = s.not .busy := by
  rw [State.cmdPrintOpen, State.inRunning_taken _ hrun]
  exact if_pos h

theorem State.cmdPrintOpen_none (h : s.print.state = .closed) (hqueue : s.dispatch.printQueue = []) :
    State.cmdPrintOpen s = s.not .notFound := by
  rw [State.cmdPrintOpen, State.inRunning_taken _ hrun, hqueue]
  exact if_neg (not_not.mpr h)

theorem State.cmdPrintOpen_opens {d : Fin 64} {rest : List (Fin 64)} (h : s.print.state = .closed)
    (hqueue : s.dispatch.printQueue = d :: rest) : State.cmdPrintOpen s =
      (s.openPrint d).okay (le 1 d.val ++ le 1 (s.doc d).copies ++ le 1 (s.pageList d).length) := by
  rw [State.cmdPrintOpen, State.inRunning_taken _ hrun, hqueue]
  exact if_neg (not_not.mpr h)

theorem State.cmdPrintNext_busy (h : s.print.state ≠ .pageEnd) : State.cmdPrintNext s = s.not .busy := by
  rw [State.cmdPrintNext, State.inRunning_taken _ hrun]
  dsimp only
  cases hstate : s.print.state with
  | pageEnd => exact absurd hstate h
  | _ => rfl

theorem State.cmdPrintNext_pageEnd (h : s.print.state = .pageEnd) : State.cmdPrintNext s =
    if s.print.position < (s.pageList s.print.document).length then
      ((s.setPrint { s.print with position := s.print.position + 1 }).printStartPage).okPosition false
    else if s.print.copy < (s.doc s.print.document).copies then
      ((s.setPrint { s.print with copy := s.print.copy + 1, position := 1 }).printStartPage).okPosition false
    else s.printed.okPosition true := by
  rw [State.cmdPrintNext, State.inRunning_taken _ hrun]
  dsimp only
  rw [h]

theorem State.cmdPrintClose_eq : State.cmdPrintClose s = if s.print.state = .closed then s.not .busy else s.closePrint.okay [] := by
  rw [State.cmdPrintClose, State.inRunning_taken _ hrun]

end Commands

/-- A ring command that is carried out: the state it leaves, with its outcome noted. -/
theorem exec_done {c : Instr} {s w : State} {data : List Byte} (hc : c.isRingCommand = true) (hup : s.ctl.teardown = none)
    (hdone : State.ringCommand c s = w.okay data) : exec c s = .next (w.noteResult ⟨.ok, data⟩).settleStep := by
  rw [State.ring_command_runs hup (exec_ringCommand hc s), hdone]
  rfl

/-- A page started for PRINT NEXT: the result shows the copy and the position. -/
theorem exec_printNext_starts {x : PrintStream} {s : State} (hup : s.ctl.teardown = none)
    (hcmd : State.cmdPrintNext s = ((s.setPrint x).printStartPage).okPosition false) (hdocument : x.document = s.print.document)
    (hcounts : x.dropped = s.print.dropped ∧ x.expiries = s.print.expiries ∧ x.codeErrors = s.print.codeErrors) :
    ∃ t : State, exec .printNext s = .next t.settleStep ∧ t.print.copy = x.copy ∧ t.print.position = x.position ∧
      t.print.document = s.print.document ∧ t.print.linesServed = 0 ∧ s.Started t s.print.document t.print.position ∧
      t.print.dropped = s.print.dropped ∧ t.print.expiries = s.print.expiries ∧ t.print.codeErrors = s.print.codeErrors ∧
      t.ctl.lastResult = some ⟨.ok, [BitVec.ofNat 8 t.print.copy, BitVec.ofNat 8 t.print.position, 0]⟩ ∧
      t.dispatch = s.dispatch ∧ t.mem = s.mem ∧ t.store = s.store ∧ t.lines = s.lines ∧ t.charge = s.charge ∧
      t.scan = s.scan ∧ t.streams = s.streams := by
  obtain ⟨q, hset, -⟩ := State.setPrint_form x s
  obtain ⟨v, hv⟩ : ∃ v, v = ({ s with print := x } : State).withQueue q := ⟨_, rfl⟩
  rw [hset, ← hv] at hcmd
  obtain ⟨hstarted, hdoc, hcopy, hposition, hdropped, hexpiries, herrors, hsame⟩ := v.printStartPage_started
  obtain ⟨w, hw⟩ : ∃ w, w = v.printStartPage := ⟨_, rfl⟩
  rw [← hw] at hcmd hstarted hdoc hcopy hposition hdropped hexpiries herrors hsame
  rw [← hposition] at hstarted
  have hvprint : v.print = x := by rw [hv]; rfl
  rw [hvprint] at hstarted hdoc hcopy hposition hdropped hexpiries herrors
  rw [hdocument] at hstarted hdoc
  rw [hv] at hstarted hsame
  have hlines : w.print.linesServed = 0 := by
    obtain ⟨-, -, -, hzero, -⟩ := hstarted
    exact hzero
  have hdata : le 1 w.print.copy ++ le 1 w.print.position ++ le 1 (flag false) =
      [BitVec.ofNat 8 w.print.copy, BitVec.ofNat 8 w.print.position, 0] := rfl
  refine ⟨w.noteResult ⟨.ok, _⟩, exec_done (c := .printNext) rfl hup (hcmd.trans (by rw [State.okPosition, hdata])), hcopy, hposition,
    hdoc, hlines, hstarted, hdropped.trans hcounts.1, hexpiries.trans hcounts.2.1, herrors.trans hcounts.2.2, rfl, hsame⟩

/-- The place that PRINT OPEN gives the print stream on a document. -/
def PrintStream.openedOn (d : Fin 64) (x : PrintStream) : PrintStream :=
  { x with state := .open, document := d, copy := 1, position := 1, dropped := 0, expiries := 0, codeErrors := 0 }

theorem State.openPrint_form (d : Fin 64) (s : State) : ∃ q, s.openPrint d = (({ s with
    print := s.print.openedOn d,
    dispatch := { s.dispatch with docs := s.dispatch.docs.set d { s.doc d with obligation := .printing } } } :
      State).withQueue q).printStartPage := by
  obtain ⟨q₁, hset, -⟩ := State.setDoc_form d { s.doc d with obligation := .printing } s
  obtain ⟨q, hq, -⟩ := State.setPrint_form (s.print.openedOn d) (({ s with
    dispatch := { s.dispatch with docs := s.dispatch.docs.set d { s.doc d with obligation := .printing } } } : State).withQueue q₁)
  refine ⟨q, ?_⟩
  have hopen : s.openPrint d =
      ((s.setDoc d { s.doc d with obligation := .printing }).setPrint (s.print.openedOn d)).printStartPage := rfl
  rw [hopen, hset, hq]
  rfl

/-- Closing the held access of the print window leaves the print stream with another count, and the path unit. -/
theorem State.closeHeld_print (s : State) : ∃ q dropped, s.closeHeld 1 = ({ s with
    path := s.path.voided 1, print := { s.print with dropped := dropped } } : State).withQueue q := by
  cases hwrite : s.path.heldWrite 1 with
  | false => exact ⟨s.ctl.queue, s.print.dropped, State.closeHeld_of_not hwrite⟩
  | true =>
    obtain ⟨q, hq⟩ := s.countDropped_form 1
    refine ⟨q, saturate 65535 s.print.dropped, (State.closeHeld_of_write hwrite).trans ?_⟩
    rw [hq]
    rfl

/-- The documents after printing is abandoned (R168). -/
def State.abandonedDocs (s : State) : Table DocRecord 64 :=
  if s.print.state = .open ∨ s.print.state = .pageEnd
  then s.dispatch.docs.set s.print.document { s.doc s.print.document with obligation := .queued } else s.dispatch.docs

theorem State.printAbandoned_form (s : State) : ∃ q,
    s.printAbandoned = ({ s with dispatch := { s.dispatch with docs := s.abandonedDocs } } : State).withQueue q := by
  unfold State.printAbandoned State.abandonedDocs
  dsimp only
  split
  · obtain ⟨q, hq, -⟩ := State.setDoc_form s.print.document { s.doc s.print.document with obligation := .queued } s
    exact ⟨q, hq⟩
  · exact ⟨s.ctl.queue, rfl⟩

theorem State.closePrint_form (s : State) : ∃ q dropped windows, s.closePrint = ({ s with
      print := { s.print.emptied with dropped := dropped, state := .closed, waiting := false },
      path := { (s.path.voided 1).dropRead .print with windows := windows },
      coder := s.coder.restart .print { s.ctx .print with isOpen := false, reference := [], repeatRun := 0, job := .none },
      dispatch := { s.dispatch with docs := s.abandonedDocs } } : State).withQueue q ∧
    (windows.get 1).pending = none := by
  obtain ⟨q₁, dropped, hheld⟩ := s.closeHeld_print
  obtain ⟨v, hv⟩ : ∃ v, v = ({ s with
    path := s.path.voided 1, print := { s.print with dropped := dropped } } : State).withQueue q₁ := ⟨_, rfl⟩
  obtain ⟨q₂, habandoned⟩ := v.printAbandoned_form
  obtain ⟨w, hw⟩ : ∃ w, w = (v.printAbandoned.idleCtx .print).dropRead .print := ⟨_, rfl⟩
  obtain ⟨u, hu⟩ : ∃ u,
      u = (w.setPrint w.print.emptied).setPrint { w.print.emptied with state := .closed, waiting := false } := ⟨_, rfl⟩
  obtain ⟨q, windows, hactivate, -, hnone, -, -⟩ := State.activatePending_form 1 u
  have hprint : (w.setPrint w.print.emptied).print = w.print.emptied := State.setPrint_print ..
  have hclose : s.closePrint = u.activatePending 1 := by
    rw [State.closePrint, State.printDiscard, hheld, ← hv, ← hw]
    dsimp only
    rw [hprint, hu]
  have hdocs : v.abandonedDocs = s.abandonedDocs := by
    rw [hv]
    rfl
  have hubare : u.bare = State.bare { s with
      print := { s.print.emptied with dropped := dropped, state := .closed, waiting := false },
      path := (s.path.voided 1).dropRead .print,
      coder := s.coder.restart .print { s.ctx .print with isOpen := false, reference := [], repeatRun := 0, job := .none },
      dispatch := { s.dispatch with docs := s.abandonedDocs } } := by
    rw [hu, State.bare_setPrint, State.bare_setPrint, hw, State.dropRead_eq, State.idleCtx_eq, habandoned, hdocs, hv]
    rfl
  refine ⟨q, dropped, windows, ?_, hnone⟩
  rw [hclose, hactivate]
  exact congrArg (fun t : State => ({ t with path := { t.path with windows := windows } } : State).withQueue q) hubare

/-- Settles O51: a page's start by `State.printStartPage_started`, the ends by the forms above. -/
theorem printCommands : Obligations.PrintCommands := by
  refine ⟨fun s hup hrun => ⟨fun hbusy => ?busy, fun hclosed hqueue => ?none, fun d rest hclosed hqueue => ?opens⟩,
    fun s hup hrun => ?next, fun s hup hrun => ⟨fun hclosed => ?closed, fun hopen => ?closes⟩⟩
  case busy =>
    exact State.ring_command_answers hup (exec_ringCommand (c := .printOpen) rfl s) (State.cmdPrintOpen_busy hrun hbusy)
  case none =>
    exact State.ring_command_answers hup (exec_ringCommand (c := .printOpen) rfl s) (State.cmdPrintOpen_none hrun hclosed hqueue)
  case opens =>
    obtain ⟨q, hopen⟩ := s.openPrint_form d
    obtain ⟨v, hv⟩ : ∃ v, v = ({ s with
      print := s.print.openedOn d,
      dispatch := { s.dispatch with docs := s.dispatch.docs.set d { s.doc d with obligation := .printing } } } :
        State).withQueue q := ⟨_, rfl⟩
    obtain ⟨w, hw⟩ : ∃ w, w = v.printStartPage := ⟨_, rfl⟩
    obtain ⟨hstarted, hdoc, hcopy, hposition, hdropped, hexpiries, herrors, hdispatch, hmem, hstore, hlines, hcharge, hscan,
      hstreams⟩ := v.printStartPage_started
    rw [← hv, ← hw] at hopen
    rw [← hw] at hstarted hdoc hcopy hposition hdropped hexpiries herrors hdispatch hmem hstore hlines hcharge hscan hstreams
    rw [hv] at hstarted hdoc hcopy hposition hdropped hexpiries herrors hdispatch hmem hstore hlines hcharge hscan hstreams
    have hstart : s.Started w d 1 := hstarted
    obtain ⟨-, -, -, hserved, hbufferA, hbufferB, hpages⟩ := hstarted
    have hcmd : State.cmdPrintOpen s = w.okay [BitVec.ofNat 8 d.val, BitVec.ofNat 8 (s.doc d).copies,
        BitVec.ofNat 8 (s.pageList d).length] := by
      rw [State.cmdPrintOpen_opens hrun hclosed hqueue, hopen]
      rfl
    refine ⟨w.noteResult ⟨.ok, _⟩, exec_done (c := .printOpen) rfl hup hcmd, rfl,
      hdispatch, hdoc, hcopy, hposition, hdropped, hexpiries, herrors, hbufferA, hbufferB, hserved, hstart,
      fun p hp hstate hcount => ?_, fun p hp hstate => ?_, hmem, hstore, hlines, hcharge, hscan, hstreams⟩
    · obtain ⟨hpage, hbegun, -, -⟩ := hpages p hp
      obtain ⟨hwaiting, -, hcount', -, hopened, -, hctx⟩ := hbegun hstate
      exact ⟨hopened.trans (if_neg hcount), hwaiting, hpage, hcount', (congrArg LineContext.isOpen hctx).trans rfl⟩
    · obtain ⟨-, -, hwaits, -⟩ := hpages p hp
      exact hwaits hstate
  case next =>
    intro x
    have hrow := exec_ringCommand (c := .printNext) rfl s
    refine ⟨fun hbusy => State.ring_command_answers hup hrow (State.cmdPrintNext_busy hrun hbusy), fun hend hmore => ?_,
      fun hend hposition hcopy => ?_⟩
    · have hcmd := State.cmdPrintNext_pageEnd hrun hend
      by_cases hpos : x.position < (s.pageList x.document).length
      · obtain ⟨t, hexec, hcopy, hposition, hrest⟩ := exec_printNext_starts hup (hcmd.trans (if_pos hpos)) rfl ⟨rfl, rfl, rfl⟩
        exact ⟨t, hexec, hcopy.trans (if_pos hpos).symm, hposition.trans (if_pos hpos).symm, hrest⟩
      · obtain ⟨t, hexec, hcopy, hposition, hrest⟩ := exec_printNext_starts hup
          (hcmd.trans ((if_neg hpos).trans (if_pos (hmore.resolve_left hpos)))) rfl ⟨rfl, rfl, rfl⟩
        exact ⟨t, hexec, hcopy.trans (if_neg hpos).symm, hposition.trans (if_neg hpos).symm, hrest⟩
    · have hcmd : State.cmdPrintNext s = s.printed.okPosition true :=
        (State.cmdPrintNext_pageEnd hrun hend).trans ((if_neg (Nat.not_lt.mpr hposition)).trans (if_neg (Nat.not_lt.mpr hcopy)))
      obtain ⟨hprint, hpending, hdone, hqueue, hapart, hstreams⟩ := s.printed_leaves
      have hdata : le 1 s.printed.print.copy ++ le 1 s.printed.print.position ++ le 1 (flag true) =
          [BitVec.ofNat 8 x.copy, BitVec.ofNat 8 x.position, 1] := by
        rw [hprint]
        rfl
      refine ⟨s.printed.noteResult ⟨.ok, _⟩, exec_done (c := .printNext) rfl hup (hcmd.trans (by rw [State.okPosition, hdata])),
        ?_, hpending, hdone, hqueue, rfl, (congrArg Apart.mem hapart :), (congrArg Apart.lines hapart :),
        (congrArg Apart.charge hapart :), (congrArg Apart.scan hapart :), hstreams⟩
      exact congrArg PrintStream.state hprint
  case closed =>
    exact State.ring_command_answers hup (exec_ringCommand (c := .printClose) rfl s)
      ((State.cmdPrintClose_eq hrun).trans (if_pos hclosed))
  case closes =>
    obtain ⟨q, dropped, windows, hclose, hnone⟩ := s.closePrint_form
    refine ⟨s.closePrint.noteResult ⟨.ok, []⟩, exec_done (c := .printClose) rfl hup ((State.cmdPrintClose_eq hrun).trans (if_neg hopen)),
      ?_⟩
    rw [hclose]
    refine ⟨rfl, rfl, rfl, rfl, rfl, rfl, ?_, rfl, hnone, fun h hh => ?_, rfl, rfl, rfl, rfl, rfl, rfl, rfl⟩
    · exact congrArg LineContext.isOpen (Table.get_set_self s.coder.contexts StreamId.print.index _)
    · exact PathUnit.voided_held 1 s.path h hh

end Sys2Proof.Machine

/-! PROOF. SEND OPEN and PAGE RESULT (R142, R143, R148). -/

namespace Sys2Proof.Machine

/-! ## Seeking the next page (R143) -/

/-- A send stream that serves a page from its first byte. -/
def LineStream.atPage (p : Fin 512) (x : LineStream) : LineStream :=
  { x with
    state := .open, page := p, readPos := 0, readAhead := [], check := some checkStart, ready := [], served := 0,
    inExtension := false }

theorem State.startServing_form (n : Fin 4) (p : Fin 512) (s : State) : ∃ q coder, s.startServing n p = ({ s with
    path := s.path.dropRead (.line n), coder := coder,
    streams := s.streams.set n ((s.stream n).atPage p) } : State).withQueue q := by
  obtain ⟨q, hset, -⟩ := State.setStream_form n ((s.stream n).atPage p) { s with path := s.path.dropRead (.line n) }
  have hserve : s.startServing n p =
      if (s.stream n).takesRepeat then (s.dropRead (.line n)).setStream n ((s.stream n).atPage p)
      else ((s.dropRead (.line n)).setStream n ((s.stream n).atPage p)).openCtx (.line n) (s.page p).width (s.page p).k := rfl
  rw [hserve, State.dropRead_eq, hset]
  split
  · exact ⟨q, s.coder, rfl⟩
  · rw [State.openCtx_eq]
    exact ⟨q, s.coder.restart (.line n) (LineContext.opened (s.page p).width (s.page p).k), rfl⟩

/-- A change of a line's stream that raises STREAM. -/
theorem State.modStream_raise_form (n : Fin 4) (f : LineStream → LineStream) (s : State) : ∃ q,
    (s.modStream n f).raise .stream = ({ s with
      streams := s.streams.set n (f (s.stream n)),
      ctl := { s.ctl with notices := s.ctl.notices ||| Notice.stream.bit } } : State).withQueue q := by
  obtain ⟨q₁, hmod⟩ := State.modStream_form n f s
  obtain ⟨q, hraise, -⟩ := State.raise_form .stream (s.modStream n f)
  refine ⟨q, hraise.trans ?_⟩
  rw [hmod]
  rfl

theorem State.waitPage_form {n : Fin 4} {s : State} (h : (s.stream n).state ≠ .waitPage) : ∃ q, s.waitPage n = ({ s with
    streams := s.streams.set n { s.stream n with state := .waitPage },
    ctl := { s.ctl with notices := s.ctl.notices ||| Notice.stream.bit } } : State).withQueue q := by
  rw [State.waitPage, if_neg h]
  exact State.modStream_raise_form ..

/-- A send stream that looks for the page at a place of a document. -/
def LineStream.seeking (d : Fin 64) (confirmed : Nat) (x : LineStream) : LineStream :=
  { x with document := d, position := confirmed + 1 }

section Seek

variable {n : Fin 4} {x : Fin 512} {s : State} (hx : (s.lineUnit n).record.destination = some x)

include hx

theorem State.seekPage_listed {p : Fin 512} (h : (s.pageList (s.dest x).document)[(s.dest x).confirmed]? = some p) :
    s.seekPage n =
      if (s.page p).state = .closed
      then (s.modStream n (LineStream.seeking (s.dest x).document (s.dest x).confirmed)).startServing n p
      else (s.modStream n (LineStream.seeking (s.dest x).document (s.dest x).confirmed)).waitPage n := by
  rw [State.seekPage, hx]
  dsimp only
  rw [h]
  dsimp only
  cases (s.page p).state <;> rfl

theorem State.seekPage_missing (h : (s.pageList (s.dest x).document)[(s.dest x).confirmed]? = none) :
    s.seekPage n =
      if (s.doc (s.dest x).document).building
      then (s.modStream n (LineStream.seeking (s.dest x).document (s.dest x).confirmed)).waitPage n
      else (s.modStream n (LineStream.seeking (s.dest x).document (s.dest x).confirmed)).sendDocEnd n := by
  rw [State.seekPage, hx]
  dsimp only
  rw [h]
  rfl

/-- What seeking leaves, by the page it finds (R143). -/
theorem State.seekPage_form (hstate : (s.stream n).state ≠ .waitPage) : ∃ (q : List QueueEntry) (y : LineStream) (path : PathUnit)
    (coder : Coder) (notices : BitVec 12), s.seekPage n = { s with
      streams := s.streams.set n y, path := path, coder := coder, ctl := { s.ctl with queue := q, notices := notices } } ∧
    (y.direction = (s.stream n).direction ∧ y.takesRepeat = (s.stream n).takesRepeat ∧ y.minLine = (s.stream n).minLine ∧
      y.document = (s.dest x).document ∧ y.position = (s.dest x).confirmed + 1 ∧ y.dropped = (s.stream n).dropped ∧
      y.expiries = (s.stream n).expiries ∧ y.fillCount = (s.stream n).fillCount ∧ y.codeErrors = (s.stream n).codeErrors) ∧
    (∀ p, (s.pageList (s.dest x).document)[(s.dest x).confirmed]? = some p → (s.page p).state = .closed →
      y.state = .open ∧ y.page = p ∧ y.readPos = 0 ∧ y.readAhead = [] ∧ y.check = some 0xFFFF ∧ notices = s.ctl.notices) ∧
    (∀ p, (s.pageList (s.dest x).document)[(s.dest x).confirmed]? = some p → (s.page p).state ≠ .closed →
      y.state = .waitPage ∧ notices = s.ctl.notices ||| Notice.stream.bit) ∧
    ((s.pageList (s.dest x).document)[(s.dest x).confirmed]? = none →
      y.state = (if (s.doc (s.dest x).document).building = true then .waitPage else .docEnd) ∧
        notices = s.ctl.notices ||| Notice.stream.bit) := by
  obtain ⟨z, hz⟩ : ∃ z, z = (s.stream n).seeking (s.dest x).document (s.dest x).confirmed := ⟨_, rfl⟩
  obtain ⟨q₁, hseek⟩ := State.modStream_form n (LineStream.seeking (s.dest x).document (s.dest x).confirmed) s
  obtain ⟨v, hv⟩ : ∃ v, v = s.modStream n (LineStream.seeking (s.dest x).document (s.dest x).confirmed) := ⟨_, rfl⟩
  rw [← hz, ← hv] at hseek
  have hvstream : v.stream n = z := by
    rw [hseek]
    exact Table.get_set_self _ _ _
  have hzstate : z.state = (s.stream n).state := by rw [hz]; rfl
  have hvset (y : LineStream) : v.streams.set n y = s.streams.set n y := by
    rw [hseek]
    exact Table.set_set ..
  have hwaits : ∃ q, v.waitPage n = ({ s with
      streams := s.streams.set n { z with state := .waitPage },
      ctl := { s.ctl with notices := s.ctl.notices ||| Notice.stream.bit } } : State).withQueue q := by
    obtain ⟨q, hq⟩ := State.waitPage_form (n := n) (s := v) (by rw [hvstream, hzstate]; exact hstate)
    rw [hvset, hvstream] at hq
    exact ⟨q, hq.trans (by rw [hseek]; rfl)⟩
  have hends : ∃ q, v.sendDocEnd n = ({ s with
      streams := s.streams.set n { z with state := .docEnd },
      ctl := { s.ctl with notices := s.ctl.notices ||| Notice.stream.bit } } : State).withQueue q := by
    obtain ⟨q, hq⟩ := State.modStream_raise_form n (fun x => { x with state := .docEnd }) v
    rw [hvset, hvstream] at hq
    exact ⟨q, hq.trans (by rw [hseek]; rfl)⟩
  have hserves (p : Fin 512) : ∃ q path coder, v.startServing n p = ({ s with
      streams := s.streams.set n (z.atPage p), path := path, coder := coder } : State).withQueue q := by
    obtain ⟨q, coder, hq⟩ := State.startServing_form n p v
    rw [hvset, hvstream] at hq
    exact ⟨q, _, coder, hq.trans (by rw [hseek]; rfl)⟩
  cases h : (s.pageList (s.dest x).document)[(s.dest x).confirmed]? with
  | some p =>
    have hfound := State.seekPage_listed hx h
    rw [← hv] at hfound
    by_cases hclosed : (s.page p).state = .closed
    · obtain ⟨q, path, coder, hq⟩ := hserves p
      refine ⟨q, _, path, coder, s.ctl.notices, (hfound.trans (if_pos hclosed)).trans hq, ?_, ?_, ?_, nofun⟩
      · rw [hz]
        exact ⟨rfl, rfl, rfl, rfl, rfl, rfl, rfl, rfl, rfl⟩
      · rintro p' ⟨⟩ -
        exact ⟨rfl, rfl, rfl, rfl, rfl, rfl⟩
      · rintro p' ⟨⟩ hne
        exact absurd hclosed hne
    · obtain ⟨q, hq⟩ := hwaits
      refine ⟨q, _, s.path, s.coder, s.ctl.notices ||| Notice.stream.bit, (hfound.trans (if_neg hclosed)).trans hq, ?_, ?_, ?_, nofun⟩
      · rw [hz]
        exact ⟨rfl, rfl, rfl, rfl, rfl, rfl, rfl, rfl, rfl⟩
      · rintro p' ⟨⟩ hc
        exact absurd hc hclosed
      · exact fun p' _ _ => ⟨rfl, rfl⟩
  | none =>
    have hmissing := State.seekPage_missing hx h
    rw [← hv] at hmissing
    by_cases hbuilding : (s.doc (s.dest x).document).building = true
    · obtain ⟨q, hq⟩ := hwaits
      refine ⟨q, _, s.path, s.coder, s.ctl.notices ||| Notice.stream.bit, (hmissing.trans (if_pos hbuilding)).trans hq, ?_, nofun, nofun,
        fun _ => ⟨(if_pos hbuilding).symm, rfl⟩⟩
      rw [hz]
      exact ⟨rfl, rfl, rfl, rfl, rfl, rfl, rfl, rfl, rfl⟩
    · obtain ⟨q, hq⟩ := hends
      refine ⟨q, _, s.path, s.coder, s.ctl.notices ||| Notice.stream.bit, (hmissing.trans (if_neg hbuilding)).trans hq, ?_, nofun, nofun,
        fun _ => ⟨(if_neg hbuilding).symm, rfl⟩⟩
      rw [hz]
      exact ⟨rfl, rfl, rfl, rfl, rfl, rfl, rfl, rfl, rfl⟩

end Seek

/-! ## SEND OPEN (R142) -/

theorem State.connected_iff (n : Fin 4) (direction : CallDirection) (s : State) : s.connected n direction = true ↔
    (s.lineUnit n).record.state = .connected ∧ (s.lineUnit n).record.callDirection = direction := by
  rw [State.connected, Bool.and_eq_true, decide_eq_true_eq, decide_eq_true_eq]

section SendOpen

variable {line repeats least : BitVec 8} {s : State} (hrun : s.ctl.engine = .running)

include hrun

theorem State.cmdSendOpen_bad (h : 4 ≤ line.toNat ∨ 1 < repeats.toNat ∨ 40 < least.toNat) :
    State.cmdSendOpen line repeats least s = s.not .badArg := by
  rw [State.cmdSendOpen, State.inRunning_taken _ hrun]
  split
  · next n f m hn hf hm =>
    have hline := (indexBelow_eq_some_iff n).mp hn
    have hleast := between_eq_some_iff.mp hm
    obtain ⟨rfl, -⟩ | ⟨rfl, -⟩ := flagField_cases hf
    · have : (0 : BitVec 8).toNat = 0 := rfl
      omega
    · have : (1 : BitVec 8).toNat = 1 := rfl
      omega
  · rfl

variable {n : Fin 4} (hline : line.toNat = n.val) (hrepeats : repeats.toNat ≤ 1) (hleast : least.toNat ≤ 40)

include hline hrepeats hleast

theorem State.cmdSendOpen_busy
    (h : (s.lineUnit n).record.state ≠ .connected ∨ (s.lineUnit n).record.callDirection ≠ .out ∨ (s.stream n).state ≠ .closed ∨
      (s.lineUnit n).record.destination = none) : State.cmdSendOpen line repeats least s = s.not .busy := by
  rw [State.cmdSendOpen, State.inRunning_taken _ hrun, indexBelow_of_eq n hline, flagField_eq_some (eq_of_toNat_le_one hrepeats),
    between_eq_some_iff.mpr ⟨rfl, Nat.zero_le _, hleast⟩]
  dsimp only
  split
  · rfl
  · next hall =>
    push_neg at hall
    obtain ⟨hconnected, hclosed⟩ := hall
    obtain ⟨hstate, hdirection⟩ := (State.connected_iff n .out s).mp (Bool.not_eq_false _ ▸ hconnected)
    rw [(h.resolve_left (not_not.mpr hstate)).resolve_left (not_not.mpr hdirection) |>.resolve_left (not_not.mpr hclosed)]

theorem State.cmdSendOpen_eq {x : Fin 512} (hstate : (s.lineUnit n).record.state = .connected)
    (hdirection : (s.lineUnit n).record.callDirection = .out) (hclosed : (s.stream n).state = .closed)
    (hx : (s.lineUnit n).record.destination = some x) : State.cmdSendOpen line repeats least s =
      if (s.dest x).cancelRequested then s.not .busy
      else (s.openSend n x (decide (repeats = 1)) least.toNat).okay (le 1 ((s.dest x).confirmed + 1)) := by
  rw [State.cmdSendOpen, State.inRunning_taken _ hrun, indexBelow_of_eq n hline, flagField_eq_some (eq_of_toNat_le_one hrepeats),
    between_eq_some_iff.mpr ⟨rfl, Nat.zero_le _, hleast⟩]
  dsimp only
  have hopen : ¬(s.connected n .out = false ∨ (s.stream n).state ≠ .closed) := by
    rw [(State.connected_iff n .out s).mpr ⟨hstate, hdirection⟩]
    exact fun h => h.elim nofun fun h => h hclosed
  rw [if_neg hopen, hx]

end SendOpen

/-- A send stream as SEND OPEN opens it, its counts 0. -/
def LineStream.openedSend (takesRepeat : Bool) (least : Nat) (x : LineStream) : LineStream :=
  { x with
    direction := .send, takesRepeat := takesRepeat, minLine := least, dropped := 0, expiries := 0, fillCount := 0, codeErrors := 0 }

theorem State.openSend_form (n : Fin 4) (x : Fin 512) (takesRepeat : Bool) (least : Nat) (s : State) : ∃ q,
    s.openSend n x takesRepeat least = (({ s with
      streams := s.streams.set n ((s.stream n).openedSend takesRepeat least),
      dispatch := { s.dispatch with dests := s.dispatch.dests.set x { s.dest x with state := .sending } } } :
        State).withQueue q).seekPage n := by
  obtain ⟨q₁, hmod⟩ := State.modStream_form n (LineStream.openedSend takesRepeat least) s
  obtain ⟨q, hset, -⟩ := State.setDest_form x { s.dest x with state := .sending } (({ s with
    streams := s.streams.set n ((s.stream n).openedSend takesRepeat least) } : State).withQueue q₁)
  refine ⟨q, ?_⟩
  have hopen : s.openSend n x takesRepeat least =
      ((s.modStream n (LineStream.openedSend takesRepeat least)).setDest x { s.dest x with state := .sending }).seekPage n := rfl
  rw [hopen, hmod, hset]
  rfl

/-- Settles O52: SEND OPEN by its checks, its seek by `State.seekPage_form`. -/
theorem sendOpen : Obligations.SendOpen := by
  intro line repeats least s hup hrun
  have hrow := exec_ringCommand (c := .sendOpen line repeats least) rfl s
  refine ⟨fun hbad => State.ring_command_answers hup hrow (State.cmdSendOpen_bad hrun hbad), fun n hline hrepeats hleast => ?_⟩
  intro record
  refine ⟨fun hbusy => State.ring_command_answers hup hrow (State.cmdSendOpen_busy hrun hline hrepeats hleast hbusy),
    fun x hstate hdirection hclosed hx => ?_⟩
  have hcmd := State.cmdSendOpen_eq hrun hline hrepeats hleast hstate hdirection hclosed hx
  refine ⟨fun hcancel => State.ring_command_answers hup hrow (hcmd.trans (if_pos hcancel)), fun hcancel => ?_⟩
  intro d next
  rw [if_neg (by rw [hcancel]; decide)] at hcmd
  obtain ⟨q, hopen⟩ := s.openSend_form n x (decide (repeats = 1)) least.toNat
  obtain ⟨y, hy⟩ : ∃ y, y = (s.stream n).openedSend (decide (repeats = 1)) least.toNat := ⟨_, rfl⟩
  obtain ⟨v, hv⟩ : ∃ v, v = ({ s with
    streams := s.streams.set n y,
    dispatch := { s.dispatch with dests := s.dispatch.dests.set x { s.dest x with state := .sending } } } :
      State).withQueue q := ⟨_, rfl⟩
  have hvdest : v.dest x = { s.dest x with state := .sending } := by
    rw [hv]
    exact Table.get_set_self _ _ _
  have hvstream : v.stream n = y := by
    rw [hv]
    exact Table.get_set_self _ _ _
  have hystate : y.state = .closed := by
    rw [hy]
    exact hclosed
  have hvlist (e : Fin 64) : v.pageList e = s.pageList e := by rw [hv]; rfl
  have hvpage (p : Fin 512) : v.page p = s.page p := by rw [hv]; rfl
  have hvdoc (e : Fin 64) : v.doc e = s.doc e := by rw [hv]; rfl
  have hvnotices : v.ctl.notices = s.ctl.notices := by rw [hv]; rfl
  rw [← hy, ← hv] at hopen
  obtain ⟨q', z, path, coder, notices, hseek, ⟨hzdirection, hzrepeat, hzleast, hzdoc, hzposition, hzdropped, hzexpiries, hzfill,
    hzerrors⟩, hserves, hwaits, hends⟩ := State.seekPage_form (n := n) (x := x) (s := v) (by rw [hv]; exact hx)
      (by rw [hvstream, hystate]; decide)
  rw [hvstream, hy] at hzdirection hzrepeat hzleast hzdropped hzexpiries hzfill hzerrors
  rw [hvdest] at hzdoc hzposition hserves hwaits hends
  simp only [hvlist, hvpage, hvdoc, hvnotices] at hserves hwaits hends
  obtain ⟨t, ht⟩ : ∃ t, t = (v.seekPage n).noteResult ⟨.ok, le 1 ((s.dest x).confirmed + 1)⟩ := ⟨_, rfl⟩
  have htstream : t.stream n = z := by
    rw [ht, hseek]
    exact Table.get_set_self _ _ _
  have htnotices : t.ctl.notices = notices := by rw [ht, hseek]; rfl
  have hform : t.dispatch = { s.dispatch with dests := s.dispatch.dests.set x { s.dest x with state := .sending } } ∧
      (∀ m, m ≠ n → t.stream m = s.stream m) ∧ t.mem = s.mem ∧ t.store = s.store ∧ t.lines = s.lines ∧ t.charge = s.charge ∧
      t.scan = s.scan ∧ t.print = s.print := by
    rw [ht, hseek, hv]
    refine ⟨rfl, fun m hm => ?_, rfl, rfl, rfl, rfl, rfl, rfl⟩
    exact (Table.get_set_of_ne _ _ hm.symm).trans (Table.get_set_of_ne _ _ hm.symm)
  obtain ⟨hdispatch, hothers, hrest⟩ := hform
  have hpending (h : notices = s.ctl.notices ||| Notice.stream.bit) : t.isPending .stream = true :=
    Notice.pending_of_or (htnotices.trans h)
  refine ⟨t, ht ▸ exec_done (c := .sendOpen line repeats least) rfl hup (hcmd.trans (by rw [hopen])), by rw [ht]; rfl, hdispatch, ?_⟩
  rw [htstream]
  refine ⟨hzdirection, hzrepeat, hzleast, hzdoc, hzposition, hzdropped, hzexpiries, hzfill, hzerrors, hothers, fun p hp hc => ?_,
    fun p hp hc => ?_, fun hnone => ?_, hrest⟩
  · obtain ⟨h1, h2, h3, h4, h5, hn⟩ := hserves p hp hc
    exact ⟨h1, h2, h3, h4, h5, htnotices.trans hn⟩
  · obtain ⟨h1, hn⟩ := hwaits p hp hc
    exact ⟨h1, hpending hn⟩
  · obtain ⟨h1, hn⟩ := hends hnone
    exact ⟨h1, hpending hn⟩

end Sys2Proof.Machine

/-! PROOF. PAGE RESULT (R148). -/

namespace Sys2Proof.Machine

/-! ## The verdicts on a served page -/

theorem verdictField_eq_some {x : BitVec 8} (h : x.toNat ≤ 2) :
    verdictField x = some (if x = 0 then .ok else if x = 1 then .retry else .bad) := by
  have hx : x = 0 ∨ x = 1 ∨ x = 2 := by
    have : x.toNat = 0 ∨ x.toNat = 1 ∨ x.toNat = 2 := by omega
    exact this.imp BitVec.eq_of_toNat_eq (Or.imp BitVec.eq_of_toNat_eq BitVec.eq_of_toNat_eq)
  obtain rfl | rfl | rfl := hx <;> rfl

theorem verdictField_eq_none {x : BitVec 8} (h : 3 ≤ x.toNat) : verdictField x = none := by
  have hne (k : Nat) (hk : k ≤ 2) : x ≠ BitVec.ofNat 8 k := by
    rintro rfl
    rw [BitVec.toNat_ofNat, Nat.mod_eq_of_lt (by omega)] at h
    omega
  exact (if_neg (hne 0 (by omega))).trans ((if_neg (hne 1 (by omega))).trans (if_neg (hne 2 (by omega))))

/-- A page confirmed: its destination's count, and the call's. -/
def DestRecord.confirm (r : DestRecord) : DestRecord := { r with confirmed := r.confirmed + 1, pageRetries := 0 }

def CallContext.confirm (c : CallContext) : CallContext := { c with pagesConfirmed := c.pagesConfirmed + 1 }

theorem State.modContext_form (n : Fin 4) (f : CallContext → CallContext) (s : State) : ∃ q, s.modContext n f =
    ({ s with charge := { s.charge with contexts := s.charge.contexts.set n ((s.context n).map f) } } : State).withQueue q := by
  unfold State.modContext
  cases hc : s.context n with
  | none =>
    refine ⟨s.ctl.queue, ?_⟩
    have hsame : s.charge.contexts.set n (none : Option CallContext) = s.charge.contexts := by
      rw [← hc]
      exact Table.set_get ..
    rw [Option.map_none, hsame]
    rfl
  | some c =>
    obtain ⟨q, hq, -⟩ := State.setContext_form n (some (f c)) s
    exact ⟨q, hq⟩

theorem State.confirmPage_form (n : Fin 4) (y : Fin 512) (s : State) : ∃ q, s.confirmPage n y = ({ s with
    dispatch := { s.dispatch with dests := s.dispatch.dests.set y (s.dest y).confirm },
    charge := { s.charge with contexts := s.charge.contexts.set n ((s.context n).map CallContext.confirm) } } :
      State).withQueue q := by
  obtain ⟨q₁, hset, -⟩ := State.setDest_form y (s.dest y).confirm s
  obtain ⟨q, hq⟩ := State.modContext_form n CallContext.confirm (s.setDest y (s.dest y).confirm)
  refine ⟨q, ?_⟩
  have hconfirm : s.confirmPage n y = (s.setDest y (s.dest y).confirm).modContext n CallContext.confirm := rfl
  rw [hconfirm, hq, hset]
  rfl

theorem State.discardJob_coder (i : StreamId) (s : State) : ∃ coder, s.discardJob i = { s with coder := coder } := by
  unfold State.discardJob
  dsimp only
  split
  · split <;> exact ⟨_, rfl⟩
  · exact ⟨_, rfl⟩

theorem State.stallSend_form (n : Fin 4) (cause : StallCause) (s : State) : ∃ q coder, s.stallSend n cause = ({ s with
    coder := coder,
    streams := s.streams.set n { s.stream n with state := .stalled, stall := cause, readAhead := [], ready := [], check := none },
    ctl := { s.ctl with notices := s.ctl.notices ||| Notice.stream.bit } } : State).withQueue q := by
  obtain ⟨coder, hdiscard⟩ := s.discardJob_coder (.line n)
  obtain ⟨q, hq⟩ := State.modStream_raise_form n
    (fun x => { x with state := .stalled, stall := cause, readAhead := [], ready := [], check := none }) (s.discardJob (.line n))
  refine ⟨q, coder, ?_⟩
  rw [State.stallSend, hq, hdiscard]
  rfl

theorem State.retryPage_eq {n : Fin 4} {y : Fin 512} {s : State} (h : (s.dest y).pageRetries ≠ 255) : s.retryPage n y =
    if ((s.dest y).pageRetries + 1).toNat ≤ 3
    then (s.setDest y { s.dest y with pageRetries := (s.dest y).pageRetries + 1 }).startServing n (s.stream n).page
    else (s.setDest y { s.dest y with pageRetries := (s.dest y).pageRetries + 1 }).stallSend n .failed := by
  have hbump : s.bumpRetries (s.dest y).pageRetries = ((s.dest y).pageRetries + 1, s) := if_neg h
  rw [State.retryPage, hbump]

theorem State.drainDone_form (n : Fin 4) (s : State) : ∃ q, s.drainDone n = ({ s with
    streams := s.streams.set n { s.stream n with drain := .done },
    ctl := { s.ctl with notices := s.ctl.notices ||| Notice.stream.bit } } : State).withQueue q :=
  State.modStream_raise_form n (fun x => { x with drain := .done }) s

/-! ### The verdict by the stream's state -/

section Verdict

variable {n : Fin 4} {y : Fin 512} {s : State}

theorem State.takeVerdict_ok (h : (s.stream n).state = .pageEnd) : s.takeVerdict n y .ok = some ((s.confirmPage n y).seekPage n) := by
  unfold State.takeVerdict
  rw [h]

theorem State.takeVerdict_retry (h : (s.stream n).state = .pageEnd) : s.takeVerdict n y .retry = some (s.retryPage n y) := by
  unfold State.takeVerdict
  rw [h]

theorem State.takeVerdict_bad (h : (s.stream n).state = .pageEnd) : s.takeVerdict n y .bad = some (s.stallSend n .bad) := by
  unfold State.takeVerdict
  rw [h]

theorem State.takeVerdict_draining {v : Verdict} (h : (s.stream n).state = .draining) (hdrain : (s.stream n).drain = .ended) :
    s.takeVerdict n y v = some ((if v = .ok then s.confirmPage n y else s).drainDone n) := by
  unfold State.takeVerdict
  rw [h]
  exact if_pos hdrain

theorem State.takeVerdict_none {v : Verdict}
    (h : ¬((s.stream n).state = .pageEnd ∨ ((s.stream n).state = .draining ∧ (s.stream n).drain = .ended))) :
    s.takeVerdict n y v = none := by
  unfold State.takeVerdict
  cases hstate : (s.stream n).state with
  | pageEnd => exact absurd (.inl hstate) h
  | draining => exact if_neg fun hdrain => h (.inr ⟨hstate, hdrain⟩)
  | _ => cases v <;> rfl

end Verdict

section Command

variable {line verdict : BitVec 8} {s : State} (hrun : s.ctl.engine = .running)

include hrun

theorem State.cmdPageResult_bad (h : 4 ≤ line.toNat ∨ 3 ≤ verdict.toNat) : State.cmdPageResult line verdict s = s.not .badArg := by
  rw [State.cmdPageResult, State.inRunning_taken _ hrun]
  split
  · next n v hn hv =>
    have hline := (indexBelow_eq_some_iff n).mp hn
    rw [verdictField_eq_none (h.resolve_left (by omega))] at hv
    cases hv
  · rfl

variable {n : Fin 4} (hline : line.toNat = n.val) (hverdict : verdict.toNat ≤ 2)

include hline hverdict

theorem State.cmdPageResult_busy (h : (s.lineUnit n).record.destination = none ∨
    ¬((s.stream n).direction = .send ∧
      ((s.stream n).state = .pageEnd ∨ ((s.stream n).state = .draining ∧ (s.stream n).drain = .ended)))) :
    State.cmdPageResult line verdict s = s.not .busy := by
  rw [State.cmdPageResult, State.inRunning_taken _ hrun, indexBelow_of_eq n hline, verdictField_eq_some hverdict]
  dsimp only
  cases hdest : (s.lineUnit n).record.destination with
  | none => rfl
  | some y =>
    have htakes := h.resolve_left (by rw [hdest]; exact nofun)
    dsimp only
    by_cases hsend : (s.stream n).direction = .send
    · rw [if_neg (not_not.mpr hsend), State.takeVerdict_none fun hstate => htakes ⟨hsend, hstate⟩]
    · rw [if_pos hsend]

theorem State.cmdPageResult_takes {y : Fin 512} {t : State} (hy : (s.lineUnit n).record.destination = some y)
    (hsend : (s.stream n).direction = .send)
    (ht : s.takeVerdict n y (if verdict = 0 then .ok else if verdict = 1 then .retry else .bad) = some t) :
    State.cmdPageResult line verdict s = t.okay (le 1 (t.dest y).confirmed) := by
  rw [State.cmdPageResult, State.inRunning_taken _ hrun, indexBelow_of_eq n hline, verdictField_eq_some hverdict]
  dsimp only
  rw [hy]
  dsimp only
  rw [if_neg (not_not.mpr hsend), ht]

end Command

/-- Settles O53: the verdicts by the stream's state, the sought page by `State.seekPage_form`. -/
theorem pageResult : Obligations.PageResult := by
  intro line verdict s hup hrun
  have hrow := exec_ringCommand (c := .pageResult line verdict) rfl s
  refine ⟨fun hbad => State.ring_command_answers hup hrow (State.cmdPageResult_bad hrun hbad), fun n hline hverdict => ?_⟩
  intro x takes
  refine ⟨fun hbusy => State.ring_command_answers hup hrow (State.cmdPageResult_busy hrun hline hverdict hbusy), fun y hy htakes => ?_⟩
  obtain ⟨hsend, hphase⟩ := htakes
  have hdone {t : State} (ht : s.takeVerdict n y (if verdict = 0 then .ok else if verdict = 1 then .retry else .bad) = some t) :
      exec (.pageResult line verdict) s = .next (t.noteResult ⟨.ok, le 1 (t.dest y).confirmed⟩).settleStep :=
    exec_done (c := .pageResult line verdict) rfl hup (State.cmdPageResult_takes hrun hline hverdict hy hsend ht)
  refine ⟨fun hstate hv => ?ok, fun hstate hv hretries => ?retry, fun hstate hv => ?bad, fun hstate => ?draining⟩
  case ok =>
    rw [if_pos hv] at hdone
    obtain ⟨q, hconfirm⟩ := s.confirmPage_form n y
    obtain ⟨v, hvdef⟩ : ∃ v, v = s.confirmPage n y := ⟨_, rfl⟩
    rw [← hvdef] at hconfirm
    have hvdest : v.dest y = (s.dest y).confirm := by
      rw [hconfirm]
      exact Table.get_set_self _ _ _
    have hvstream : v.stream n = x := by rw [hconfirm]; rfl
    have hvlist (e : Fin 64) : v.pageList e = s.pageList e := by rw [hconfirm]; rfl
    have hvpage (p : Fin 512) : v.page p = s.page p := by rw [hconfirm]; rfl
    have hvdoc (e : Fin 64) : v.doc e = s.doc e := by rw [hconfirm]; rfl
    obtain ⟨q', z, path, coder, notices, hseek, ⟨-, -, -, -, hposition, -⟩, hserves, hwaits, hends⟩ :=
      State.seekPage_form (n := n) (x := y) (s := v) (by rw [hconfirm]; exact hy) (by rw [hvstream, hstate]; decide)
    rw [hvdest] at hposition hserves hwaits hends
    simp only [hvlist, hvpage, hvdoc] at hserves hwaits hends
    obtain ⟨w, hw⟩ : ∃ w, w = v.seekPage n := ⟨_, rfl⟩
    have hexec := hdone (t := w) (by rw [State.takeVerdict_ok hstate, ← hvdef, hw])
    rw [← hw] at hseek
    have hwdest : w.dest y = (s.dest y).confirm := by
      rw [hseek]
      exact hvdest
    have hwstream : w.stream n = z := by
      rw [hseek]
      exact Table.get_set_self _ _ _
    have hwnotices : w.ctl.notices = notices := by rw [hseek]
    have hframe : (∀ e, e ≠ y → w.dest e = s.dest e) ∧ w.context n = (s.context n).map CallContext.confirm ∧
        w.mem = s.mem ∧ w.store = s.store ∧ w.lines = s.lines := by
      rw [hseek, hconfirm]
      exact ⟨fun e he => Table.get_set_of_ne _ _ he.symm, Table.get_set_self _ _ _, rfl, rfl, rfl⟩
    obtain ⟨hothers, hcontext, hrest⟩ := hframe
    have hpending (h : notices = v.ctl.notices ||| Notice.stream.bit) : w.isPending .stream = true :=
      Notice.pending_of_or (hwnotices.trans h)
    refine ⟨w.noteResult ⟨.ok, le 1 (w.dest y).confirmed⟩, hexec, hwdest, hothers, hcontext, ?_,
      (congrArg LineStream.position hwstream).trans hposition,
      fun p hp hc => ?_, fun p hp hc => ?_, fun hnone => ?_, hrest⟩
    · rw [hwdest]
      rfl
    · obtain ⟨h1, h2, h3, -, h5, -⟩ := hserves p hp hc
      rw [show (w.noteResult _).stream n = z from hwstream]
      exact ⟨h1, h2, h3, h5⟩
    · obtain ⟨h1, hn⟩ := hwaits p hp hc
      exact ⟨(congrArg LineStream.state hwstream).trans h1, hpending hn⟩
    · obtain ⟨h1, hn⟩ := hends hnone
      exact ⟨(congrArg LineStream.state hwstream).trans h1, hpending hn⟩
  case retry =>
    rw [if_neg (by rw [hv]; decide), if_pos hv] at hdone
    obtain ⟨q, hset, -⟩ := State.setDest_form y { s.dest y with pageRetries := (s.dest y).pageRetries + 1 } s
    obtain ⟨v, hvdef⟩ : ∃ v, v = s.setDest y { s.dest y with pageRetries := (s.dest y).pageRetries + 1 } := ⟨_, rfl⟩
    have hretry := State.retryPage_eq (n := n) hretries
    rw [← hvdef] at hset hretry
    have hvdest : v.dest y = { s.dest y with pageRetries := (s.dest y).pageRetries + 1 } := by
      rw [hset]
      exact Table.get_set_self _ _ _
    by_cases hfew : ((s.dest y).pageRetries + 1).toNat ≤ 3
    · obtain ⟨q', coder, hserve⟩ := State.startServing_form n x.page v
      have hexec := hdone (t := v.startServing n x.page) (by rw [State.takeVerdict_retry hstate, hretry, if_pos hfew])
      rw [hserve] at hexec
      refine ⟨_, hexec, hvdest, ?_, ?_, ?_⟩
      · rw [if_pos hfew]
        have hstream := Table.get_set_self v.streams n ((v.stream n).atPage x.page)
        rw [State.stream, State.noteResult_streams, State.withQueue_streams, hstream]
        exact ⟨rfl, rfl, rfl, rfl⟩
      · exact (congrArg (fun r : DestRecord => some (⟨.ok, le 1 r.confirmed⟩ : CommandResult)) hvdest :)
      · rw [hset]
        exact ⟨rfl, rfl, rfl, rfl⟩
    · obtain ⟨q', coder, hstall⟩ := State.stallSend_form n .failed v
      have hexec := hdone (t := v.stallSend n .failed) (by rw [State.takeVerdict_retry hstate, hretry, if_neg hfew])
      rw [hstall] at hexec
      refine ⟨_, hexec, hvdest, ?_, ?_, ?_⟩
      · rw [if_neg hfew]
        have hstream := Table.get_set_self v.streams n
          { v.stream n with state := .stalled, stall := .failed, readAhead := [], ready := [], check := none }
        rw [State.stream, State.noteResult_streams, State.withQueue_streams, hstream]
        exact ⟨rfl, rfl, Notice.pending_of_or (x := v.ctl.notices) rfl⟩
      · exact (congrArg (fun r : DestRecord => some (⟨.ok, le 1 r.confirmed⟩ : CommandResult)) hvdest :)
      · rw [hset]
        exact ⟨rfl, rfl, rfl, rfl⟩
  case bad =>
    rw [if_neg (by rw [hv]; decide), if_neg (by rw [hv]; decide)] at hdone
    obtain ⟨q', coder, hstall⟩ := State.stallSend_form n .bad s
    have hexec := hdone (State.takeVerdict_bad hstate)
    rw [hstall] at hexec
    have hstream := Table.get_set_self s.streams n
      { s.stream n with state := .stalled, stall := .bad, readAhead := [], ready := [], check := none }
    refine ⟨_, hexec, ?_, ?_, Notice.pending_of_or (x := s.ctl.notices) rfl, rfl, rfl, rfl, rfl, rfl, rfl⟩
    · exact (congrArg LineStream.state hstream :)
    · exact (congrArg LineStream.stall hstream :)
  case draining =>
    have hended : (s.stream n).drain = .ended := by
      obtain hpage | ⟨-, hended⟩ := hphase
      · rw [hstate] at hpage
        cases hpage
      · exact hended
    have hdrains {b : State} (hb : (if (if verdict = 0 then Verdict.ok else if verdict = 1 then .retry else .bad) = .ok
          then s.confirmPage n y else s) = b)
        (hframe : b.streams = s.streams ∧ b.mem = s.mem ∧ b.store = s.store ∧ b.lines = s.lines)
        (hdest : b.dest y = if verdict = 0 then (s.dest y).confirm else s.dest y) :
        ∃ t : State, exec (.pageResult line verdict) s = .next t.settleStep ∧
          t.streams = s.streams.set n { x with drain := .done } ∧ t.isPending .stream = true ∧
          t.dest y = (if verdict = 0 then (s.dest y).confirm else s.dest y) ∧
          t.ctl.lastResult = some ⟨.ok, le 1 (t.dest y).confirmed⟩ ∧ t.mem = s.mem ∧ t.store = s.store ∧ t.lines = s.lines := by
      obtain ⟨hstreams, hrest⟩ := hframe
      obtain ⟨q, hdrain⟩ := State.drainDone_form n b
      have hexec := hdone (State.takeVerdict_draining hstate hended)
      rw [hb, hdrain] at hexec
      refine ⟨_, hexec, ?_, Notice.pending_of_or (x := b.ctl.notices) rfl, hdest, rfl, hrest⟩
      have hstream : b.stream n = x := congrArg (fun l => l.get n) hstreams
      exact congrArg₂ (fun (l : Table LineStream 4) (z : LineStream) => l.set n { z with drain := .done }) hstreams hstream
    by_cases hv : verdict = 0
    · obtain ⟨q, hconfirm⟩ := s.confirmPage_form n y
      refine hdrains (if_pos (if_pos hv)) ?_ ?_
      · rw [hconfirm]
        exact ⟨rfl, rfl, rfl, rfl⟩
      · rw [hconfirm, if_pos hv]
        exact Table.get_set_self _ _ _
    · refine hdrains (if_neg ?_) ⟨rfl, rfl, rfl, rfl⟩ (if_neg hv).symm
      rw [if_neg hv]
      split <;> exact nofun

end Sys2Proof.Machine

/-! PROOF. RECEIVE OPEN and STREAM CLOSE (R101, R151, R156, R157). -/

namespace Sys2Proof.Machine

/-! ## The close of a line's stream (R157) -/

/-- A line's context at a close. -/
def LineContext.idled (x : LineContext) : LineContext := { x with isOpen := false, reference := [], repeatRun := 0, job := .none }

theorem State.endTraffic_form (n : Fin 4) (s : State) : ∃ q dropped, s.endTraffic n = ({ s with
    path := (s.path.voided (StreamId.index (.line n))).dropRead (.line n),
    coder := s.coder.restart (.line n) (s.ctx (.line n)).idled,
    streams := s.streams.set n { s.stream n with dropped := dropped } } : State).withQueue q := by
  obtain ⟨q, dropped, hheld⟩ := s.closeHeld_line n
  refine ⟨q, dropped, ?_⟩
  rw [State.endTraffic, State.dropRead_eq, State.idleCtx_eq, hheld]
  rfl

theorem State.enterClosed_form (n : Fin 4) (s : State) : ∃ q windows, s.enterClosed n = ({ s with
    path := { s.path with windows := windows }, streams := s.streams.set n (s.stream n).shut } : State).withQueue q ∧
    (windows.get (StreamId.index (.line n))).pending = none := by
  obtain ⟨q₁, hmod⟩ := State.modStream_form n LineStream.shut s
  obtain ⟨q, windows, hactivate, -, hnone, -, -⟩ := State.activatePending_form (StreamId.index (.line n)) (s.modStream n LineStream.shut)
  refine ⟨q, windows, ?_, hnone⟩
  rw [State.enterClosed, hactivate, hmod]
  rfl

/-- A writer's slot with a close of its page asked for. -/
def WriterSlot.asking (flags : CloseFlags) (x : WriterSlot) : WriterSlot := { x with asked := some flags }

/-- What becomes of the page being received when its stream closes: the store and the dispatch unit. -/
def State.PageEnded (n : Fin 4) (s : State) (store : StoreManager) (dispatch : DispatchUnit) : Prop :=
  ((s.slot (.line n)).page = none → store = s.store ∧ dispatch = s.dispatch) ∧
  ∀ h, (s.slot (.line n)).page = some h →
    ((s.page h.page).lineCount ≠ 0 → (s.slot (.line n)).closing = none →
      store = { s.store with
        pages := s.store.pages.set h.page { s.page h.page with
          closing := true, truncated := true, byteCount := (s.page h.page).byteCount + 1,
          poor := (s.page h.page).poor || decide ((s.page h.page).lineCount < (s.page h.page).badLines * 16) ||
            (s.stream n).badRunFlag },
        slots := s.store.slots.set (Writer.index (.line n))
          { writing := none, asked := none, closing := some { h with queued := h.queued ++ [0xF3] } } } ∧
      dispatch = s.dispatch) ∧
    ((s.page h.page).lineCount ≠ 0 → (s.slot (.line n)).closing ≠ none →
      store = { s.store with
        slots := s.store.slots.set (Writer.index (.line n))
          ((s.slot (.line n)).asking { truncated := true, poor := s.pagePoor n }) } ∧
      dispatch = s.dispatch) ∧
    ((s.page h.page).lineCount = 0 →
      store = { s.store with
        freeList := s.store.freeList ++ (s.page h.page).chain, pages := s.store.pages.set h.page PageRecord.empty,
        slots := s.store.slots.set (Writer.index (.line n)) { s.slot (.line n) with writing := none } } ∧
      dispatch = { s.dispatch with
        pageLists := s.dispatch.pageLists.set (s.page h.page).document
          ((s.pageList (s.page h.page).document).filter (fun q => decide (q ≠ h.page))) })

theorem State.pagePoor_of_some {n : Fin 4} {h : PageInHand} {s : State} (hpage : (s.slot (.line n)).page = some h) :
    s.pagePoor n = (decide ((s.page h.page).lineCount < (s.page h.page).badLines * 16) || (s.stream n).badRunFlag) := by
  rw [State.pagePoor, hpage]

theorem State.endReceivePage_form (n : Fin 4) (s : State) : ∃ q store dispatch,
    s.endReceivePage n = ({ s with store := store, dispatch := dispatch } : State).withQueue q ∧ s.PageEnded n store dispatch := by
  cases hpage : (s.slot (.line n)).page with
  | none =>
    refine ⟨s.ctl.queue, s.store, s.dispatch, ?_, fun _ => ⟨rfl, rfl⟩, fun h hh => ?_⟩
    · rw [State.endReceivePage, hpage]
      rfl
    · rw [hpage] at hh
      cases hh
  | some h =>
    have hend : s.endReceivePage n = if (s.page h.page).lineCount = 0 then s.freePage (.line n)
        else s.closePage (.line n) { truncated := true, poor := s.pagePoor n } := by
      rw [State.endReceivePage, hpage]
    by_cases hcount : (s.page h.page).lineCount = 0
    · obtain ⟨q, hfree⟩ := State.freePage_form hpage
      refine ⟨q, _, _, (hend.trans (if_pos hcount)).trans hfree, fun hnone => ?_, fun h' hh => ?_⟩
      · rw [hpage] at hnone
        cases hnone
      · rw [hpage] at hh
        cases hh
        exact ⟨fun hne => absurd hcount hne, fun hne => absurd hcount hne, fun _ => ⟨rfl, rfl⟩⟩
    · by_cases hclosing : (s.slot (.line n)).closing = none
      · obtain ⟨q, hclose⟩ := State.closePage_form (flags := { truncated := true, poor := s.pagePoor n }) hpage hclosing
        simp only [Bool.or_false, Bool.or_true, State.pagePoor_of_some hpage, ← Bool.or_assoc] at hclose
        rw [if_neg hcount, State.pagePoor_of_some hpage] at hend
        refine ⟨q, _, s.dispatch, hend.trans hclose, fun hnone => ?_, fun h' hh => ?_⟩
        · rw [hpage] at hnone
          cases hnone
        · rw [hpage] at hh
          cases hh
          exact ⟨fun _ _ => ⟨rfl, rfl⟩, fun _ hne => absurd hclosing hne, fun h0 => absurd h0 hcount⟩
      · have hclose := State.closePage_asked (flags := { truncated := true, poor := s.pagePoor n }) hpage hclosing
        refine ⟨s.ctl.queue, { s.store with
            slots := s.store.slots.set (Writer.index (.line n))
              ((s.slot (.line n)).asking { truncated := true, poor := s.pagePoor n }) }, s.dispatch,
          (hend.trans (if_neg hcount)).trans hclose, fun hnone => ?_, fun h' hh => ?_⟩
        · rw [hpage] at hnone
          cases hnone
        · rw [hpage] at hh
          cases hh
          exact ⟨fun _ hnone => absurd hnone hclosing, fun _ _ => ⟨rfl, rfl⟩, fun h0 => absurd h0 hcount⟩

/-- The close of a line's stream that is not CLOSED, as one equation. -/
theorem State.closeStream_form {n : Fin 4} {s : State} (hopen : (s.stream n).state ≠ .closed) :
    ∃ q store dispatch dropped windows, s.closeStream n = ({ s with
      store := store, dispatch := dispatch,
      path := { (s.path.voided (StreamId.index (.line n))).dropRead (.line n) with windows := windows },
      coder := s.coder.restart (.line n) (s.ctx (.line n)).idled,
      streams := s.streams.set n { (s.stream n).shut with dropped := dropped } } : State).withQueue q ∧
    (windows.get (StreamId.index (.line n))).pending = none ∧
    ((s.stream n).direction ≠ .receive → store = s.store ∧ dispatch = s.dispatch) ∧
    ((s.stream n).direction = .receive → s.PageEnded n store dispatch) := by
  obtain ⟨q₁, dropped, htraffic⟩ := s.endTraffic_form n
  obtain ⟨v, hv⟩ : ∃ v, v = s.endTraffic n := ⟨_, rfl⟩
  have hclose : s.closeStream n =
      if (s.stream n).direction = .receive then (v.endReceivePage n).enterClosed n else v.enterClosed n := by
    rw [hv]
    exact if_neg hopen
  rw [← hv] at htraffic
  have hvstream : v.stream n = { s.stream n with dropped := dropped } := by
    rw [htraffic]
    exact Table.get_set_self _ _ _
  have hset (y : LineStream) : v.streams.set n y = s.streams.set n y := by
    rw [htraffic]
    exact Table.set_set ..
  by_cases hreceive : (s.stream n).direction = .receive
  · obtain ⟨q₂, store, dispatch, hpage, hended⟩ := v.endReceivePage_form n
    have hsame : v.PageEnded n store dispatch ↔ s.PageEnded n store dispatch := by
      have hslot : v.slot (.line n) = s.slot (.line n) := by rw [htraffic]; rfl
      have hstore : v.store = s.store := by rw [htraffic]; rfl
      have hdispatch : v.dispatch = s.dispatch := by rw [htraffic]; rfl
      have hvpage (p : Fin 512) : v.page p = s.page p := by rw [htraffic]; rfl
      have hlist (d : Fin 64) : v.pageList d = s.pageList d := by rw [htraffic]; rfl
      have hflag : (v.stream n).badRunFlag = (s.stream n).badRunFlag := by rw [hvstream]
      have hpoor : v.pagePoor n = s.pagePoor n := by
        rw [State.pagePoor, State.pagePoor, hslot, hflag]
        cases (s.slot (.line n)).page with
        | none => rfl
        | some h =>
          dsimp only
          rw [hvpage]
      unfold State.PageEnded
      simp only [hslot, hstore, hdispatch, hvpage, hlist, hflag, hpoor]
    obtain ⟨w, hw⟩ : ∃ w, w = v.endReceivePage n := ⟨_, rfl⟩
    obtain ⟨q, windows, hclosed, hnone⟩ := w.enterClosed_form n
    have hwstream : w.stream n = { s.stream n with dropped := dropped } := by
      rw [hw, hpage]
      exact hvstream
    have hwset (y : LineStream) : w.streams.set n y = s.streams.set n y := by
      rw [hw, hpage]
      exact hset y
    refine ⟨q, store, dispatch, dropped, windows, ?_, hnone, fun h => absurd hreceive h, fun _ => hsame.mp hended⟩
    rw [hclose, if_pos hreceive, ← hw, hclosed, hwset, hwstream, hw, hpage, htraffic]
    rfl
  · obtain ⟨q, windows, hclosed, hnone⟩ := v.enterClosed_form n
    refine ⟨q, s.store, s.dispatch, dropped, windows, ?_, hnone, fun _ => ⟨rfl, rfl⟩, fun h => absurd h hreceive⟩
    rw [hclose, if_neg hreceive, hclosed, hset, hvstream, htraffic]
    rfl

/-! ## RECEIVE OPEN (R101, R151) -/

/-- A receive stream as RECEIVE OPEN opens it for a document. -/
def LineStream.openedReceive (d : Fin 64) (w : Width) (k : Nat) (x : LineStream) : LineStream :=
  { x with
    direction := .receive, state := .open, stall := .none, callDoc := some d, document := d, width := w, k := k,
    dropped := 0, expiries := 0, badLines := 0, collecting := Collecting.empty, waiting := none, carried := [],
    checkBuffer := none, pageEnd := false, badRun := 0, badRunFlag := false }

theorem State.receiveOpen_admitted {n : Fin 4} {s : State} (hstate : (s.lineUnit n).record.state = .connected)
    (hdirection : (s.lineUnit n).record.callDirection = .incoming) (hclosed : (s.stream n).state = .closed) :
    ¬(s.connected n .incoming = false ∨ (s.stream n).state ≠ .closed) := by
  rw [(State.connected_iff n .incoming s).mpr ⟨hstate, hdirection⟩]
  exact fun h => h.elim nofun fun h => h hclosed

section ReceiveOpen

variable {line width k : BitVec 8} {s : State} (hrun : s.ctl.engine = .running)

include hrun

theorem State.cmdReceiveOpen_bad (h : 4 ≤ line.toNat ∨ 2 < width.toNat ∨ 16 < k.toNat) :
    State.cmdReceiveOpen line width k s = s.not .badArg := by
  rw [State.cmdReceiveOpen, State.inRunning_taken _ hrun]
  split
  · next n w kk hn hw hk =>
    obtain h | h | h := h
    · rw [indexBelow_of_le h] at hn
      cases hn
    · rw [widthField_eq_none h] at hw
      cases hw
    · rw [kField_eq_none h] at hk
      cases hk
  · rfl

variable {n : Fin 4} {w : Width} (hline : line.toNat = n.val) (hwidth : width.toNat = w.code) (hk : k.toNat ≤ 16)

include hline hwidth hk

theorem State.cmdReceiveOpen_busy
    (h : (s.lineUnit n).record.state ≠ .connected ∨ (s.lineUnit n).record.callDirection ≠ .incoming ∨ (s.stream n).state ≠ .closed) :
    State.cmdReceiveOpen line width k s = s.not .busy := by
  rw [State.cmdReceiveOpen, State.inRunning_taken _ hrun, indexBelow_of_eq n hline, widthField_eq_some hwidth, kField_eq_some hk]
  refine if_pos ?_
  by_cases hconnected : s.connected n .incoming = true
  · obtain ⟨hstate, hdirection⟩ := (State.connected_iff n .incoming s).mp hconnected
    exact .inr ((h.resolve_left (not_not.mpr hstate)).resolve_left (not_not.mpr hdirection))
  · exact .inl (Bool.eq_false_iff.mpr hconnected)

variable (hstate : (s.lineUnit n).record.state = .connected) (hdirection : (s.lineUnit n).record.callDirection = .incoming)
  (hclosed : (s.stream n).state = .closed)

include hstate hdirection hclosed

theorem State.cmdReceiveOpen_kept {d : Fin 64} (hdoc : (s.stream n).callDoc = some d) :
    State.cmdReceiveOpen line width k s = (s.openReceive n d w k.toNat).okay [BitVec.ofNat 8 d.val] := by
  rw [State.cmdReceiveOpen, State.inRunning_taken _ hrun, indexBelow_of_eq n hline, widthField_eq_some hwidth, kField_eq_some hk]
  dsimp only
  rw [if_neg (State.receiveOpen_admitted hstate hdirection hclosed), hdoc]
  rfl

theorem State.cmdReceiveOpen_full (hdoc : (s.stream n).callDoc = none) (hfull : ∀ d, (s.doc d).inUse = true) :
    State.cmdReceiveOpen line width k s = s.not .noSpace := by
  rw [State.cmdReceiveOpen, State.inRunning_taken _ hrun, indexBelow_of_eq n hline, widthField_eq_some hwidth, kField_eq_some hk]
  dsimp only
  rw [if_neg (State.receiveOpen_admitted hstate hdirection hclosed), hdoc, State.freeDocEntry_of_full hfull]

theorem State.cmdReceiveOpen_grants {d : Fin 64} (hdoc : (s.stream n).callDoc = none) (hfree : (s.doc d).inUse = false)
    (hlow : ∀ e, e < d → (s.doc e).inUse = true) :
    State.cmdReceiveOpen line width k s = ((s.grantDocument n d).openReceive n d w k.toNat).okay [BitVec.ofNat 8 d.val] := by
  rw [State.cmdReceiveOpen, State.inRunning_taken _ hrun, indexBelow_of_eq n hline, widthField_eq_some hwidth, kField_eq_some hk]
  dsimp only
  rw [if_neg (State.receiveOpen_admitted hstate hdirection hclosed), hdoc, State.freeDocEntry_of_lowest hfree hlow]
  rfl

end ReceiveOpen

/-- A call's context with its document. -/
def CallContext.forDocument (d : Fin 64) (c : CallContext) : CallContext := { c with document := some d }

theorem State.grantDocument_form (n : Fin 4) (d : Fin 64) (s : State) : ∃ q, s.grantDocument n d = ({ s with
    dispatch := { s.dispatch with
      docs := s.dispatch.docs.set d DocRecord.newIncoming, pageLists := s.dispatch.pageLists.set d [] },
    charge := { s.charge with contexts := s.charge.contexts.set n ((s.context n).map (CallContext.forDocument d)) } } :
      State).withQueue q := by
  obtain ⟨q₁, hdoc, -⟩ := State.setDoc_form d DocRecord.newIncoming s
  obtain ⟨q₂, hpages, -⟩ := State.setPageList_form d [] (s.setDoc d DocRecord.newIncoming)
  obtain ⟨q, hmod⟩ := State.modContext_form n (CallContext.forDocument d) (s.createDoc d DocRecord.newIncoming)
  refine ⟨q, ?_⟩
  have hgrant : s.grantDocument n d = (s.createDoc d DocRecord.newIncoming).modContext n (CallContext.forDocument d) := rfl
  rw [hgrant, hmod, State.createDoc, hpages, hdoc]
  rfl

theorem State.cmdStreamClose_of_eq {line : BitVec 8} {n : Fin 4} {s : State} (hrun : s.ctl.engine = .running)
    (hline : line.toNat = n.val) :
    State.cmdStreamClose line s = if (s.stream n).state = .closed then s.not .busy else (s.closeStream n).okay [] := by
  rw [State.cmdStreamClose, State.inRunning_taken _ hrun, indexBelow_of_eq n hline]

/-- Settles O54: RECEIVE OPEN by the call's document, STREAM CLOSE by `State.closeStream_form`. -/
theorem receiveOpenAndStreamClose : Obligations.ReceiveOpenAndStreamClose := by
  refine ⟨fun line width k s hup hrun => ?receives, fun line s hup hrun => ?closes⟩
  case receives =>
    have hrow := exec_ringCommand (c := .receiveOpen line width k) rfl s
    refine ⟨fun hbad => State.ring_command_answers hup hrow (State.cmdReceiveOpen_bad hrun hbad), fun n w hline hwidth hk => ?_⟩
    intro record opened
    refine ⟨fun hbusy => State.ring_command_answers hup hrow (State.cmdReceiveOpen_busy hrun hline hwidth hk hbusy),
      fun hstate hdirection hclosed => ⟨fun d hdoc => ?_, fun hdoc hfull => ?_, fun d hdoc hfree hlow => ?_⟩⟩
    · have hcmd := State.cmdReceiveOpen_kept hrun hline hwidth hk hstate hdirection hclosed hdoc
      obtain ⟨q, hmod⟩ := State.modStream_form n (LineStream.openedReceive d w k.toNat) s
      have hopen : s.openReceive n d w k.toNat = s.modStream n (LineStream.openedReceive d w k.toNat) := rfl
      refine State.ring_command_leaves _ hup hrow hcmd ?_
      rw [hopen, hmod]
      rfl
    · exact State.ring_command_answers hup hrow
        (State.cmdReceiveOpen_full hrun hline hwidth hk hstate hdirection hclosed hdoc hfull)
    · have hcmd := State.cmdReceiveOpen_grants hrun hline hwidth hk hstate hdirection hclosed hdoc hfree hlow
      obtain ⟨q₁, hgrant⟩ := s.grantDocument_form n d
      obtain ⟨q, hmod⟩ := State.modStream_form n (LineStream.openedReceive d w k.toNat) (s.grantDocument n d)
      have hopen : (s.grantDocument n d).openReceive n d w k.toNat =
          (s.grantDocument n d).modStream n (LineStream.openedReceive d w k.toNat) := rfl
      refine State.ring_command_leaves _ hup hrow hcmd ?_
      rw [hopen, hmod, hgrant]
      exact ⟨rfl, Table.get_set_self _ _ _, fun m hm => Table.get_set_of_ne _ _ hm.symm⟩
  case closes =>
    have hrow := exec_ringCommand (c := .streamClose line) rfl s
    refine ⟨fun hbad => State.ring_command_answers hup hrow (?_ : State.cmdStreamClose line s = s.not .badArg), fun n hline =>
      ⟨fun hclosed => ?_, fun hopen => ?_⟩⟩
    · rw [State.cmdStreamClose, State.inRunning_taken _ hrun, indexBelow_of_le hbad]
    · exact State.ring_command_answers hup hrow ((State.cmdStreamClose_of_eq hrun hline).trans (if_pos hclosed))
    · have hcmd : State.cmdStreamClose line s = (s.closeStream n).okay [] :=
        (State.cmdStreamClose_of_eq hrun hline).trans (if_neg hopen)
      obtain ⟨q, store, dispatch, dropped, windows, hclose, hnone, hsend, hreceive⟩ := State.closeStream_form hopen
      refine State.ring_command_leaves _ hup hrow hcmd ?_
      rw [hclose]
      have hstream := Table.get_set_self s.streams n { (s.stream n).shut with dropped := dropped }
      refine ⟨?_, fun m hm => Table.get_set_of_ne _ _ hm.symm, ?_, hnone, fun h hh => ?_, rfl, rfl, rfl, rfl, rfl, rfl,
        fun hcase => ?_, fun h hdirection hpage => ?_⟩
      · have hdropped := congrArg LineStream.dropped hstream
        exact (hstream :).trans (congrArg (fun k => ({ (s.stream n).shut with dropped := k } : LineStream)) hdropped.symm)
      · exact congrArg LineContext.isOpen (Table.get_set_self s.coder.contexts (StreamId.index (.line n)) _)
      · exact PathUnit.voided_held _ s.path h hh
      · by_cases hdirection : (s.stream n).direction = .receive
        · obtain ⟨hended, -⟩ := hreceive hdirection
          exact hended (hcase.resolve_left (not_not.mpr hdirection))
        · exact hsend hdirection
      · intro r poor
        obtain ⟨-, hended⟩ := hreceive hdirection
        obtain ⟨hfree, hbusy, hempty⟩ := hended h hpage
        refine ⟨hfree, fun hcount hclosing => ?_, hempty⟩
        obtain ⟨hstore, hdispatch⟩ := hbusy hcount hclosing
        obtain ⟨-, hwriting⟩ := WriterSlot.page_eq_some hpage
        have hslot : store.slots.get (Writer.index (.line n)) =
            { s.slot (.line n) with asked := some { truncated := true, poor := s.pagePoor n } } := by
          rw [hstore]
          exact Table.get_set_self _ _ _
        refine ⟨(congrArg WriterSlot.asked hslot :), (congrArg WriterSlot.writing hslot :).trans hwriting, fun p => ?_, hdispatch⟩
        exact (congrArg (fun m : StoreManager => m.pages.get p) hstore :)

end Sys2Proof.Machine

/-! PROOF. The settlement of a call's destination (R110, R111). -/

namespace Sys2Proof.Machine

/-! ## What a destination's new state leaves -/

/-- A destination record that has become final. -/
def DestRecord.ended (final : DestState) (r : DestRecord) : DestRecord :=
  { r with state := final, retryDue := none, blockReason := .none }

theorem State.becomeFinal_dest (x : Fin 512) (r : DestRecord) (final : DestState) (s : State) :
    (s.becomeFinal x r final).dest x = r.ended final := by
  obtain ⟨q, store, docs, hq⟩ := State.becomeFinal_form x r final s
  rw [hq]
  exact Table.get_set_self _ _ _

theorem State.becomeFinal_pending (x : Fin 512) (r : DestRecord) (final : DestState) (s : State) :
    (s.becomeFinal x r final).isPending .dispatch = true := by
  obtain ⟨q, store, docs, hq⟩ := State.becomeFinal_form x r final s
  rw [hq]
  exact Notice.pending_of_or (x := s.ctl.notices) rfl

/-- A final destination of a document that builds on changes nothing else. -/
theorem State.becomeFinal_of_building {x : Fin 512} {r : DestRecord} {final : DestState} {s : State}
    (h : (s.doc r.document).building = true) : s.becomeFinal x r final = { s with
      dispatch := { s.dispatch with dests := s.dispatch.dests.set x (r.ended final) },
      ctl := s.ctl.rewritten (s.becomeFinal x r final) (s.ctl.notices ||| Notice.dispatch.bit) } := by
  obtain ⟨v, hv⟩ : ∃ v, v = (s.setDest x (r.ended final)).raise .dispatch := ⟨_, rfl⟩
  have hvdoc : v.doc r.document = s.doc r.document := by
    obtain ⟨q, hset, -⟩ := State.setDest_form x (r.ended final) s
    obtain ⟨q', hraise, -⟩ := State.raise_form .dispatch (s.setDest x (r.ended final))
    rw [hv, hraise, hset]
    rfl
  have hfinal : s.becomeFinal x r final = v := by
    have hchain : s.becomeFinal x r final = v.checkComplete r.document := by rw [hv]; rfl
    rw [hchain, State.checkComplete_of_building (by rw [hvdoc]; exact h)]
  refine State.eq_of_bare ?_ rfl
  rw [hfinal, hv, State.bare_raise, State.bare_setDest, State.setDest_ctl_notices]
  rfl

theorem State.becomePending_eq (x : Fin 512) (r : DestRecord) (s : State) : s.becomePending x r = { s with
    dispatch := { s.dispatch with
      dests := s.dispatch.dests.set x { r with state := .pending, retryDue := none }, arbiterDue := true },
    ctl := s.ctl.rewritten (s.becomePending x r) s.ctl.notices } :=
  State.eq_of_bare (State.becomePending_bare x r s) rfl

/-- The clock value at which a retry is due. -/
def State.retryAt (seconds : Nat) (s : State) : Option ClockValue :=
  if s.charge.clockSet = true
  then some
    { day := s.charge.clock.day + BitVec.ofNat 16 ((s.charge.clock.second + seconds) / 86400),
      second := (s.charge.clock.second + seconds) % 86400 }
  else none

theorem State.startRetry_eq (x : Fin 512) (r : DestRecord) (seconds : Nat) (s : State) : s.startRetry x r seconds = { s with
    dispatch := { s.dispatch with
      dests := s.dispatch.dests.set x { r with state := .waiting, retryDue := s.retryAt seconds },
      retryTimers := s.dispatch.retryTimers.set x (some (s.now + seconds * 1000000)) },
    ctl := s.ctl.rewritten (s.startRetry x r seconds) s.ctl.notices } := by
  obtain ⟨q, hset, -⟩ := State.setDest_form x { r with state := .waiting, retryDue := s.retryAt seconds } s
  have hstart : s.startRetry x r seconds = (s.setDest x { r with state := .waiting, retryDue := s.retryAt seconds }).setRetryTimer x
      (some (s.now + seconds * 1000000)) := rfl
  refine State.eq_of_bare ?_ rfl
  rw [hstart, hset]
  rfl

/-! ## The settlement (R110) -/

/-- The record of a destination whose call has ended with a cause. -/
def DestRecord.tried (cause : Cause) (r : DestRecord) : DestRecord :=
  { r with line := none, lastCause := cause, attempts := r.attempts + 1 }

/-- The causes after which a destination is tried again while attempts are left. -/
def Cause.retried (cause : Cause) : Prop :=
  cause = .incomplete ∨ cause = .busy ∨ cause = .noAnswer ∨ cause = .noLoop ∨ cause = .loopDrop ∨ cause = .failed

theorem State.settledCause_of_ne {x : Fin 512} {given : Cause} {s : State} (h : given ≠ .normal) : s.settledCause x given = given :=
  if_neg h

section Settle

variable {x : Fin 512} {given cause : Cause} {s : State}

theorem State.settle_cancelled (h : (s.dest x).cancelRequested = true) :
    s.settle x given = s.becomeFinal x ((s.dest x).tried (s.settledCause x given)) .cancelled := by
  rw [State.settle]
  exact if_pos h

variable (h : (s.dest x).cancelRequested = false) (hcause : s.settledCause x given = cause)

include h hcause

theorem State.settle_normal (hc : cause = .normal) : s.settle x given = s.becomeFinal x ((s.dest x).tried cause) .done := by
  rw [State.settle, hcause, hc]
  exact if_neg (by rw [h]; decide)

theorem State.settle_retried (hc : cause.retried) : s.settle x given =
    if (s.dest x).attempts + 1 < (s.doc (s.dest x).document).attemptLimit
    then s.startRetry x ((s.dest x).tried cause) ((s.doc (s.dest x).document).retryInterval * 60)
    else s.becomeFinal x ((s.dest x).tried cause) .failed := by
  rw [State.settle, hcause]
  dsimp only
  rw [if_neg (by rw [h]; decide)]
  simp only [decide_eq_true_eq]
  obtain rfl | rfl | rfl | rfl | rfl | rfl := hc <;> rfl

theorem State.settle_postponed (hc : cause = .budget ∨ cause = .reset) : s.settle x given =
    if (s.dest x).attempts + 1 < (s.doc (s.dest x).document).attemptLimit
    then s.becomePending x ((s.dest x).tried cause) else s.becomeFinal x ((s.dest x).tried cause) .failed := by
  rw [State.settle, hcause]
  dsimp only
  rw [if_neg (by rw [h]; decide)]
  simp only [decide_eq_true_eq]
  obtain rfl | rfl := hc <;> rfl

theorem State.settle_failed (hc : cause = .damaged ∨ cause = .empty) :
    s.settle x given = s.becomeFinal x ((s.dest x).tried cause) .failed := by
  rw [State.settle, hcause]
  dsimp only
  rw [if_neg (by rw [h]; decide)]
  obtain rfl | rfl := hc <;> rfl

theorem State.settle_cancel (hc : cause = .cancel) : s.settle x given = s.becomeFinal x ((s.dest x).tried cause) .cancelled := by
  rw [State.settle, hcause, hc]
  exact if_neg (by rw [h]; decide)

theorem State.settle_glare (hc : cause = .glare) :
    s.settle x given = s.becomePending x { s.dest x with line := none, lastCause := .glare } := by
  rw [State.settle, hcause, hc]
  exact if_neg (by rw [h]; decide)

end Settle

/-- A settlement acts on the destination and its retry timer, the arbiter's mark, the documents and the store. -/
structure SettleResult where
  queue : List QueueEntry
  notices : BitVec 12
  store : StoreManager
  docs : Table DocRecord 64
  dest : DestRecord
  retryTimers : Table (Option Nat) 512
  arbiterDue : Bool

/-- The state with what a settlement may change. -/
def State.settledBy (x : Fin 512) (z : SettleResult) (s : State) : State :=
  { s with
    store := z.store,
    dispatch := { s.dispatch with
      docs := z.docs, dests := s.dispatch.dests.set x z.dest, retryTimers := z.retryTimers, arbiterDue := z.arbiterDue },
    ctl := { s.ctl with queue := z.queue, notices := z.notices } }

theorem State.becomeFinal_settledBy (x : Fin 512) (r : DestRecord) (final : DestState) (s : State) :
    ∃ z, s.becomeFinal x r final = s.settledBy x z := by
  obtain ⟨q, store, docs, hq⟩ := State.becomeFinal_form x r final s
  exact ⟨⟨q, _, store, docs, _, s.dispatch.retryTimers, s.dispatch.arbiterDue⟩, hq⟩

theorem State.becomePending_settledBy (x : Fin 512) (r : DestRecord) (s : State) : ∃ z, s.becomePending x r = s.settledBy x z :=
  ⟨⟨_, s.ctl.notices, s.store, s.dispatch.docs, _, s.dispatch.retryTimers, true⟩, State.becomePending_eq x r s⟩

theorem State.startRetry_settledBy (x : Fin 512) (r : DestRecord) (seconds : Nat) (s : State) :
    ∃ z, s.startRetry x r seconds = s.settledBy x z :=
  ⟨⟨_, s.ctl.notices, s.store, s.dispatch.docs, _, _, s.dispatch.arbiterDue⟩, State.startRetry_eq x r seconds s⟩

theorem State.settle_settledBy (x : Fin 512) (given : Cause) (s : State) : ∃ z, s.settle x given = s.settledBy x z := by
  rw [State.settle]
  dsimp only
  split
  · exact State.becomeFinal_settledBy ..
  · cases s.settledCause x given with
    | incomplete | busy | noAnswer | noLoop | loopDrop | failed =>
      dsimp only
      split
      · exact State.startRetry_settledBy ..
      · exact State.becomeFinal_settledBy ..
    | budget | reset =>
      dsimp only
      split
      · exact State.becomePending_settledBy ..
      · exact State.becomeFinal_settledBy ..
    | glare => exact State.becomePending_settledBy ..
    | _ => exact State.becomeFinal_settledBy ..

end Sys2Proof.Machine

/-! PROOF. The end of a call's context, and clear orders (R136, R157, R158, R193). -/

namespace Sys2Proof.Machine

/-! ## The end of a context (R193) -/

/-- The record that a call's end allots, as far as the statements name it. -/
def ChargeRecord.OfCall (n : Fin 4) (c : CallContext) (cause : Cause) (g : ChargeUnit) (r : ChargeRecord) : Prop :=
  r.index = g.allotIndex ∧ r.line = n ∧ r.account = c.account ∧ r.units = c.units ∧ r.cause = cause ∧ r.seizeTime = c.seizeTime ∧
    r.endTime = g.clock ∧ r.number = c.number

/-- An account with one more call. -/
def Account.withCall (x : Account) : Account := { x with calls := saturate 65535 x.calls }

/-- The charge unit after a call's end. -/
def ChargeUnit.endCall (n : Fin 4) (c : CallContext) (r : ChargeRecord) (g : ChargeUnit) : ChargeUnit :=
  { g with
    allotIndex := g.allotIndex + 1, reservations := g.reservations - 1, recordQueue := g.recordQueue ++ [r],
    accounts := g.accounts.set c.account (g.accounts.get c.account).withCall, contexts := g.contexts.set n none }

theorem State.secondsConnected_state (c : CallContext) (s : State) : ∃ k, (s.secondsConnected c).2 = { s with freeCount := k } := by
  unfold State.secondsConnected
  split
  · exact ⟨s.freeCount, rfl⟩
  · dsimp only
    split
    · exact ⟨s.freeCount, rfl⟩
    · exact ⟨s.freeCount + 1, rfl⟩

theorem State.allot_form (r : ChargeRecord) (s : State) : ∃ q notices, s.allot r = { s with
    charge := { s.charge with
      allotIndex := s.charge.allotIndex + 1, reservations := s.charge.reservations - 1,
      recordQueue := s.charge.recordQueue ++ [r] },
    ctl := { s.ctl with queue := q, notices := notices } } := by
  obtain ⟨q₁, hrewrite, -⟩ := State.rewrite_form .counters ({ s with
    charge := { s.charge with
      allotIndex := s.charge.allotIndex + 1, reservations := s.charge.reservations - 1,
      recordQueue := s.charge.recordQueue ++ [r] } } : State)
  rw [State.allot, hrewrite]
  dsimp only
  split
  · obtain ⟨q, hraise, -⟩ := State.raise_form .log (({ s with
      charge := { s.charge with
        allotIndex := s.charge.allotIndex + 1, reservations := s.charge.reservations - 1,
        recordQueue := s.charge.recordQueue ++ [r] } } : State).withQueue q₁)
    exact ⟨q, _, hraise⟩
  · exact ⟨q₁, s.ctl.notices, rfl⟩

/-- A context's end, before its destination is settled: the record allotted and queued, the account's call counted. -/
theorem State.endContext_form {n : Fin 4} {c : CallContext} (cause : Cause) {s : State} (hc : s.context n = some c) :
    ∃ (u : State) (r : ChargeRecord) (q : List QueueEntry) (notices : BitVec 12) (k : Nat),
      u = { s with
        freeCount := k, charge := s.charge.endCall n c r, ctl := { s.ctl with queue := q, notices := notices } } ∧
      r.OfCall n c cause s.charge ∧ (∀ x, c.destination = some x → s.endContext n cause = u.settle x cause) ∧
      (c.destination = none → s.endContext n cause = u) := by
  obtain ⟨k, hseconds⟩ := s.secondsConnected_state c
  obtain ⟨v, hv⟩ : ∃ v, v = (s.secondsConnected c).2 := ⟨_, rfl⟩
  obtain ⟨r, hr⟩ : ∃ r, r = v.chargeRecord n c cause (s.secondsConnected c).1 := ⟨_, rfl⟩
  obtain ⟨q₁, notices, hallot⟩ := State.allot_form r v
  obtain ⟨w, hw⟩ : ∃ w, w = v.allot r := ⟨_, rfl⟩
  obtain ⟨u, hu⟩ : ∃ u, u = ((w.setAccount c.account (w.account c.account).withCall).setContext n none).rewrite
    (.account c.account) := ⟨_, rfl⟩
  have hend : s.endContext n cause = c.destination.elim u fun x => u.settle x cause := by
    rw [State.endContext, hc]
    dsimp only
    rw [← hv, ← hr, ← hw]
    rw [show ((w.setAccount c.account { w.account c.account with calls := saturate 65535 (w.account c.account).calls }).setContext n
      none).rewrite (.account c.account) = u from hu.symm]
    cases c.destination <;> rfl
  have hvs : v = { s with freeCount := k } := hv.trans hseconds
  rw [← hw] at hallot
  have hform : ∃ q, u = { s with
      freeCount := k, charge := s.charge.endCall n c r, ctl := { s.ctl with queue := q, notices := notices } } := by
    obtain ⟨q₂, haccount, -⟩ := State.setAccount_form c.account (w.account c.account).withCall w
    obtain ⟨q₃, hcontext, -⟩ := State.setContext_form n none (w.setAccount c.account (w.account c.account).withCall)
    obtain ⟨q, hrewrite, -⟩ := State.rewrite_form (.account c.account)
      ((w.setAccount c.account (w.account c.account).withCall).setContext n none)
    refine ⟨q, ?_⟩
    rw [hu, hrewrite, hcontext, haccount, hallot, hvs]
    rfl
  obtain ⟨q, hq⟩ := hform
  refine ⟨u, r, q, notices, k, hq, ?_, fun x hx => by rw [hend, hx]; rfl, fun hx => by rw [hend, hx]; rfl⟩
  rw [hr, hvs]
  exact ⟨rfl, rfl, rfl, rfl, rfl, rfl, rfl, rfl⟩

theorem State.endContext_none {n : Fin 4} {cause : Cause} {s : State} (hc : s.context n = none) : s.endContext n cause = s := by
  rw [State.endContext, hc]

/-- What a context's end leaves alone. -/
theorem State.endContext_leaves (n : Fin 4) (cause : Cause) (s : State) :
    (s.endContext n cause).mem = s.mem ∧ (s.endContext n cause).lines = s.lines ∧ (s.endContext n cause).streams = s.streams ∧
    (s.endContext n cause).now = s.now ∧ (s.endContext n cause).context n = none ∧
    (∀ m, m ≠ n → (s.endContext n cause).context m = s.context m) ∧ (s.endContext n cause).charge.clock = s.charge.clock ∧
    (s.endContext n cause).charge.clockSet = s.charge.clockSet ∧ (s.endContext n cause).ctl.teardown = s.ctl.teardown ∧
    (s.endContext n cause).ctl.engine = s.ctl.engine := by
  cases hc : s.context n with
  | none =>
    rw [State.endContext_none hc]
    exact ⟨rfl, rfl, rfl, rfl, hc, fun _ _ => rfl, rfl, rfl, rfl, rfl⟩
  | some c =>
    obtain ⟨u, r, q, notices, k, hu, -, hsome, hnone⟩ := State.endContext_form cause hc
    have hleaves : u.mem = s.mem ∧ u.lines = s.lines ∧ u.streams = s.streams ∧ u.now = s.now ∧ u.context n = none ∧
        (∀ m, m ≠ n → u.context m = s.context m) ∧ u.charge.clock = s.charge.clock ∧ u.charge.clockSet = s.charge.clockSet ∧
        u.ctl.teardown = s.ctl.teardown ∧ u.ctl.engine = s.ctl.engine := by
      rw [hu]
      exact ⟨rfl, rfl, rfl, rfl, Table.get_set_self _ _ _, fun m hm => Table.get_set_of_ne _ _ hm.symm, rfl, rfl, rfl, rfl⟩
    cases hdest : c.destination with
    | none =>
      rw [hnone hdest]
      exact hleaves
    | some x =>
      obtain ⟨z, hz⟩ := State.settle_settledBy x cause u
      rw [hsome x hdest, hz]
      exact hleaves

/-- The charge unit after a context's end. -/
theorem State.endContext_charge {n : Fin 4} {c : CallContext} (cause : Cause) {s : State} (hc : s.context n = some c) :
    ∃ r : ChargeRecord, (s.endContext n cause).charge = s.charge.endCall n c r ∧ r.OfCall n c cause s.charge := by
  obtain ⟨u, r, q, notices, k, hu, hr, hsome, hnone⟩ := State.endContext_form cause hc
  refine ⟨r, ?_, hr⟩
  cases hdest : c.destination with
  | none => rw [hnone hdest, hu]
  | some x =>
    obtain ⟨z, hz⟩ := State.settle_settledBy x cause u
    rw [hsome x hdest, hz, hu]
    rfl

/-! ## The end of building leaves a CLOSED stream alone -/

section Others

variable {n m : Fin 4} (h : n ≠ m) (s : State)

include h

theorem State.setStream_stream_of_ne (x : LineStream) : (s.setStream m x).stream n = s.stream n := by
  rw [State.stream, State.setStream_streams]
  exact Table.get_set_of_ne _ _ h.symm

theorem State.modStream_stream_of_ne (f : LineStream → LineStream) : (s.modStream m f).stream n = s.stream n :=
  s.setStream_stream_of_ne h _

theorem State.startServing_stream_of_ne (p : Fin 512) : (s.startServing m p).stream n = s.stream n := by
  obtain ⟨q, coder, hq⟩ := State.startServing_form m p s
  rw [hq]
  exact Table.get_set_of_ne _ _ h.symm

theorem State.waitPage_stream_of_ne : (s.waitPage m).stream n = s.stream n := by
  unfold State.waitPage
  split
  · rfl
  · obtain ⟨q, hq⟩ := State.modStream_raise_form m (fun x => { x with state := .waitPage }) s
    rw [hq]
    exact Table.get_set_of_ne _ _ h.symm

theorem State.sendDocEnd_stream_of_ne : (s.sendDocEnd m).stream n = s.stream n := by
  obtain ⟨q, hq⟩ := State.modStream_raise_form m (fun x => { x with state := .docEnd }) s
  rw [State.sendDocEnd, hq]
  exact Table.get_set_of_ne _ _ h.symm

theorem State.seekPage_stream_of_ne : (s.seekPage m).stream n = s.stream n := by
  cases hdest : (s.lineUnit m).record.destination with
  | none => rw [State.seekPage, hdest]
  | some x =>
    cases hpage : (s.pageList (s.dest x).document)[(s.dest x).confirmed]? with
    | some p =>
      rw [State.seekPage_listed hdest hpage]
      split
      · rw [State.startServing_stream_of_ne h, State.modStream_stream_of_ne h]
      · rw [State.waitPage_stream_of_ne h, State.modStream_stream_of_ne h]
    | none =>
      rw [State.seekPage_missing hdest hpage]
      split
      · rw [State.waitPage_stream_of_ne h, State.modStream_stream_of_ne h]
      · rw [State.sendDocEnd_stream_of_ne h, State.modStream_stream_of_ne h]

end Others

section Closed

variable {n : Fin 4} {s : State} (h : (s.stream n).state = .closed)

include h

theorem State.tellSender_closed (d : Fin 64) (m : Fin 4) : (s.tellSender d m).stream n = s.stream n := by
  unfold State.tellSender
  dsimp only
  split
  · next htold =>
    obtain ⟨-, hwaits, -⟩ := htold
    refine State.seekPage_stream_of_ne ?_ s
    rintro rfl
    rw [h] at hwaits
    cases hwaits
  · rfl

theorem State.tellSenders_closed (d : Fin 64) : (s.tellSenders d).stream n = s.stream n := by
  rw [State.tellSenders]
  generalize allLines = l
  induction l generalizing s with
  | nil => rfl
  | cons m l ih =>
    have hfirst := State.tellSender_closed h d m
    exact (ih (by rw [hfirst]; exact h)).trans hfirst

theorem State.endBuilding_closed (d : Fin 64) : (s.endBuilding d).stream n = s.stream n := by
  unfold State.endBuilding
  split
  · exact congrArg (fun l => l.get n) (State.setDoc_streams ..)
  · obtain ⟨v, hv⟩ : ∃ v, v = (s.setDoc d { s.doc d with building := false }).printDue d := ⟨_, rfl⟩
    have hstreams : v.streams = s.streams := by
      rw [hv]
      unfold State.printDue State.joinPrintQueue
      dsimp only
      split
      · split
        · rw [State.setDoc_streams, State.setDoc_streams]
        · split
          · rw [State.raise_streams]
            exact (State.setDoc_streams ..).trans (State.setDoc_streams ..)
          · exact (State.setDoc_streams ..).trans (State.setDoc_streams ..)
      · rw [State.setDoc_streams]
    have hvstream : v.stream n = s.stream n := congrArg (fun l => l.get n) hstreams
    have htold : (v.tellSenders d).stream n = v.stream n := State.tellSenders_closed (by rw [hvstream]; exact h) d
    obtain ⟨u, hu⟩ : ∃ u, u = v.tellSenders d := ⟨_, rfl⟩
    obtain ⟨q, store, docs, notices, hcheck, -⟩ := State.checkComplete_form d u
    rw [← hu] at htold
    rw [← hv, ← hu, hcheck]
    exact htold.trans hvstream

end Closed

/-! ## Clear orders (R136) -/

/-- A line unit as a clear order leaves it. -/
def LineUnit.clearedBy (cause : Cause) (now : Nat) (u : LineUnit) : LineUnit :=
  { u.cleared cause with
    record := { (u.cleared cause).record with noLoopRun := noLoopAfter cause u.record.noLoopRun, destination := none },
    clearGuard := some (now + u.record.active.clearGuard * 1000000) }

theorem State.closeStream_closed (n : Fin 4) (s : State) : ((s.closeStream n).stream n).state = .closed := by
  by_cases hopen : (s.stream n).state = .closed
  · rw [State.closeStream, if_pos hopen, hopen]
  · obtain ⟨q, store, dispatch, dropped, windows, hclose, -⟩ := State.closeStream_form hopen
    rw [hclose]
    exact congrArg LineStream.state (Table.get_set_self s.streams n { (s.stream n).shut with dropped := dropped })

/-- A CLOSED stream whose call has no document: receiving ends with nothing but the forced cause absent. -/
theorem State.endReceiving_none {n : Fin 4} {s : State} (h : (s.stream n).callDoc = none) :
    s.endReceiving n = s.modStream n fun x => { x with callDoc := none, forced := false } := by
  rw [State.endReceiving, h]

theorem State.endReceiving_stream {n : Fin 4} {s : State} (h : (s.stream n).state = .closed) :
    ((s.endReceiving n).stream n).state = .closed ∧ ((s.endReceiving n).stream n).callDoc = none ∧
      ((s.endReceiving n).stream n).forced = false := by
  obtain ⟨v, hv, hclosed⟩ : ∃ v : State, s.endReceiving n = v.modStream n (fun x => { x with callDoc := none, forced := false }) ∧
      (v.stream n).state = .closed := by
    cases hdoc : (s.stream n).callDoc with
    | none => exact ⟨s, State.endReceiving_none hdoc, h⟩
    | some d => exact ⟨s.endBuilding d, by rw [State.endReceiving, hdoc], by rw [State.endBuilding_closed h]; exact h⟩
  have hset := Table.get_set_self v.streams n { v.stream n with callDoc := none, forced := false }
  rw [hv, State.stream, State.modStream_streams, hset]
  exact ⟨hclosed, rfl, rfl⟩

/-- A clear order as the context's end in the state with the stream closed, and the line cleared. -/
theorem State.clearOrder_form (n : Fin 4) (cause : Cause) (s : State) : ∃ w : State,
    w.apart = { s.apart with lines := s.lines.set n ((s.lineUnit n).cleared cause) } ∧
    (w.stream n).state = .closed ∧ (w.stream n).callDoc = none ∧ (w.stream n).forced = false ∧
    ((s.stream n).state = .closed → (s.stream n).callDoc = none → w.dispatch = s.dispatch) ∧
    s.clearOrder n cause = (w.endContext n cause).setLine n ((s.lineUnit n).clearedBy cause s.now) := by
  obtain ⟨q, hset, -⟩ := State.setLine_form n ((s.lineUnit n).cleared cause) s
  obtain ⟨v, hv⟩ : ∃ v, v = s.modLine n fun u => u.cleared cause := ⟨_, rfl⟩
  have hvform : v = ({ s with lines := s.lines.set n ((s.lineUnit n).cleared cause) } : State).withQueue q := hv.trans hset
  have hvapart : v.apart = { s.apart with lines := s.lines.set n ((s.lineUnit n).cleared cause) } := by rw [hvform]; rfl
  have hvstream : v.stream n = s.stream n := by rw [hvform]; rfl
  obtain ⟨w, hw⟩ : ∃ w, w = (v.closeStream n).endReceiving n := ⟨_, rfl⟩
  have hwapart : w.apart = { s.apart with lines := s.lines.set n ((s.lineUnit n).cleared cause) } := by
    rw [hw, State.endReceiving_apart, State.closeStream_apart, hvapart]
  obtain ⟨hclosed, hdoc, hforced⟩ := State.endReceiving_stream (v.closeStream_closed n)
  rw [← hw] at hclosed hdoc hforced
  refine ⟨w, hwapart, hclosed, hdoc, hforced, fun hstate hnone => ?_, ?_⟩
  · have hsame : v.closeStream n = v := by
      rw [State.closeStream]
      exact if_pos (by rw [hvstream]; exact hstate)
    rw [hw, hsame, State.endReceiving_none (by rw [hvstream]; exact hnone)]
    obtain ⟨q', hmod⟩ := State.modStream_form n (fun x => { x with callDoc := none, forced := false }) v
    rw [hmod, hvform]
    rfl
  · obtain ⟨-, hlines, -, hnow, -⟩ := State.endContext_leaves n cause w
    have hwlines : w.lines = s.lines.set n ((s.lineUnit n).cleared cause) := (congrArg Apart.lines hwapart :)
    have hwnow : w.now = s.now := (congrArg Apart.now hwapart :)
    have hunit : (w.endContext n cause).lineUnit n = (s.lineUnit n).cleared cause := by
      rw [State.lineUnit, hlines, hwlines]
      exact Table.get_set_self _ _ _
    rw [State.clearOrder]
    dsimp only
    rw [← hv, ← hw, State.modLine_eq, hunit, hnow, hwnow]
    rfl

section ClearOrder

variable (n : Fin 4) (cause : Cause) (s : State)

/-- What a clear order leaves: the line, its stream and context, and what it does not touch. -/
theorem State.clearOrder_leaves :
    (s.clearOrder n cause).lines = s.lines.set n ((s.lineUnit n).clearedBy cause s.now) ∧
    ((s.clearOrder n cause).stream n).state = .closed ∧ ((s.clearOrder n cause).stream n).callDoc = none ∧
    ((s.clearOrder n cause).stream n).forced = false ∧ (s.clearOrder n cause).context n = none ∧
    (∀ m, m ≠ n → (s.clearOrder n cause).context m = s.context m) ∧ (s.clearOrder n cause).mem = s.mem ∧
    (s.clearOrder n cause).now = s.now := by
  obtain ⟨w, hapart, hclosed, hdoc, hforced, -, hclear⟩ := State.clearOrder_form n cause s
  obtain ⟨hmem, hlines, hstreams, hnow, hcontext, hothers, -⟩ := State.endContext_leaves n cause w
  obtain ⟨q, hset, -⟩ := State.setLine_form n ((s.lineUnit n).clearedBy cause s.now) (w.endContext n cause)
  have hstream : (s.clearOrder n cause).stream n = w.stream n := by
    rw [hclear, hset]
    exact congrArg (fun l => l.get n) hstreams
  have hcharge : w.charge = s.charge := (congrArg Apart.charge hapart :)
  have hwcontext (m : Fin 4) : w.context m = s.context m := congrArg (fun g : ChargeUnit => g.contexts.get m) hcharge
  refine ⟨?_, by rw [hstream, hclosed], by rw [hstream, hdoc], by rw [hstream, hforced], ?_, fun m hm => ?_, ?_, ?_⟩
  · have hwlines : w.lines = s.lines.set n ((s.lineUnit n).cleared cause) := (congrArg Apart.lines hapart :)
    rw [hclear, State.setLine_lines, hlines, hwlines, Table.set_set]
  · rw [hclear, hset]
    exact hcontext
  · rw [hclear, hset]
    exact (hothers m hm).trans (hwcontext m)
  · rw [hclear, hset]
    exact hmem.trans (congrArg Apart.mem hapart :)
  · rw [hclear, hset]
    exact hnow.trans (congrArg Apart.now hapart :)

variable {n s}

theorem State.clearOrder_charge_none (hc : s.context n = none) : (s.clearOrder n cause).charge = s.charge := by
  obtain ⟨w, hapart, -, -, -, -, hclear⟩ := State.clearOrder_form n cause s
  have hcharge : w.charge = s.charge := (congrArg Apart.charge hapart :)
  have hwcontext : w.context n = none := (congrArg (fun g : ChargeUnit => g.contexts.get n) hcharge).trans hc
  rw [hclear, State.setLine_charge, State.endContext_none hwcontext, hcharge]

theorem State.clearOrder_charge {c : CallContext} (hc : s.context n = some c) : ∃ r : ChargeRecord,
    (s.clearOrder n cause).charge = s.charge.endCall n c r ∧ r.OfCall n c cause s.charge := by
  obtain ⟨w, hapart, -, -, -, -, hclear⟩ := State.clearOrder_form n cause s
  have hcharge : w.charge = s.charge := (congrArg Apart.charge hapart :)
  have hwcontext : w.context n = some c := (congrArg (fun g : ChargeUnit => g.contexts.get n) hcharge).trans hc
  obtain ⟨r, hend, hr⟩ := State.endContext_charge cause hwcontext
  rw [hcharge] at hend hr
  exact ⟨r, by rw [hclear, State.setLine_charge, hend], hr⟩

/-- The settlement that a clear order makes, in a state with the destinations and the time as they were. -/
theorem State.clearOrder_settles {c : CallContext} {x : Fin 512} (hc : s.context n = some c) (hx : c.destination = some x) :
    ∃ u : State, (s.clearOrder n cause).dispatch = (u.settle x cause).dispatch ∧
      (s.clearOrder n cause).ctl.notices = (u.settle x cause).ctl.notices ∧ u.dispatch.dests = s.dispatch.dests ∧
      u.now = s.now ∧ u.charge.clock = s.charge.clock ∧ u.charge.clockSet = s.charge.clockSet ∧
      ((s.stream n).state = .closed → (s.stream n).callDoc = none → u.dispatch = s.dispatch) := by
  obtain ⟨w, hapart, -, -, -, hdispatch, hclear⟩ := State.clearOrder_form n cause s
  have hcharge : w.charge = s.charge := (congrArg Apart.charge hapart :)
  have hwcontext : w.context n = some c := (congrArg (fun g : ChargeUnit => g.contexts.get n) hcharge).trans hc
  obtain ⟨u, r, q, notices, k, hu, -, hsettles, -⟩ := State.endContext_form cause hwcontext
  rw [hsettles x hx] at hclear
  refine ⟨u, by rw [hclear, State.setLine_dispatch], by rw [hclear, State.setLine_ctl_notices], ?_⟩
  rw [hu]
  refine ⟨(congrArg Apart.dests hapart :), (congrArg Apart.now hapart :), ?_, ?_, hdispatch⟩
  · exact (congrArg (fun a : Apart => a.charge.clock) hapart :)
  · exact (congrArg (fun a : Apart => a.charge.clockSet) hapart :)

end ClearOrder

end Sys2Proof.Machine

/-! PROOF. Cancelling a destination and a printout, and the last obligation of a document (R105, R112, R150). -/

namespace Sys2Proof.Machine

/-! ## The last obligation (R105) -/

theorem PrintObligation.owed_iff (o : PrintObligation) : o.owed = true ↔ o = .pending ∨ o = .queued ∨ o = .printing := by
  cases o <;> simp [PrintObligation.owed]

theorem State.hasObligation_iff (d : Fin 64) (s : State) : s.hasObligation d = true ↔
    (s.doc d).building = true ∨ (s.doc d).obligation = .pending ∨ (s.doc d).obligation = .queued ∨
      (s.doc d).obligation = .printing ∨ (∃ p, p ∈ s.pageList d ∧ (s.page p).state = .writing) ∨
      ∃ x, x ∈ (s.doc d).dests ∧ (s.dest x).state.final = false := by
  simp only [State.hasObligation, Bool.or_eq_true, PrintObligation.owed_iff, List.any_eq_true, decide_eq_true_eq,
    Bool.not_eq_true', or_assoc]

theorem State.checkComplete_rests {d : Fin 64} {s : State}
    (h : (s.doc d).inUse = false ∨ (s.doc d).complete = true ∨ s.hasObligation d = true) : s.checkComplete d = s := by
  refine if_neg fun ⟨huse, hcomplete, hnone⟩ => ?_
  rw [huse, hcomplete, hnone] at h
  obtain h | h | h := h <;> cases h

theorem State.checkComplete_released {d : Fin 64} {s : State} (huse : (s.doc d).inUse = true) (hcomplete : (s.doc d).complete = false)
    (hnone : s.hasObligation d = false) : s.checkComplete d =
      (s.pageList d).foldl State.releasePage ((s.setDoc d { s.doc d with complete := true }).raise .dispatch) := by
  obtain ⟨q, hcompleted⟩ := State.completed_form d s
  have hlist : ((s.setDoc d { s.doc d with complete := true }).raise .dispatch).pageList d = s.pageList d := by
    rw [hcompleted]
    rfl
  rw [State.checkComplete, if_pos ⟨huse, hcomplete, hnone⟩, State.releasePages, hlist]

theorem State.checkComplete_completes {d : Fin 64} {s : State} (huse : (s.doc d).inUse = true) (hcomplete : (s.doc d).complete = false)
    (hnone : s.hasObligation d = false) : ∃ q free, s.checkComplete d = { s with
      store := { s.store with freeList := free, pages := s.store.pages.setAll (s.pageList d) PageRecord.empty },
      dispatch := { s.dispatch with docs := s.dispatch.docs.set d { s.doc d with complete := true } },
      ctl := { s.ctl with queue := q, notices := s.ctl.notices ||| Notice.dispatch.bit } } := by
  obtain ⟨q₁, hcompleted⟩ := State.completed_form d s
  obtain ⟨q, free, hreleased⟩ := State.foldl_releasePage (s.pageList d)
    ((s.setDoc d { s.doc d with complete := true }).raise .dispatch)
  refine ⟨q, free, ?_⟩
  rw [State.checkComplete_released huse hcomplete hnone, hreleased, hcompleted]
  rfl

/-! ## A destination's cancellation (R112) -/

section Dest

variable {x : Fin 512} {n : Fin 4} {s : State}

theorem State.cancelDest_final (h : (s.dest x).state.final = true) : s.cancelDest x = s := by
  unfold State.cancelDest
  dsimp only
  cases hst : (s.dest x).state with
  | done | failed | cancelled => rfl
  | _ =>
    rw [hst] at h
    cases h

theorem State.cancelDest_pending (h : (s.dest x).state = .pending) : s.cancelDest x = s.becomeFinal x (s.dest x) .cancelled := by
  unfold State.cancelDest
  dsimp only
  rw [h]

theorem State.cancelDest_waiting (h : (s.dest x).state = .waiting) :
    s.cancelDest x = (s.setRetryTimer x none).becomeFinal x (s.dest x) .cancelled := by
  unfold State.cancelDest
  dsimp only
  rw [h]

/-- A destination marked for cancellation. -/
def DestRecord.marked (r : DestRecord) : DestRecord := { r with cancelRequested := true }

theorem State.cancelOnCall_of_line (hline : (s.dest x).line = some n) : s.cancelOnCall x =
    if (s.dest x).state = .dialling then (s.setDest x (s.dest x).marked).orderClear n .cancel
    else (s.setDest x (s.dest x).marked).drain n := by
  unfold State.cancelOnCall
  dsimp only
  split
  · next h =>
    rw [hline] at h
    cases h
  · next m h =>
    rw [hline] at h
    cases h
    rfl

theorem State.cancelDest_dialling (h : (s.dest x).state = .dialling) (hline : (s.dest x).line = some n) :
    s.cancelDest x = (s.setDest x (s.dest x).marked).orderClear n .cancel := by
  have hcall : s.cancelDest x = s.cancelOnCall x := by
    unfold State.cancelDest
    dsimp only
    rw [h]
  rw [hcall, State.cancelOnCall_of_line hline, if_pos h]

theorem State.cancelDest_sending (h : (s.dest x).state = .sending) (hline : (s.dest x).line = some n) :
    s.cancelDest x = (s.setDest x (s.dest x).marked).drain n := by
  have hcall : s.cancelDest x = s.cancelOnCall x := by
    unfold State.cancelDest
    dsimp only
    rw [h]
  rw [hcall, State.cancelOnCall_of_line hline, if_neg (by rw [h]; decide)]

end Dest

/-- A send stream that a cancellation reaches (R150). -/
def LineStream.drained (y : LineStream) : LineStream :=
  match y.state with
  | .open => { y with state := .draining, drain := .serving }
  | .pageEnd => { y with state := .draining, drain := .ended }
  | .waitPage | .docEnd => { y with state := .draining, drain := .done }
  | .draining | .stalled | .closed => y

/-- The notices once a cancellation has reached a send stream: STREAM where nothing is left to serve. -/
def drainNotices (state : LineStreamState) (notices : BitVec 12) : BitVec 12 :=
  if state = .pageEnd ∨ state = .waitPage ∨ state = .docEnd then notices ||| Notice.stream.bit else notices

theorem State.setStream_raise_form (n : Fin 4) (y : LineStream) (s : State) : ∃ q,
    (s.setStream n y).raise .stream = ({ s with
      streams := s.streams.set n y,
      ctl := { s.ctl with notices := s.ctl.notices ||| Notice.stream.bit } } : State).withQueue q :=
  State.modStream_raise_form n (fun _ => y) s

theorem State.drain_form (n : Fin 4) (s : State) : ∃ q, s.drain n = ({ s with
    streams := s.streams.set n (s.stream n).drained,
    ctl := { s.ctl with notices := drainNotices (s.stream n).state s.ctl.notices } } : State).withQueue q := by
  unfold State.drain LineStream.drained drainNotices
  dsimp only
  have hsame : s.streams.set n (s.stream n) = s.streams := Table.set_get _ _
  cases hst : (s.stream n).state with
  | pageEnd => exact State.setStream_raise_form n { s.stream n with state := .draining, drain := .ended } s
  | waitPage | docEnd => exact State.setStream_raise_form n { s.stream n with state := .draining, drain := .done } s
  | draining | stalled | closed =>
    refine ⟨s.ctl.queue, ?_⟩
    dsimp only
    rw [hsame]
    rfl
  | _ =>
    -- OPEN is the state left; its constructor's name is a keyword of Lean.
    obtain ⟨q, hq, -⟩ := State.setStream_form n { s.stream n with state := .draining, drain := .serving } s
    exact ⟨q, hq⟩

/-- A SENDING destination's cancellation: it is marked, and its stream drains. -/
theorem State.cancelDest_sending_form {x : Fin 512} {n : Fin 4} {s : State} (h : (s.dest x).state = .sending)
    (hline : (s.dest x).line = some n) : ∃ q, s.cancelDest x = ({ s with
      dispatch := { s.dispatch with dests := s.dispatch.dests.set x (s.dest x).marked },
      streams := s.streams.set n (s.stream n).drained,
      ctl := { s.ctl with notices := drainNotices (s.stream n).state s.ctl.notices } } : State).withQueue q := by
  obtain ⟨q₁, hset, -⟩ := State.setDest_form x (s.dest x).marked s
  obtain ⟨q, hdrain⟩ := State.drain_form n (s.setDest x (s.dest x).marked)
  refine ⟨q, ?_⟩
  rw [State.cancelDest_sending h hline, hdrain, hset]
  rfl

/-- Settling a destination whose cancellation is asked for makes it CANCELLED. -/
theorem State.settle_marked {x : Fin 512} {r : DestRecord} {given : Cause} {s : State} (hdest : s.dest x = r.marked)
    (hne : given ≠ .normal) : (s.settle x given).dest x = (r.marked.tried given).ended .cancelled ∧
      (s.settle x given).isPending .dispatch = true := by
  have hsettle := State.settle_cancelled (x := x) (given := given) (s := s) (by rw [hdest]; rfl)
  rw [State.settledCause_of_ne hne, hdest] at hsettle
  rw [hsettle]
  exact ⟨State.becomeFinal_dest .., State.becomeFinal_pending ..⟩

/-- A DIALLING destination's cancellation: its call is cleared, and it is settled CANCELLED. -/
theorem State.cancelDest_dialling_leaves {x : Fin 512} {n : Fin 4} {c : CallContext} {s : State} (h : (s.dest x).state = .dialling)
    (hline : (s.dest x).line = some n) (hcall : (s.lineUnit n).record.state.hasCall = true) (hc : s.context n = some c)
    (hx : c.destination = some x) :
    ((s.cancelDest x).lineUnit n).record.state = .clearing ∧ ((s.cancelDest x).lineUnit n).record.lastCause = .cancel ∧
      (s.cancelDest x).context n = none ∧
      (s.cancelDest x).dest x = ((s.dest x).marked.tried .cancel).ended .cancelled ∧
      (s.cancelDest x).isPending .dispatch = true ∧ (s.cancelDest x).mem = s.mem := by
  obtain ⟨q, hset, -⟩ := State.setDest_form x (s.dest x).marked s
  obtain ⟨v, hv⟩ : ∃ v, v = s.setDest x (s.dest x).marked := ⟨_, rfl⟩
  rw [← hv] at hset
  have hvcontext : v.context n = some c := by
    rw [hset]
    exact hc
  have hvcall : (v.lineUnit n).record.state.hasCall = true := by
    rw [hset]
    exact hcall
  have hclear : s.cancelDest x = v.clearOrder n .cancel := by
    rw [State.cancelDest_dialling h hline, ← hv, State.orderClear, if_pos hvcall]
  obtain ⟨hlines, -, -, -, hcontext, -, hmem, -⟩ := State.clearOrder_leaves n .cancel v
  obtain ⟨u, hdispatch, hnotices, hdests, -⟩ := State.clearOrder_settles .cancel hvcontext hx
  have hudest : u.dest x = (s.dest x).marked := by
    rw [State.dest, hdests, hset]
    exact Table.get_set_self _ _ _
  obtain ⟨hdest, hpending⟩ := State.settle_marked (given := .cancel) hudest (by decide)
  have hunit : (v.clearOrder n .cancel).lineUnit n = (v.lineUnit n).clearedBy .cancel v.now := by
    rw [State.lineUnit, hlines]
    exact Table.get_set_self _ _ _
  rw [hclear, hunit]
  refine ⟨rfl, rfl, hcontext, ?_, ?_, ?_⟩
  · rw [State.dest, hdispatch]
    exact hdest
  · rw [State.isPending, hnotices]
    exact hpending
  · rw [hmem, hset]
    rfl

/-! ## A printout's cancellation (R112, R169) -/

section Print

variable {d : Fin 64} {s : State}

theorem State.cancelPrint_rests (h : (s.doc d).obligation = .none ∨ (s.doc d).obligation = .done) : s.cancelPrint d = s := by
  unfold State.cancelPrint
  dsimp only
  obtain h | h := h <;> rw [h]

/-- The documents with a printout that is no longer owed. -/
def State.unprinted (d : Fin 64) (s : State) : Table DocRecord 64 := s.dispatch.docs.set d { s.doc d with obligation := .done }

theorem State.cancelPrint_pending (h : (s.doc d).obligation = .pending) : ∃ q, s.cancelPrint d = ({ s with
    dispatch := { s.dispatch with docs := s.unprinted d } } : State).withQueue q := by
  obtain ⟨q, hset, -⟩ := State.setDoc_form d { s.doc d with obligation := .done } s
  refine ⟨q, ?_⟩
  unfold State.cancelPrint
  dsimp only
  rw [h]
  exact hset

theorem State.leavePrintQueue_unprinted : ∃ q, (s.setDoc d { s.doc d with obligation := .done }).leavePrintQueue d = ({ s with
    dispatch := { s.dispatch with
      docs := s.unprinted d, printQueue := s.dispatch.printQueue.filter (fun e => decide (e ≠ d)) } } : State).withQueue q := by
  obtain ⟨q, hset, -⟩ := State.setDoc_form d { s.doc d with obligation := .done } s
  refine ⟨q, ?_⟩
  rw [State.leavePrintQueue, hset]
  rfl

theorem State.cancelPrint_queued (h : (s.doc d).obligation = .queued) : ∃ q, s.cancelPrint d = ({ s with
    dispatch := { s.dispatch with
      docs := s.unprinted d, printQueue := s.dispatch.printQueue.filter (fun e => decide (e ≠ d)) } } : State).withQueue q := by
  obtain ⟨q, hleft⟩ := State.leavePrintQueue_unprinted (d := d) (s := s)
  refine ⟨q, ?_⟩
  unfold State.cancelPrint
  dsimp only
  rw [h]
  exact hleft

theorem State.cancelPrint_printing (h : (s.doc d).obligation = .printing) : ∃ q, s.cancelPrint d = ({ s with
    dispatch := { s.dispatch with
      docs := s.unprinted d, printQueue := s.dispatch.printQueue.filter (fun e => decide (e ≠ d)) },
    print := { s.print.emptied with state := .docEnd, waiting := false }, path := s.path.dropRead .print,
    coder := s.coder.restart .print { s.ctx .print with isOpen := false, reference := [], repeatRun := 0, job := .none },
    ctl := { s.ctl with notices := s.ctl.notices ||| Notice.stream.bit } } : State).withQueue q := by
  obtain ⟨q₁, hleft⟩ := State.leavePrintQueue_unprinted (d := d) (s := s)
  obtain ⟨v, hv⟩ : ∃ v, v = (s.setDoc d { s.doc d with obligation := .done }).leavePrintQueue d := ⟨_, rfl⟩
  obtain ⟨q₂, hend⟩ := v.printEnd_form
  obtain ⟨q, hraise, -⟩ := State.raise_form .stream v.printEnd
  have hcancel : s.cancelPrint d = v.printEnd.raise .stream := by
    unfold State.cancelPrint
    dsimp only
    rw [h, hv]
    rfl
  refine ⟨q, ?_⟩
  rw [hcancel, hraise, hend, hv, hleft]
  rfl

end Print

end Sys2Proof.Machine

/-! PROOF. DOC CANCEL and DEST CANCEL (R112, R113). -/

namespace Sys2Proof.Machine

/-! ## Cancelling a document's pending destinations (R112) -/

/-- The destination table after the destinations of a list are cancelled. -/
def State.CancelledIn (l : List (Fin 512)) (dests : Table DestRecord 512) (s : State) : Prop :=
  ∀ x, dests.get x = if x ∈ l then (s.dest x).ended .cancelled else s.dest x

/-- While a document's destinations are cancelled one after another: the document is as it was, or, once every destination has
had its turn, COMPLETE with its pages released. -/
def State.Cancelling (d : Fin 64) (l : List (Fin 512)) (s u : State) : Prop :=
  ∃ (q : List QueueEntry) (dests : Table DestRecord 512) (docs : Table DocRecord 64) (store : StoreManager) (notices : BitVec 12),
    u = { s with
      store := store, dispatch := { s.dispatch with dests := dests, docs := docs },
      ctl := { s.ctl with queue := q, notices := notices } } ∧
    s.CancelledIn l dests ∧
    ((docs = s.dispatch.docs ∧ store = s.store ∧ (notices = s.ctl.notices ∨ notices = s.ctl.notices ||| Notice.dispatch.bit)) ∨
      ((∀ x ∈ (s.doc d).dests, x ∈ l) ∧ (s.doc d).building = false ∧
        docs = s.dispatch.docs.set d { s.doc d with complete := true } ∧
        (∃ free, store = { s.store with
          freeList := free, pages := s.store.pages.setAll (s.pageList d) PageRecord.empty }) ∧
        notices = s.ctl.notices ||| Notice.dispatch.bit))

section Cancelling

variable {d : Fin 64} {s : State} (hpending : ∀ x, x ∈ (s.doc d).dests → (s.dest x).state = .pending ∧ (s.dest x).document = d)

include hpending

/-- One destination's turn. -/
theorem State.Cancelling.cancelDest {l : List (Fin 512)} {u : State} (h : s.Cancelling d l u) {x : Fin 512}
    (hx : x ∈ (s.doc d).dests) : s.Cancelling d (l ++ [x]) (u.cancelDest x) := by
  obtain ⟨q, dests, docs, store, notices, hu, hdests, hphase⟩ := h
  have hudest : u.dest x = if x ∈ l then (s.dest x).ended .cancelled else s.dest x := by
    rw [hu]
    exact hdests x
  by_cases hl : x ∈ l
  · rw [if_pos hl] at hudest
    have hsame : u.cancelDest x = u := State.cancelDest_final (by rw [hudest]; rfl)
    have hmem (y : Fin 512) : y ∈ l ++ [x] ↔ y ∈ l := by
      rw [List.mem_append, List.mem_singleton]
      exact ⟨fun h => h.elim id fun h => h ▸ hl, .inl⟩
    refine ⟨q, dests, docs, store, notices, hsame.trans hu, fun y => ?_, ?_⟩
    · simp only [hmem]
      exact hdests y
    · simp only [hmem]
      exact hphase
  · rw [if_neg hl] at hudest
    obtain ⟨hdocs, hstore, hnotices⟩ := hphase.resolve_right fun h => hl (h.1 x hx)
    obtain ⟨hstate, hdoc⟩ := hpending x hx
    obtain ⟨v, hv⟩ : ∃ v, v = (u.setDest x ((s.dest x).ended .cancelled)).raise .dispatch := ⟨_, rfl⟩
    have hcancel : u.cancelDest x = v.checkComplete d := by
      rw [State.cancelDest_pending (by rw [hudest]; exact hstate), hudest, hv, ← hdoc]
      rfl
    have hvform : ∃ q', v = { s with
        dispatch := { s.dispatch with dests := dests.set x ((s.dest x).ended .cancelled) },
        ctl := { s.ctl with queue := q', notices := s.ctl.notices ||| Notice.dispatch.bit } } := by
      obtain ⟨q₁, hset, -⟩ := State.setDest_form x ((s.dest x).ended .cancelled) u
      obtain ⟨q', hraise, -⟩ := State.raise_form .dispatch (u.setDest x ((s.dest x).ended .cancelled))
      refine ⟨q', ?_⟩
      have hbits : notices ||| Notice.dispatch.bit = s.ctl.notices ||| Notice.dispatch.bit :=
        hnotices.elim (fun h => by rw [h]) fun h => by rw [h, or_or_self]
      rw [hv, hraise, hset, hu, hdocs, hstore, ← hbits]
      rfl
    obtain ⟨q', hvq⟩ := hvform
    have hcancelled : s.CancelledIn (l ++ [x]) (dests.set x ((s.dest x).ended .cancelled)) := by
      intro y
      rw [Table.get_set]
      by_cases hy : y = x
      · rw [if_pos hy.symm, hy, if_pos (by simp)]
      · rw [if_neg (Ne.symm hy), hdests y]
        simp only [List.mem_append, List.mem_singleton, hy, or_false]
    have hvdoc : v.doc d = s.doc d := by rw [hvq]; rfl
    by_cases hcompletes : (v.doc d).inUse = true ∧ (v.doc d).complete = false ∧ v.hasObligation d = false
    · obtain ⟨huse, hcomplete, hnone⟩ := hcompletes
      have howes : ¬_ := mt (State.hasObligation_iff d v).mpr (Bool.eq_false_iff.mp hnone)
      push_neg at howes
      obtain ⟨hbuilding, -, -, -, -, hfinal⟩ := howes
      obtain ⟨q'', free, hchecked⟩ := State.checkComplete_completes huse hcomplete hnone
      refine ⟨q'', _, s.dispatch.docs.set d { s.doc d with complete := true }, { s.store with
        freeList := free, pages := s.store.pages.setAll (s.pageList d) PageRecord.empty },
        s.ctl.notices ||| Notice.dispatch.bit, ?_, hcancelled, .inr ⟨fun y hy => ?_, ?_, rfl, ⟨free, rfl⟩, rfl⟩⟩
      · rw [hcancel, hchecked, hvdoc, hvq]
        dsimp only
        rw [or_or_self]
        rfl
      · by_contra hyl
        have hydest : v.dest y = s.dest y := by
          rw [hvq]
          exact (hcancelled y).trans (if_neg hyl)
        have hyfinal := hfinal y (by rw [hvdoc]; exact hy)
        rw [hydest, (hpending y hy).1] at hyfinal
        exact hyfinal rfl
      · rw [hvdoc] at hbuilding
        exact Bool.eq_false_iff.mpr hbuilding
    · have hsame : v.checkComplete d = v := if_neg hcompletes
      exact ⟨q', _, s.dispatch.docs, s.store, _, (hcancel.trans hsame).trans hvq, hcancelled, .inl ⟨rfl, rfl, .inr rfl⟩⟩

theorem State.Cancelling.foldl {l rest : List (Fin 512)} {u : State} (h : s.Cancelling d l u)
    (hrest : ∀ x ∈ rest, x ∈ (s.doc d).dests) : s.Cancelling d (l ++ rest) (rest.foldl State.cancelDest u) := by
  induction rest generalizing l u with
  | nil => simpa using h
  | cons x rest ih =>
    have := ih (h.cancelDest hpending (hrest x List.mem_cons_self)) fun y hy => hrest y (List.mem_cons_of_mem _ hy)
    simpa using this

end Cancelling

/-- All destinations of the document cancelled. -/
theorem State.cancelDests {d : Fin 64} {s : State}
    (hpend : ∀ x, x ∈ (s.doc d).dests → (s.dest x).state = .pending ∧ (s.dest x).document = d) :
    s.Cancelling d (s.doc d).dests ((s.doc d).dests.foldl State.cancelDest s) := by
  have hstart : s.Cancelling d [] s :=
    ⟨s.ctl.queue, s.dispatch.dests, s.dispatch.docs, s.store, s.ctl.notices, rfl, fun x => by simp [State.dest],
      .inl ⟨rfl, rfl, .inl rfl⟩⟩
  exact hstart.foldl hpend fun _ h => h

/-! ## The commands -/

theorem State.beingWritten_iff (d : Fin 64) (s : State) : s.beingWritten d = true ↔
    (s.scan.state ≠ .closed ∧ s.scan.document = d) ∨
      ∃ n, (s.stream n).direction = .receive ∧ (s.stream n).state ≠ .closed ∧ (s.stream n).callDoc = some d := by
  simp only [State.beingWritten, Bool.or_eq_true, Bool.and_eq_true, decide_eq_true_eq, Table.any_eq_true, and_assoc]
  rfl

section Commands

variable {s : State} (hrun : s.ctl.engine = .running)

include hrun

theorem State.cmdDocCancel_of_eq {document : BitVec 8} {d : Fin 64} (hd : document.toNat = d.val) :
    State.cmdDocCancel document s =
      if (s.doc d).inUse = false then s.not .notFound
      else if s.beingWritten d then s.not .busy
      else if (s.doc d).complete then s.okay []
      else ((((s.doc d).dests.foldl State.cancelDest s).cancelPrint d).checkComplete d).okay [] := by
  rw [State.cmdDocCancel, State.inRunning_taken _ hrun, indexBelow_of_eq d hd]

theorem State.cmdDocCancel_cancels {document : BitVec 8} {d : Fin 64} (hd : document.toNat = d.val) (huse : (s.doc d).inUse = true)
    (hcomplete : (s.doc d).complete = false) (hwritten : s.beingWritten d = false) :
    State.cmdDocCancel document s =
      ((((s.doc d).dests.foldl State.cancelDest s).cancelPrint d).checkComplete d).okay [] := by
  rw [State.cmdDocCancel_of_eq hrun hd, if_neg (by rw [huse]; decide), if_neg (by rw [hwritten]; decide),
    if_neg (by rw [hcomplete]; decide)]

theorem State.cmdDestCancel_of_eq {destination : BitVec 16} {x : Fin 512} (hx : destination.toNat = x.val) :
    State.cmdDestCancel destination s =
      if (s.dest x).inUse = false then s.not .notFound
      else ((s.cancelDest x).checkComplete (s.dest x).document).okay [] := by
  rw [State.cmdDestCancel, State.inRunning_taken _ hrun, indexBelow_of_eq x hx]

theorem State.cmdDestCancel_cancels {destination : BitVec 16} {x : Fin 512} (hx : destination.toNat = x.val)
    (huse : (s.dest x).inUse = true) : State.cmdDestCancel destination s =
      ((s.cancelDest x).checkComplete (s.dest x).document).okay [] := by
  rw [State.cmdDestCancel_of_eq hrun hx, if_neg (by rw [huse]; decide)]

end Commands

/-- The cancellation of a destination that has no call, of a document that builds on. -/
theorem State.cancelDest_undialled {x : Fin 512} {s : State} (hbuilding : (s.doc (s.dest x).document).building = true)
    (hstate : (s.dest x).state = .pending ∨ (s.dest x).state = .waiting) : ∃ q, s.cancelDest x = { s with
      dispatch := { s.dispatch with
        dests := s.dispatch.dests.set x ((s.dest x).ended .cancelled),
        retryTimers := if (s.dest x).state = .waiting then s.dispatch.retryTimers.set x none else s.dispatch.retryTimers },
      ctl := { s.ctl with queue := q, notices := s.ctl.notices ||| Notice.dispatch.bit } } ∧
    QueueEntry.record (.destination x) ∈ q := by
  obtain ⟨v, hv⟩ : ∃ v : State, v = { s with dispatch := { s.dispatch with
    retryTimers := if (s.dest x).state = .waiting then s.dispatch.retryTimers.set x none else s.dispatch.retryTimers } } := ⟨_, rfl⟩
  have hvdest : v.dest x = s.dest x := by rw [hv]; rfl
  have hvdoc (e : Fin 64) : v.doc e = s.doc e := by rw [hv]; rfl
  have hcancel : s.cancelDest x = v.becomeFinal x (s.dest x) .cancelled := by
    obtain h | h := hstate
    · rw [State.cancelDest_pending h, hv, if_neg (by rw [h]; decide)]
    · rw [State.cancelDest_waiting h, hv, if_pos h]
      rfl
  have hchanged : (s.dest x).ended .cancelled ≠ v.dest x := by
    intro h
    rw [hvdest] at h
    have hsame := congrArg DestRecord.state h
    obtain h | h := hstate <;> rw [h] at hsame <;> cases hsame
  obtain ⟨q₁, hset, -, hqueued⟩ := State.setDest_form x ((s.dest x).ended .cancelled) v
  obtain ⟨q, hraise, hkeeps⟩ := State.raise_form .dispatch (v.setDest x ((s.dest x).ended .cancelled))
  have hchain : v.becomeFinal x (s.dest x) .cancelled =
      ((v.setDest x ((s.dest x).ended .cancelled)).raise .dispatch).checkComplete (s.dest x).document := rfl
  have hdoc : (((v.setDest x ((s.dest x).ended .cancelled)).raise .dispatch).doc (s.dest x).document).building = true := by
    rw [hraise, hset]
    exact (congrArg DocRecord.building (hvdoc _)).trans hbuilding
  rw [hset] at hkeeps
  refine ⟨q, ?_, hkeeps _ (hqueued hchanged)⟩
  rw [hcancel, hchain, State.checkComplete_of_building hdoc, hraise, hset, hv]
  rfl

/-- DOC CANCEL of a document whose destinations are pending and whose printout is not owed, where it then owes nothing. -/
theorem State.docCancel_completes {d : Fin 64} {s : State} (huse : (s.doc d).inUse = true) (hcomplete : (s.doc d).complete = false)
    (hbuilding : (s.doc d).building = false) (hprint : (s.doc d).obligation = .none ∨ (s.doc d).obligation = .done)
    (hpending : ∀ x, x ∈ (s.doc d).dests → (s.dest x).state = .pending ∧ (s.dest x).document = d)
    (hpages : ∀ p, p ∈ s.pageList d → (s.page p).state ≠ .writing) :
    ∃ q dests free, (((s.doc d).dests.foldl State.cancelDest s).cancelPrint d).checkComplete d = { s with
      store := { s.store with freeList := free, pages := s.store.pages.setAll (s.pageList d) PageRecord.empty },
      dispatch := { s.dispatch with dests := dests, docs := s.dispatch.docs.set d { s.doc d with complete := true } },
      ctl := { s.ctl with queue := q, notices := s.ctl.notices ||| Notice.dispatch.bit } } ∧
    s.CancelledIn (s.doc d).dests dests := by
  obtain ⟨q, dests, docs, store, notices, hu, hdests, hphase⟩ := State.cancelDests hpending
  obtain ⟨u, hudef⟩ : ∃ u, u = (s.doc d).dests.foldl State.cancelDest s := ⟨_, rfl⟩
  rw [← hudef] at hu
  rw [← hudef]
  obtain ⟨hdocs, hstore, hnotices⟩ | ⟨-, -, hdocs, ⟨free, hstore⟩, hnotices⟩ := hphase
  · have hudoc : u.doc d = s.doc d := by rw [hu, hdocs]; rfl
    have hnone : u.hasObligation d = false := by
      refine Bool.eq_false_iff.mpr fun h => ?_
      have howes := (State.hasObligation_iff d u).mp h
      rw [hudoc] at howes
      obtain h | h | h | h | ⟨p, hp, hwriting⟩ | ⟨x, hx, hfinal⟩ := howes
      · rw [hbuilding] at h
        cases h
      · rw [h] at hprint
        exact hprint.elim nofun nofun
      · rw [h] at hprint
        exact hprint.elim nofun nofun
      · rw [h] at hprint
        exact hprint.elim nofun nofun
      · rw [hu] at hp hwriting
        rw [hstore] at hwriting
        exact hpages p hp hwriting
      · have hxdest : u.dest x = (s.dest x).ended .cancelled := by
          rw [hu]
          exact (hdests x).trans (if_pos hx)
        rw [hxdest] at hfinal
        cases hfinal
    obtain ⟨q', free, hchecked⟩ := State.checkComplete_completes (s := u) (by rw [hudoc]; exact huse)
      (by rw [hudoc]; exact hcomplete) hnone
    refine ⟨q', dests, free, ?_, hdests⟩
    have hbits : u.ctl.notices ||| Notice.dispatch.bit = s.ctl.notices ||| Notice.dispatch.bit := by
      rw [hu]
      exact hnotices.elim (fun h => by rw [h]) fun h => by rw [h, or_or_self]
    rw [State.cancelPrint_rests (by rw [hudoc]; exact hprint), hchecked, hbits, hudoc, hu, hdocs, hstore]
    rfl
  · have hudoc : u.doc d = { s.doc d with complete := true } := by
      rw [hu, hdocs]
      exact Table.get_set_self _ _ _
    refine ⟨q, dests, free, ?_, hdests⟩
    rw [State.cancelPrint_rests (by rw [hudoc]; exact hprint), State.checkComplete_rests (.inr (.inl (by rw [hudoc]))), hu, hdocs,
      hstore, hnotices]

/-- Settles O46: the commands by their checks, the destinations by `State.cancelDests`, the parts by the laws above. -/
theorem docCancelAndDestCancel : Obligations.DocCancelAndDestCancel := by
  refine ⟨fun document s hup hrun => ?doc, fun destination s hup hrun => ?dest, fun document d s hup hrun hd huse hcomplete hwritten => ?chain,
    fun destination x s hup hrun hx huse => ?destChain, fun x s => ?cancel, fun d s => ?print, fun d s => ?complete⟩
  case doc =>
    have hrow := exec_ringCommand (c := .docCancel document) rfl s
    refine ⟨fun hbad => State.ring_command_answers hup hrow (?_ : State.cmdDocCancel document s = s.not .badArg), fun d hd => ?_⟩
    · rw [State.cmdDocCancel, State.inRunning_taken _ hrun, indexBelow_of_le hbad]
    · intro r
      have hcmd := State.cmdDocCancel_of_eq hrun hd
      rw [← State.beingWritten_iff]
      refine ⟨fun huse => State.ring_command_answers hup hrow (hcmd.trans (if_pos huse)), fun huse => ?_⟩
      rw [if_neg (by rw [show (s.doc d).inUse = true from huse]; decide)] at hcmd
      refine ⟨fun hbusy => State.ring_command_answers hup hrow (hcmd.trans (if_pos hbusy)), fun hwritten => ?_⟩
      rw [if_neg hwritten] at hcmd
      refine ⟨fun hcomplete => State.ring_command_answers hup hrow (hcmd.trans (if_pos hcomplete)),
        fun hcomplete hbuilding hprint hpending hpages => ?_⟩
      rw [if_neg (by rw [show (s.doc d).complete = false from hcomplete]; decide)] at hcmd
      obtain ⟨q, dests, free, hcancelled, hdests⟩ := State.docCancel_completes huse hcomplete hbuilding hprint hpending hpages
      refine State.ring_command_leaves _ hup hrow hcmd ?_
      rw [hcancelled]
      refine ⟨fun x hx => (hdests x).trans (if_pos hx), fun x hx => (hdests x).trans (if_neg hx), Table.get_set_self _ _ _,
        fun e he => Table.get_set_of_ne _ _ he.symm, fun p hp => ?_, fun p hp => ?_, rfl, rfl, rfl, rfl, rfl, rfl, rfl, rfl⟩
      · exact (Table.get_setAll _ _ _ _).trans (if_pos hp)
      · exact (Table.get_setAll _ _ _ _).trans (if_neg hp)
  case dest =>
    have hrow := exec_ringCommand (c := .destCancel destination) rfl s
    refine ⟨fun hbad => State.ring_command_answers hup hrow (?_ : State.cmdDestCancel destination s = s.not .badArg), fun x hx => ?_⟩
    · rw [State.cmdDestCancel, State.inRunning_taken _ hrun, indexBelow_of_le hbad]
    · intro r
      have hcmd := State.cmdDestCancel_of_eq hrun hx
      refine ⟨fun huse => State.ring_command_answers hup hrow (hcmd.trans (if_pos huse)), fun huse hbuilding => ?_⟩
      rw [if_neg (by rw [show (s.dest x).inUse = true from huse]; decide)] at hcmd
      refine ⟨fun hfinal => ?_, fun hstate => ?_, fun n c hstate hline hcall hc hdest => ?_, fun n hstate hline => ?_⟩
      · rw [State.cancelDest_final hfinal, State.checkComplete_of_building hbuilding] at hcmd
        exact State.ring_command_answers hup hrow hcmd
      · obtain ⟨q, hcancel, hqueued⟩ := State.cancelDest_undialled hbuilding hstate
        rw [State.checkComplete_of_building (by rw [hcancel]; exact hbuilding), hcancel] at hcmd
        exact State.ring_command_leaves _ hup hrow hcmd ⟨rfl, hqueued⟩
      · obtain ⟨hclearing, hcause, hcontext, hended, hpending, hmem⟩ :=
          State.cancelDest_dialling_leaves hstate hline hcall hc hdest
        obtain ⟨v, hv⟩ : ∃ v, v = s.cancelDest x := ⟨_, rfl⟩
        obtain ⟨w, hw⟩ : ∃ w, w = v.checkComplete r.document := ⟨_, rfl⟩
        rw [← hv] at hclearing hcause hcontext hended hpending hmem hcmd
        have hwpending : w.isPending .dispatch = true := hw ▸ (State.checkComplete_notices _ _).pending hpending
        obtain ⟨q, store, docs, notices, hcheck, -⟩ := State.checkComplete_form r.document v
        rw [← hw] at hcheck hcmd
        refine ⟨w.noteResult ⟨.ok, []⟩, exec_done (c := .destCancel destination) rfl hup hcmd, ?_⟩
        have hlines : w.lines = v.lines ∧ w.charge = v.charge ∧ w.dispatch.dests = v.dispatch.dests ∧ w.mem = v.mem := by
          rw [hcheck]
          exact ⟨rfl, rfl, rfl, rfl⟩
        obtain ⟨hlines, hcharge, hdests, hwmem⟩ := hlines
        refine ⟨?_, ?_, ?_, ?_, hwpending, rfl, hwmem.trans hmem⟩
        · exact (congrArg (fun l : Table LineUnit 4 => (l.get n).record.state) hlines).trans hclearing
        · exact (congrArg (fun l : Table LineUnit 4 => (l.get n).record.lastCause) hlines).trans hcause
        · exact (congrArg (fun g : ChargeUnit => g.contexts.get n) hcharge).trans hcontext
        · exact (congrArg (fun l : Table DestRecord 512 => l.get x) hdests).trans hended
      · intro y
        obtain ⟨q, hq⟩ := State.cancelDest_sending_form hstate hline
        rw [State.checkComplete_of_building (by rw [hq]; exact hbuilding), hq] at hcmd
        exact State.ring_command_leaves _ hup hrow hcmd rfl
  case chain =>
    have hcmd := State.cmdDocCancel_cancels hrun hd huse hcomplete hwritten
    refine ⟨exec_done (c := .docCancel document) rfl hup hcmd, fun hbuilding hprint hpending => ?_⟩
    obtain ⟨q, dests, docs, store, notices, hu, hdests, hphase⟩ := State.cancelDests hpending
    obtain ⟨hdocs, hstore, -⟩ := hphase.resolve_right fun ⟨_, h, _⟩ => by
      rw [hbuilding] at h
      cases h
    obtain ⟨u, hudef⟩ : ∃ u, u = (s.doc d).dests.foldl State.cancelDest s := ⟨_, rfl⟩
    rw [← hudef] at hu hcmd
    have hudoc : u.doc d = s.doc d := by rw [hu, hdocs]; rfl
    rw [State.cancelPrint_rests (by rw [hudoc]; exact hprint), State.checkComplete_of_building (by rw [hudoc]; exact hbuilding)] at hcmd
    refine State.ring_command_leaves _ hup (exec_ringCommand (c := .docCancel document) rfl s) hcmd ?_
    rw [hu]
    exact ⟨hdocs, fun x hx => (hdests x).trans (if_pos hx), fun x hx => (hdests x).trans (if_neg hx), hstore, rfl⟩
  case destChain => exact exec_done (c := .destCancel destination) rfl hup (State.cmdDestCancel_cancels hrun hx huse)
  case cancel =>
    intro r set
    refine ⟨State.cancelDest_final, State.cancelDest_pending, State.cancelDest_waiting, fun n hstate hline => ?_,
      fun n hstate hline => ?_, fun final => ?_⟩
    · obtain ⟨q, hset, -⟩ := State.setDest_form x r.marked s
      refine ⟨s.setDest x r.marked, State.eq_of_bare ?_ rfl, ?_⟩
      · rw [hset]
        rfl
      · have hlines : (s.setDest x r.marked).lineUnit n = s.lineUnit n := by
          rw [hset]
          rfl
        rw [State.cancelDest_dialling hstate hline, State.orderClear, hlines]
    · intro y
      obtain ⟨q, hq⟩ := State.cancelDest_sending_form hstate hline
      refine State.eq_of_bare ?_ rfl
      rw [hq]
      rfl
    · refine ⟨(s.setDest x (r.ended final)).raise .dispatch, rfl, State.eq_of_bare ?_ rfl⟩
      rw [State.bare_raise, State.bare_setDest, State.setDest_ctl_notices]
      rfl
  case print =>
    intro r queue done t
    refine ⟨State.cancelPrint_rests, fun h => ?_, fun h => ?_, fun h => ?_⟩
    · obtain ⟨q, hq⟩ := State.cancelPrint_pending h
      rw [show t = _ from hq]
      exact ⟨rfl, rfl⟩
    · obtain ⟨q, hq⟩ := State.cancelPrint_queued h
      rw [show t = _ from hq]
      exact ⟨rfl, rfl⟩
    · obtain ⟨q, hq⟩ := State.cancelPrint_printing h
      rw [show t = _ from hq]
      exact ⟨rfl, rfl, rfl, rfl⟩
  case complete =>
    intro r owes
    have howes : owes ↔ s.hasObligation d = true := (State.hasObligation_iff d s).symm
    rw [howes]
    refine ⟨State.checkComplete_rests, fun huse hcomplete hnone => ?_, fun p => ?_⟩
    · refine ⟨_, State.checkComplete_released huse hcomplete (Bool.eq_false_iff.mpr hnone), State.eq_of_bare ?_ rfl⟩
      obtain ⟨q, hcompleted⟩ := State.completed_form d s
      rw [hcompleted]
      rfl
    · obtain ⟨q, hq⟩ := State.releasePage_form p s
      refine State.eq_of_bare ?_ rfl
      rw [hq]
      rfl

end Sys2Proof.Machine

/-! PROOF. CALL ANSWER, ANSWER SEEN and CALL END, and the settlement of a call (R123, R124, R131, R132, R135, R136, R189, R193). -/

namespace Sys2Proof.Machine

/-! ## What charging leaves alone -/

/-- The charge unit, the arbiter's mark, the free count, the notices and the queue alone differ; no notice is lost. -/
def State.OnlyCharge (s t : State) : Prop :=
  (∃ q charge due notices k, t = { s with
    freeCount := k, charge := charge, dispatch := { s.dispatch with arbiterDue := due },
    ctl := { s.ctl with queue := q, notices := notices } }) ∧ s.NoticesIn t

namespace State.OnlyCharge

theorem refl (s : State) : s.OnlyCharge s := ⟨⟨_, _, _, _, _, rfl⟩, .of_eq rfl⟩

theorem trans {s t u : State} (h : s.OnlyCharge t) (k : t.OnlyCharge u) : s.OnlyCharge u := by
  obtain ⟨⟨q, charge, due, notices, c, rfl⟩, hn⟩ := h
  obtain ⟨⟨q', charge', due', notices', c', rfl⟩, kn⟩ := k
  exact ⟨⟨q', charge', due', notices', c', rfl⟩, hn.trans kn⟩

theorem setContext (n : Fin 4) (c : Option CallContext) (s : State) : s.OnlyCharge (s.setContext n c) := by
  obtain ⟨q, hq, -⟩ := State.setContext_form n c s
  rw [hq]
  exact ⟨⟨q, _, s.dispatch.arbiterDue, s.ctl.notices, s.freeCount, rfl⟩, .of_eq rfl⟩

theorem modContext (n : Fin 4) (f : CallContext → CallContext) (s : State) : s.OnlyCharge (s.modContext n f) := by
  obtain ⟨q, hq⟩ := State.modContext_form n f s
  rw [hq]
  exact ⟨⟨q, _, s.dispatch.arbiterDue, s.ctl.notices, s.freeCount, rfl⟩, .of_eq rfl⟩

theorem setAccount (a : Fin 32) (x : Account) (s : State) : s.OnlyCharge (s.setAccount a x) := by
  obtain ⟨q, hq, -⟩ := State.setAccount_form a x s
  rw [hq]
  exact ⟨⟨q, _, s.dispatch.arbiterDue, s.ctl.notices, s.freeCount, rfl⟩, .of_eq rfl⟩

theorem askArbiter (s : State) : s.OnlyCharge s.askArbiter :=
  ⟨⟨s.ctl.queue, s.charge, true, s.ctl.notices, s.freeCount, rfl⟩, .of_eq rfl⟩

theorem bump32 (x : BitVec 32) (s : State) : s.OnlyCharge (s.bump32 x).2 := by
  unfold State.bump32
  split
  · exact ⟨⟨s.ctl.queue, s.charge, s.dispatch.arbiterDue, s.ctl.notices, s.freeCount + 1, rfl⟩, .of_eq rfl⟩
  · exact refl s

theorem judgeBudget (a : Fin 32) (s : State) : s.OnlyCharge (s.judgeBudget a) := by
  obtain ⟨q, contexts, due, hq, -⟩ := State.judgeBudget_form a s
  rw [hq]
  refine ⟨⟨q, _, due, _, s.freeCount, rfl⟩, ?_⟩
  by_cases h : (s.account a).atBudget = false ∧ (s.account a).overBudget = true
  · exact ⟨Notice.budget.bit, if_pos h⟩
  · exact .of_eq (if_neg h)

theorem chargeUnit (n : Fin 4) (s : State) : s.OnlyCharge (s.chargeUnit n) := by
  unfold State.chargeUnit
  split
  · exact refl s
  · exact (((((bump32 _ s).trans (setContext ..)).trans (bump32 ..)).trans (setAccount ..)).trans (askArbiter _)).trans
      (judgeBudget ..)

theorem answerContext (n : Fin 4) (byPulse : Bool) (s : State) : s.OnlyCharge (s.answerContext n byPulse) := by
  unfold State.answerContext State.startCharging
  split
  · exact refl s
  · next c _ =>
    obtain ⟨v, hv⟩ : ∃ v, v = s.setContext n (some
        { c with
          answerTime := some s.charge.clock, answeredAt := some s.now,
          qualified := if byPulse then c.qualified + 1 else c.qualified }) := ⟨_, rfl⟩
    have hset : s.OnlyCharge v := hv ▸ setContext ..
    dsimp only
    rw [← hv]
    refine hset.trans (OnlyCharge.trans ?_ (modContext ..))
    split
    · exact (chargeUnit ..).trans (modContext ..)
    · split
      · exact chargeUnit ..
      · exact refl _
    · exact refl _

theorem countPulse (n : Fin 4) (qualified : Bool) (s : State) : s.OnlyCharge (s.countPulse n qualified) := by
  unfold State.countPulse
  split
  · exact refl s
  · next c _ =>
    split
    · obtain ⟨v, hv⟩ : ∃ v, v = s.setContext n (some { c with qualified := c.qualified + 1 }) := ⟨_, rfl⟩
      have hset : s.OnlyCharge v := hv ▸ setContext ..
      dsimp only
      rw [← hv]
      refine hset.trans ?_
      split
      · exact chargeUnit ..
      · exact refl _
    · exact setContext ..

variable {s t : State} (h : s.OnlyCharge t)

include h

/-- The parts that charging does not touch. -/
theorem leaves : t.mem = s.mem ∧ t.store = s.store ∧ t.streams = s.streams ∧ t.lines = s.lines ∧ t.now = s.now ∧
    t.dispatch.docs = s.dispatch.docs ∧ t.dispatch.dests = s.dispatch.dests ∧ t.ctl.teardown = s.ctl.teardown := by
  obtain ⟨⟨q, charge, due, notices, k, rfl⟩, -⟩ := h
  exact ⟨rfl, rfl, rfl, rfl, rfl, rfl, rfl, rfl⟩

theorem pending {f : Notice} (hf : s.isPending f = true) : t.isPending f = true := h.2.pending hf

end State.OnlyCharge

/-! ## Answering (R123, R131, R189) -/

/-- A call's context as its answer is told, before its first units are charged. -/
def CallContext.answeredAtTime (clock : ClockValue) (now : Nat) (c : CallContext) : CallContext :=
  { c with answerTime := some clock, answeredAt := some now }

/-- The answer that the host tells of a METER call charges nothing yet (R189). -/
theorem State.answerContext_meter {n : Fin 4} {c : CallContext} {s : State} (hc : s.context n = some c) (hmethod : c.method = .meter) :
    (s.answerContext n false).charge = { s.charge with
      contexts := s.charge.contexts.set n (some (({ c.answeredAtTime s.charge.clock s.now with phase := .charging } :
        CallContext).policed (s.account c.account) s.now)) } := by
  obtain ⟨q, hset, -⟩ := State.setContext_form n (some (c.answeredAtTime s.charge.clock s.now)) s
  obtain ⟨v, hv⟩ : ∃ v, v = s.setContext n (some (c.answeredAtTime s.charge.clock s.now)) := ⟨_, rfl⟩
  have hanswer : s.answerContext n false = v.startCharging n := by
    subst hv
    unfold State.answerContext
    rw [hc]
    dsimp only
    split
    · next h => cases hmethod.symm.trans h
    · rfl
    · next h => cases hmethod.symm.trans h
  rw [← hv] at hset
  have hvcontext : v.context n = some (c.answeredAtTime s.charge.clock s.now) := by
    rw [hset]
    exact Table.get_set_self _ _ _
  obtain ⟨q', hmod⟩ := State.modContext_form n
    (fun c => ({ c with phase := .charging } : CallContext).policed (v.account c.account) v.now) v
  rw [hanswer, State.startCharging, hmod, hvcontext]
  refine Eq.trans (b := { v.charge with contexts := v.charge.contexts.set n (some (({ c.answeredAtTime s.charge.clock s.now with
    phase := .charging } : CallContext).policed (v.account c.account) v.now)) }) rfl ?_
  rw [hset]
  exact congrArg (fun l => ({ s.charge with contexts := l } : ChargeUnit)) (Table.set_set ..)

/-- A line whose outgoing call is answered. -/
def LineUnit.answered (source : AnswerSource) (u : LineUnit) : LineUnit :=
  { u with record := { u.record with state := .connected, answerSource := source }, noAnswer := none }

/-- What an answer leaves: the line, LINE raised, and what charging changes. -/
theorem State.callAnswered_form (n : Fin 4) (source : AnswerSource) (s : State) : ∃ v : State,
    s.callAnswered n source = v.answerContext n (decide (source = .meter)) ∧
    ∃ q, v = { s with
      lines := s.lines.set n ((s.lineUnit n).answered source),
      ctl := { s.ctl with queue := q, notices := s.ctl.notices ||| Notice.line.bit } } := by
  obtain ⟨q₁, hset, -⟩ := State.setLine_form n ((s.lineUnit n).answered source) s
  obtain ⟨q, hraise, -⟩ := State.raise_form .line (s.setLine n ((s.lineUnit n).answered source))
  refine ⟨(s.setLine n ((s.lineUnit n).answered source)).raise .line, rfl, q, ?_⟩
  rw [hraise, hset]
  rfl

/-- An answered call's line, its notice, and the parts that the answer leaves alone. -/
theorem State.callAnswered_leaves (n : Fin 4) (source : AnswerSource) (s : State) :
    (s.callAnswered n source).lines = s.lines.set n ((s.lineUnit n).answered source) ∧
    (s.callAnswered n source).isPending .line = true ∧ (s.callAnswered n source).mem = s.mem ∧
    (s.callAnswered n source).store = s.store ∧ (s.callAnswered n source).streams = s.streams ∧
    (s.callAnswered n source).now = s.now := by
  obtain ⟨v, hanswer, q, hv⟩ := State.callAnswered_form n source s
  have honly := State.OnlyCharge.answerContext n (decide (source = .meter)) v
  obtain ⟨hmem, hstore, hstreams, hlines, hnow, -⟩ := honly.leaves
  rw [hanswer]
  have hvpending : v.isPending .line = true := by
    rw [hv]
    exact Notice.pending_of_or (x := s.ctl.notices) rfl
  exact ⟨by rw [hlines, hv], honly.pending hvpending, by rw [hmem, hv], by rw [hstore, hv], by rw [hstreams, hv], by rw [hnow, hv]⟩

theorem State.callAnswered_meter {n : Fin 4} {c : CallContext} {source : AnswerSource} {s : State} (hc : s.context n = some c)
    (hmethod : c.method = .meter) (hsource : source ≠ .meter) : (s.callAnswered n source).charge = { s.charge with
      contexts := s.charge.contexts.set n (some (({ c.answeredAtTime s.charge.clock s.now with phase := .charging } :
        CallContext).policed (s.account c.account) s.now)) } := by
  obtain ⟨v, hanswer, q, hv⟩ := State.callAnswered_form n source s
  have hvcontext : v.context n = some c := by
    rw [hv]
    exact hc
  rw [hanswer, decide_eq_false hsource, State.answerContext_meter hvcontext hmethod, hv]
  rfl

/-- The context of an incoming call, opened at its answer (R188). -/
def CallContext.openedIncoming (clock : ClockValue) (clockSet : Bool) (now : Nat) : CallContext :=
  { account := 0, incoming := true, destination := none, document := none, number := [], cls := 0, band := 0,
    method := .none, phase := .charging, seizeTime := clock, clockWasSet := clockSet,
    answerTime := some clock, answeredAt := some now, units := 0, qualified := 0, rejected := 0,
    pagesConfirmed := 0, unitTimer := none, graceTimer := none }

/-- A line that has answered an incoming call. -/
def LineUnit.answering (now : Nat) (u : LineUnit) : LineUnit :=
  { u with
    record := { u.record with
      state := .connected, callDirection := .incoming, destination := none, answerSource := .none, ringCount := 0,
      answerRefusal := .none },
    offHook := true, loopLoss := some (now + 400000) }

/-- A line answers an incoming call (R123). -/
theorem State.answer_form (n : Fin 4) (s : State) : ∃ q notices, s.answer n = { s with
    lines := s.lines.set n ((s.lineUnit n).answering s.now),
    charge := { s.charge with
      reservations := s.charge.reservations + 1,
      contexts := s.charge.contexts.set n (some (CallContext.openedIncoming s.charge.clock s.charge.clockSet s.now)) },
    ctl := { s.ctl with queue := q, notices := notices ||| Notice.line.bit } } := by
  obtain ⟨q₁, htake⟩ := s.takeReservation_form
  obtain ⟨v, hv⟩ : ∃ v, v = s.takeReservation := ⟨_, rfl⟩
  rw [← hv] at htake
  obtain ⟨q₂, hcontext, -⟩ := State.setContext_form n
    (some (CallContext.openedIncoming v.charge.clock v.charge.clockSet v.now)) v
  obtain ⟨w, hw⟩ : ∃ w, w = v.setContext n (some (CallContext.openedIncoming v.charge.clock v.charge.clockSet v.now)) := ⟨_, rfl⟩
  rw [← hw] at hcontext
  obtain ⟨q₃, hline, -⟩ := State.setLine_form n ((w.lineUnit n).answering w.now) w
  obtain ⟨q, hraise, -⟩ := State.raise_form .line (w.setLine n ((w.lineUnit n).answering w.now))
  have hanswer : s.answer n = (w.setLine n ((w.lineUnit n).answering w.now)).raise .line := by
    rw [hw, hv]
    rfl
  refine ⟨q, w.ctl.notices, ?_⟩
  rw [hanswer, hraise, hline, hcontext, htake]
  rfl

theorem State.freeDocEntry_ne_none {s : State} (h : ∃ d, (s.doc d).inUse = false) : s.freeDocEntry ≠ none := by
  obtain ⟨d, hd⟩ := h
  obtain ⟨e, he, -⟩ := Table.first_eq_some (t := s.dispatch.docs) (p := fun r => !r.inUse) ⟨d, Bool.not_eq_true' _ ▸ hd⟩
  rw [State.freeDocEntry, he]
  exact nofun

theorem State.answerLacks_entry {s : State} (h : ∀ d, (s.doc d).inUse = true) : s.answerLacks = .entry :=
  if_pos (State.freeDocEntry_of_full h)

theorem State.answerLacks_of_entry {s : State} (h : ∃ d, (s.doc d).inUse = false) :
    s.answerLacks = if s.mayReserve then .none else .log := if_neg (State.freeDocEntry_ne_none h)

/-- A refused answer: the line rings on with the reason shown. -/
theorem State.modRecord_form (n : Fin 4) (f : LineRecord → LineRecord) (s : State) : ∃ q, s.modRecord n f = ({ s with
    lines := s.lines.set n { s.lineUnit n with record := f (s.lineUnit n).record } } : State).withQueue q := by
  obtain ⟨q, hset, -⟩ := State.setLine_form n { s.lineUnit n with record := f (s.lineUnit n).record } s
  exact ⟨q, hset⟩

/-! ## The commands -/

section Commands

variable {line : BitVec 8} {n : Fin 4} {s : State} (hrun : s.ctl.engine = .running) (hline : line.toNat = n.val)

include hrun hline

theorem State.cmdCallAnswer_bad (h : (s.lineUnit n).record.active.rings ≠ 0) : State.cmdCallAnswer line s = s.not .badArg := by
  rw [State.cmdCallAnswer, State.inRunning_taken _ hrun, indexBelow_of_eq n hline]
  exact if_pos h

theorem State.cmdCallAnswer_busy (h : (s.lineUnit n).record.active.rings = 0) (hstate : (s.lineUnit n).record.state ≠ .ringing) :
    State.cmdCallAnswer line s = s.not .busy := by
  rw [State.cmdCallAnswer, State.inRunning_taken _ hrun, indexBelow_of_eq n hline]
  exact (if_neg (not_not.mpr h)).trans (if_pos hstate)

section Ringing

variable (h : (s.lineUnit n).record.active.rings = 0) (hstate : (s.lineUnit n).record.state = .ringing)

include h hstate

theorem State.cmdCallAnswer_entry (hlacks : s.answerLacks = .entry) :
    State.cmdCallAnswer line s = s.answerRefused n .entry .noSpace := by
  rw [State.cmdCallAnswer, State.inRunning_taken _ hrun, indexBelow_of_eq n hline]
  refine (if_neg (not_not.mpr h)).trans ((if_neg (not_not.mpr hstate)).trans ?_)
  rw [hlacks]

theorem State.cmdCallAnswer_log (hlacks : s.answerLacks = .log) : State.cmdCallAnswer line s = s.answerRefused n .log .noLog := by
  rw [State.cmdCallAnswer, State.inRunning_taken _ hrun, indexBelow_of_eq n hline]
  refine (if_neg (not_not.mpr h)).trans ((if_neg (not_not.mpr hstate)).trans ?_)
  rw [hlacks]

theorem State.cmdCallAnswer_answers (hlacks : s.answerLacks = .none) : State.cmdCallAnswer line s = (s.answer n).okay [] := by
  rw [State.cmdCallAnswer, State.inRunning_taken _ hrun, indexBelow_of_eq n hline]
  refine (if_neg (not_not.mpr h)).trans ((if_neg (not_not.mpr hstate)).trans ?_)
  rw [hlacks]

end Ringing

theorem State.cmdAnswerSeen_connected (h : (s.lineUnit n).record.state = .connected) : State.cmdAnswerSeen line s = s.okay [] := by
  rw [State.cmdAnswerSeen, State.inRunning_taken _ hrun, indexBelow_of_eq n hline]
  dsimp only
  rw [h]

theorem State.cmdAnswerSeen_awaiting (h : (s.lineUnit n).record.state = .awaiting) :
    State.cmdAnswerSeen line s = (s.callAnswered n .host).okay [] := by
  rw [State.cmdAnswerSeen, State.inRunning_taken _ hrun, indexBelow_of_eq n hline]
  dsimp only
  rw [h]

theorem State.cmdAnswerSeen_busy (h : (s.lineUnit n).record.state ≠ .connected) (h' : (s.lineUnit n).record.state ≠ .awaiting) :
    State.cmdAnswerSeen line s = s.not .busy := by
  rw [State.cmdAnswerSeen, State.inRunning_taken _ hrun, indexBelow_of_eq n hline]
  dsimp only
  cases hst : (s.lineUnit n).record.state with
  | connected => exact absurd hst h
  | awaiting => exact absurd hst h'
  | _ => rfl

end Commands

theorem callEndCause_eq_some {x : BitVec 8} {given : Cause} (hcode : x.toNat = given.code) (hlow : 1 ≤ x.toNat) (hhigh : x.toNat ≤ 4) :
    callEndCause x = some given ∧ given ≠ .noLoop := by
  have hx : x = BitVec.ofNat 8 given.code := by
    apply BitVec.eq_of_toNat_eq
    rw [hcode, BitVec.toNat_ofNat, Nat.mod_eq_of_lt (by omega)]
  rw [hcode] at hlow hhigh
  subst hx
  cases given with
  | normal | busy | noAnswer | failed => exact ⟨rfl, nofun⟩
  | none => exact absurd hlow (by decide)
  | _ => exact absurd hhigh (by decide)

theorem callEndCause_eq_none {x : BitVec 8} (h : x = 0 ∨ 4 < x.toNat) : callEndCause x = none := by
  have hne (k : Nat) (hlow : 1 ≤ k) (hhigh : k ≤ 4) : x ≠ BitVec.ofNat 8 k := by
    rintro rfl
    rw [BitVec.toNat_ofNat, Nat.mod_eq_of_lt (by omega)] at h
    obtain h | h := h
    · have := congrArg BitVec.toNat h
      rw [BitVec.toNat_ofNat, Nat.mod_eq_of_lt (by omega)] at this
      change k = 0 at this
      omega
    · omega
  exact (if_neg (hne 1 (by omega) (by omega))).trans ((if_neg (hne 2 (by omega) (by omega))).trans
    ((if_neg (hne 3 (by omega) (by omega))).trans (if_neg (hne 4 (by omega) (by omega)))))

theorem State.cmdCallEnd_bad {line cause : BitVec 8} {s : State} (hrun : s.ctl.engine = .running)
    (h : 4 ≤ line.toNat ∨ cause = 0 ∨ 4 < cause.toNat) : State.cmdCallEnd line cause s = s.not .badArg := by
  rw [State.cmdCallEnd, State.inRunning_taken _ hrun]
  split
  · next n given hn hgiven =>
    have hline := (indexBelow_eq_some_iff n).mp hn
    rw [callEndCause_eq_none (h.resolve_left (by omega))] at hgiven
    cases hgiven
  · rfl

theorem State.cmdCallEnd_of_eq {line cause : BitVec 8} {n : Fin 4} {given : Cause} {s : State} (hrun : s.ctl.engine = .running)
    (hline : line.toNat = n.val) (hcause : callEndCause cause = some given) : State.cmdCallEnd line cause s =
      if (s.lineUnit n).record.state.hasCall then
        (s.clearOrder n (s.causeTaken n given)).okay (le 1 (s.causeTaken n given).code)
      else s.not .busy := by
  rw [State.cmdCallEnd, State.inRunning_taken _ hrun, indexBelow_of_eq n hline, hcause]

theorem LineUnit.clearedBy_of_ne {cause : Cause} (h : cause ≠ .noLoop) (now : Nat) (u : LineUnit) : u.clearedBy cause now = { u with
    record := { u.record with state := .clearing, lastCause := cause, destination := none, noLoopRun := 0 },
    offHook := false, toneCode := 0, element := none, loopCheck := none, seizeDelay := none, noAnswer := none,
    loopLoss := none, clearGuard := some (now + u.record.active.clearGuard * 1000000) } := by
  rw [LineUnit.clearedBy, noLoopAfter, if_neg h]
  rfl

/-- Settles O55: the commands by the line's state, the call's end by the laws of clear orders, the settlement by R110's rows. -/
theorem callCommands : Obligations.CallCommands := by
  refine ⟨fun line s hup hrun => ?answer, fun line s hup hrun => ?seen, fun line cause s hup hrun => ?ends, fun n c cause s hc => ?context,
    fun x given s => ?settle, fun x r final seconds s => ?records⟩
  case answer =>
    have hrow := exec_ringCommand (c := .callAnswer line) rfl s
    refine ⟨fun hbad => State.ring_command_answers hup hrow (?_ : State.cmdCallAnswer line s = s.not .badArg), fun n hline => ?_⟩
    · rw [State.cmdCallAnswer, State.inRunning_taken _ hrun, indexBelow_of_le hbad]
    · intro u
      refine ⟨fun hrings => State.ring_command_answers hup hrow (State.cmdCallAnswer_bad hrun hline hrings), fun hrings hstate =>
        State.ring_command_answers hup hrow (State.cmdCallAnswer_busy hrun hline hrings hstate), fun hrings hstate =>
        ⟨fun hfull => ?_, fun hentry hlog => ?_, fun hentry hroom => ?_⟩⟩
      · have hcmd := State.cmdCallAnswer_entry hrun hline hrings hstate (State.answerLacks_entry hfull)
        obtain ⟨q, hq⟩ := State.modRecord_form n (fun r => { r with answerRefusal := .entry }) s
        refine State.ring_command_leaves _ hup hrow hcmd ?_
        rw [State.answerRefused, hq]
        rfl
      · have hcmd := State.cmdCallAnswer_log hrun hline hrings hstate
          ((State.answerLacks_of_entry hentry).trans (if_neg (by rw [hlog]; decide)))
        obtain ⟨q, hq⟩ := State.modRecord_form n (fun r => { r with answerRefusal := .log }) s
        refine State.ring_command_leaves _ hup hrow hcmd ?_
        rw [State.answerRefused, hq]
        rfl
      · have hcmd := State.cmdCallAnswer_answers hrun hline hrings hstate
          ((State.answerLacks_of_entry hentry).trans (if_pos hroom))
        obtain ⟨q, notices, hq⟩ := s.answer_form n
        rw [hq] at hcmd
        exact ⟨_, _, exec_done (c := .callAnswer line) rfl hup hcmd, rfl, rfl, rfl, rfl, rfl, rfl, rfl, rfl, rfl,
          Notice.pending_of_or (x := notices) rfl⟩
  case seen =>
    have hrow := exec_ringCommand (c := .answerSeen line) rfl s
    refine ⟨fun hbad => State.ring_command_answers hup hrow (?_ : State.cmdAnswerSeen line s = s.not .badArg), fun n hline => ?_⟩
    · rw [State.cmdAnswerSeen, State.inRunning_taken _ hrun, indexBelow_of_le hbad]
    · intro u
      refine ⟨fun hstate => State.ring_command_answers hup hrow (State.cmdAnswerSeen_connected hrun hline hstate), fun hstate hstate' =>
        State.ring_command_answers hup hrow (State.cmdAnswerSeen_busy hrun hline hstate hstate'), fun hstate => ?_⟩
      obtain ⟨hlines, hpending, hmem, hstore, hstreams, -⟩ := State.callAnswered_leaves n .host s
      exact ⟨_, exec_done (c := .answerSeen line) rfl hup (State.cmdAnswerSeen_awaiting hrun hline hstate), hlines, hpending, rfl,
        hmem, hstore, hstreams, fun c hc hmethod => State.callAnswered_meter hc hmethod nofun⟩
  case ends =>
    have hrow := exec_ringCommand (c := .callEnd line cause) rfl s
    refine ⟨fun hbad => State.ring_command_answers hup hrow (State.cmdCallEnd_bad hrun hbad), fun n given hline hcode hlow hhigh => ?_⟩
    intro u taken
    obtain ⟨hcause, hnoLoop⟩ := callEndCause_eq_some hcode hlow hhigh
    have hcmd := State.cmdCallEnd_of_eq hrun hline hcause
    refine ⟨fun hcall => State.ring_command_answers hup hrow (hcmd.trans (if_neg (by
      rw [show (s.lineUnit n).record.state.hasCall = false from hcall]
      decide))), fun hcall => ?_⟩
    have htaken : taken ≠ .noLoop := by
      by_cases hforced : (s.stream n).forced = true
      · rw [show taken = .damaged from if_pos hforced]
        exact nofun
      · rw [show taken = given from if_neg hforced]
        exact hnoLoop
    have hanswer : State.cmdCallEnd line cause s = (s.clearOrder n taken).okay (le 1 taken.code) := hcmd.trans (if_pos hcall)
    have hleaves := State.clearOrder_leaves n taken s
    have hnone := State.clearOrder_charge_none (n := n) (s := s) taken
    have hsome := fun c => State.clearOrder_charge (n := n) (s := s) (c := c) taken
    rw [LineUnit.clearedBy_of_ne htaken] at hleaves
    generalize s.clearOrder n taken = v at hanswer hleaves hnone hsome
    obtain ⟨hlines, hclosed, hdoc, hforced, hcontext, hothers, hmem, -⟩ := hleaves
    refine ⟨_, exec_done (c := .callEnd line cause) rfl hup hanswer, hlines, hclosed, hdoc, hforced, hcontext, hothers, rfl, hmem,
      fun hc => ?_, fun c hc => ?_⟩
    · exact ⟨(congrArg ChargeUnit.recordQueue (hnone hc) :), (congrArg ChargeUnit.allotIndex (hnone hc) :)⟩
    · obtain ⟨r, hcharge, hindex, hlinen, haccount, hunits, hrcause, hseize, hend, hnumber⟩ := hsome c hc
      refine ⟨r, (congrArg ChargeUnit.recordQueue hcharge :), hindex, hlinen, haccount, hunits, hrcause, hseize, hend, hnumber,
        (congrArg ChargeUnit.allotIndex hcharge :), (congrArg ChargeUnit.reservations hcharge :), ?_⟩
      have haccounts := congrArg ChargeUnit.accounts hcharge
      exact (congrArg (fun l : Table Account 32 => l.get c.account) haccounts :).trans (Table.get_set_self _ _ _)
  case context =>
    obtain ⟨u, r, q, notices, k, hu, -, hsome, hnone⟩ := State.endContext_form cause hc
    refine ⟨u, ?_, ?_, ?_, ?_, ?_, hsome, hnone⟩
    all_goals rw [hu]
    · rfl
    · rfl
    · exact Table.get_set_self _ _ _
  case settle =>
    intro r d cause tried more retried
    refine ⟨State.settledCause_of_ne, fun hnormal hlist hbuilding => ?_, fun hnormal hlist hconfirmed hbuilding => ?_,
      fun hnormal hleft => ?_, State.settle_cancelled, fun hcancel => ⟨?_, fun hc hmore => ?_, fun hc hmore => ?_, fun hc hmore => ?_,
        ?_, ?_, ?_⟩⟩
    · exact (if_pos hnormal).trans (if_pos ⟨hlist, hbuilding⟩)
    · exact (if_pos hnormal).trans ((if_neg fun h => hlist h.1).trans (if_pos ⟨hconfirmed, hbuilding⟩))
    · refine (if_pos hnormal).trans ((if_neg fun ⟨hlist, hbuilding⟩ => ?_).trans (if_neg fun ⟨hconfirmed, hbuilding⟩ => ?_))
      · obtain h | ⟨h, -⟩ := hleft
        · exact absurd (h.symm.trans hbuilding) (by decide)
        · exact h hlist
      · obtain h | ⟨-, h⟩ := hleft
        · exact absurd (h.symm.trans hbuilding) (by decide)
        · exact h hconfirmed
    · exact State.settle_normal hcancel rfl
    · exact (State.settle_retried hcancel rfl hc).trans (if_pos hmore)
    · obtain hc | hc := hc
      · exact (State.settle_retried hcancel rfl hc).trans (if_neg hmore)
      · exact (State.settle_postponed hcancel rfl hc).trans (if_neg hmore)
    · exact (State.settle_postponed hcancel rfl hc).trans (if_pos hmore)
    · exact State.settle_failed hcancel rfl
    · exact State.settle_cancel hcancel rfl
    · exact State.settle_glare hcancel rfl
  case records =>
    exact ⟨State.becomeFinal_of_building, State.becomeFinal_dest x r final s, State.becomeFinal_pending x r final s,
      State.becomePending_eq x r s, State.startRetry_eq x r seconds s⟩

end Sys2Proof.Machine

/-! PROOF. The line's timers: calls cleared, the clear guard's end, a charged unit (R127, R133, R134, R136 to R138, R189, R191). -/

namespace Sys2Proof.Machine

/-! ## A unit charged (R189, R191) -/

/-- An account with one more unit charged, its budget judged. -/
def Account.chargedUnit (x : Account) : Account := ({ x with charged := x.charged + 1 } : Account).judgedAccount

/-- A unit charged to a context and its account; a counter at its top takes a free value. -/
theorem State.chargeUnit_result {n : Fin 4} {c : CallContext} {s : State} (hc : s.context n = some c) :
    ∃ q k contexts due notices units charged, s.chargeUnit n = { s with
      freeCount := k,
      charge := { s.charge with
        accounts := s.charge.accounts.set c.account ({ s.account c.account with charged := charged } : Account).judgedAccount,
        contexts := contexts },
      dispatch := { s.dispatch with arbiterDue := due }, ctl := { s.ctl with queue := q, notices := notices } } ∧
    contexts.get n = some (({ c with units := units } : CallContext).policed
      ({ s.account c.account with charged := charged } : Account).judgedAccount s.now) ∧
    (c.units ≠ BitVec.allOnes 32 → (s.account c.account).charged ≠ BitVec.allOnes 32 →
      units = c.units + 1 ∧ charged = (s.account c.account).charged + 1 ∧ k = s.freeCount) := by
  obtain ⟨units, k₁, hbump, hunits⟩ := State.bump32_form c.units s
  obtain ⟨q₁, hcontext, -⟩ := State.setContext_form n (some { c with units := units }) { s with freeCount := k₁ }
  obtain ⟨v, hv⟩ : ∃ v, v = ({ s with freeCount := k₁ } : State).setContext n (some { c with units := units }) := ⟨_, rfl⟩
  have hvaccount : v.account c.account = s.account c.account := by
    rw [hv, hcontext]
    rfl
  have hvfree : v.freeCount = k₁ := by
    rw [hv, hcontext]
    rfl
  obtain ⟨charged, k, hbump', hcharged⟩ := State.bump32_form (s.account c.account).charged v
  obtain ⟨w, hw⟩ : ∃ w, w = (({ v with freeCount := k } : State).setAccount c.account { v.account c.account with
    charged := charged }).askArbiter := ⟨_, rfl⟩
  have hcharge : s.chargeUnit n = w.judgeBudget c.account := by
    rw [State.chargeUnit, hc]
    dsimp only
    rw [hbump]
    dsimp only
    rw [← hv, hvaccount, hbump', hw]
    rfl
  obtain ⟨q₂, haccount, -⟩ := State.setAccount_form c.account { v.account c.account with charged := charged } { v with freeCount := k }
  have hwform : w = { s with
      freeCount := k,
      charge := { s.charge with
        accounts := s.charge.accounts.set c.account { s.account c.account with charged := charged },
        contexts := s.charge.contexts.set n (some { c with units := units }) },
      dispatch := { s.dispatch with arbiterDue := true }, ctl := { s.ctl with queue := q₂ } } := by
    rw [hw, haccount, hvaccount, hv, hcontext]
    rfl
  have hwaccount : w.account c.account = { s.account c.account with charged := charged } := by
    rw [hwform]
    exact Table.get_set_self _ _ _
  have hwcontext : w.context n = some { c with units := units } := by
    rw [hwform]
    exact Table.get_set_self _ _ _
  obtain ⟨q, contexts, due, hjudge, -, hcontexts⟩ := State.judgeBudget_form c.account w
  rw [hwaccount] at hjudge hcontexts
  refine ⟨q, k, contexts, due, (w.judgeBudget c.account).ctl.notices, units, charged, ?_, ?_, fun hne hne' => ?_⟩
  · rw [hcharge, hjudge, hwform]
    exact congrArg (fun l => ({ s with
      freeCount := k, charge := { s.charge with accounts := l, contexts := contexts },
      dispatch := { s.dispatch with arbiterDue := due }, ctl := { s.ctl with queue := q, notices := _ } } : State)) (Table.set_set ..)
  · rw [hcontexts n, State.policedContext, hwcontext]
    refine (congrArg some (if_pos rfl)).trans ?_
    rw [show w.now = s.now by rw [hwform]]
  · obtain ⟨hnext, hfree⟩ := hunits hne
    obtain ⟨hnext', hfree'⟩ := hcharged hne'
    exact ⟨hnext, hnext', hfree'.trans (hvfree.trans hfree)⟩

/-- A unit charged to a context and its account, neither counter at its top. -/
theorem State.chargeUnit_form {n : Fin 4} {c : CallContext} {s : State} (hc : s.context n = some c)
    (hunits : c.units ≠ BitVec.allOnes 32) (hcharged : (s.account c.account).charged ≠ BitVec.allOnes 32) :
    ∃ q contexts due notices, s.chargeUnit n = { s with
      charge := { s.charge with
        accounts := s.charge.accounts.set c.account (s.account c.account).chargedUnit, contexts := contexts },
      dispatch := { s.dispatch with arbiterDue := due }, ctl := { s.ctl with queue := q, notices := notices } } ∧
    contexts.get n = some (({ c with units := c.units + 1 } : CallContext).policed (s.account c.account).chargedUnit s.now) := by
  obtain ⟨q, k, contexts, due, notices, units, charged, hcharge, hcontext, hnext⟩ := State.chargeUnit_result hc
  obtain ⟨rfl, rfl, rfl⟩ := hnext hunits hcharged
  exact ⟨q, contexts, due, notices, hcharge, hcontext⟩

/-- Policing a context changes its phase and its grace timer alone. -/
theorem CallContext.policed_form (x : Account) (now : Nat) (c : CallContext) :
    ∃ phase grace, c.policed x now = { c with phase := phase, graceTimer := grace } := by
  unfold CallContext.policed
  (repeat' split) <;> exact ⟨_, _, rfl⟩

theorem State.unitDeadline_eq (band : Fin 8) (start : Nat) (s : State) : s.unitDeadline band start =
    if (s.charge.grid.get band).get s.charge.period = 0 then none
    else some (start + (s.charge.grid.get band).get s.charge.period * 1000000) := by
  unfold State.unitDeadline
  split
  · next h => exact (if_pos h).symm
  · next k h =>
    rw [h]
    exact (if_neg (Nat.succ_ne_zero k)).symm

/-- A unit timer's expiry, neither counter at its top. -/
theorem State.unitExpired_form {n : Fin 4} {c : CallContext} {due : Nat} {s : State} (hc : s.context n = some c)
    (hdue : c.unitTimer = some due) (hunits : c.units ≠ BitVec.allOnes 32)
    (hcharged : (s.account c.account).charged ≠ BitVec.allOnes 32) :
    ∃ q contexts due' notices, s.unitExpired n = { s with
      now := max s.now due,
      charge := { s.charge with
        accounts := s.charge.accounts.set c.account (s.account c.account).chargedUnit, contexts := contexts },
      dispatch := { s.dispatch with arbiterDue := due' }, ctl := { s.ctl with queue := q, notices := notices } } ∧
    (contexts.get n).map (fun x => (x.units, x.unitTimer)) = some (c.units + 1, s.unitDeadline c.band due) := by
  obtain ⟨q, contexts, due', notices, hcharge, hcontext⟩ :=
    State.chargeUnit_form (s := s.reach due) (n := n) hc hunits hcharged
  obtain ⟨phase, grace, hpoliced⟩ := CallContext.policed_form ((s.reach due).account c.account).chargedUnit (s.reach due).now
    { c with units := c.units + 1 }
  rw [hpoliced] at hcontext
  obtain ⟨v, hv⟩ : ∃ v, v = (s.reach due).chargeUnit n := ⟨_, rfl⟩
  have hexpired : s.unitExpired n = v.modContext n fun x => { x with unitTimer := v.unitDeadline c.band due } := by
    rw [State.unitExpired, hc]
    dsimp only
    rw [hdue, hv]
  rw [← hv] at hcharge
  have hdeadline : v.unitDeadline c.band due = s.unitDeadline c.band due := by
    rw [hcharge]
    rfl
  have hvcontext : v.context n = some { c with units := c.units + 1, phase := phase, graceTimer := grace } := by
    rw [hcharge]
    exact hcontext
  obtain ⟨q', hmod⟩ := State.modContext_form n (fun x => { x with unitTimer := v.unitDeadline c.band due }) v
  rw [hdeadline, hvcontext] at hmod
  refine ⟨q', contexts.set n (some { c with
    units := c.units + 1, phase := phase, graceTimer := grace, unitTimer := s.unitDeadline c.band due }), due', notices, ?_, ?_⟩
  · rw [hexpired, hdeadline, hmod, hcharge]
    rfl
  · rw [Table.get_set_self]
    rfl

/-! ## A call that a timer clears (R110, R134, R136, R193) -/

/-- A destination's record after a call that a timer cleared, with the clock and the limits of its document. -/
def DestRecord.afterTimer (cause : Cause) (d : DocRecord) (ends : Option ClockValue) (r : DestRecord) : DestRecord :=
  if r.attempts + 1 < d.attemptLimit then
    if cause = .budget then { r.tried cause with state := .pending, retryDue := none }
    else { r.tried cause with state := .waiting, retryDue := ends }
  else (r.tried cause).ended .failed

theorem State.settle_afterTimer {x : Fin 512} {cause : Cause} {s : State} (hcancel : (s.dest x).cancelRequested = false)
    (hc : cause.retried ∨ cause = .budget) : (s.settle x cause).dest x = (s.dest x).afterTimer cause
      (s.doc (s.dest x).document) (s.retryAt ((s.doc (s.dest x).document).retryInterval * 60)) := by
  have hcause : s.settledCause x cause = cause := State.settledCause_of_ne (by
    rintro rfl
    obtain (h | h | h | h | h | h) | h := hc <;> cases h)
  unfold DestRecord.afterTimer
  by_cases hmore : (s.dest x).attempts + 1 < (s.doc (s.dest x).document).attemptLimit
  · rw [if_pos hmore]
    obtain hc | rfl := hc
    · have hne : cause ≠ .budget := by
        rintro rfl
        obtain h | h | h | h | h | h := hc <;> cases h
      rw [if_neg hne, (State.settle_retried hcancel hcause hc).trans (if_pos hmore), State.startRetry_eq]
      exact Table.get_set_self _ _ _
    · rw [if_pos rfl, (State.settle_postponed hcancel hcause (.inl rfl)).trans (if_pos hmore), State.becomePending_eq]
      exact Table.get_set_self _ _ _
  · rw [if_neg hmore]
    obtain hc | rfl := hc
    · rw [(State.settle_retried hcancel hcause hc).trans (if_neg hmore), State.becomeFinal_dest]
    · rw [(State.settle_postponed hcancel hcause (.inl rfl)).trans (if_neg hmore), State.becomeFinal_dest]

/-- A timer has run out: the time, the line's timers, its context's grace timer and the queue alone may differ. -/
def State.TimedOut (n : Fin 4) (due : Nat) (s v : State) : Prop :=
  ∃ q u contexts, v = { s with
    now := max s.now due, lines := s.lines.set n u, charge := { s.charge with contexts := contexts },
    ctl := { s.ctl with queue := q } } ∧ u.record = (s.lineUnit n).record ∧
  ∀ c, s.context n = some c → ∃ grace, contexts.get n = some { c with graceTimer := grace }

theorem State.TimedOut.modLine {n : Fin 4} {s : State} (due : Nat) (f : LineUnit → LineUnit)
    (h : (f (s.lineUnit n)).record = (s.lineUnit n).record) : s.TimedOut n due ((s.reach due).modLine n f) :=
  ⟨s.ctl.queue, f (s.lineUnit n), s.charge.contexts, State.setLine_of_record_eq (s := s.reach due) h, h, fun c hc =>
    ⟨c.graceTimer, hc⟩⟩

theorem State.TimedOut.modContext (n : Fin 4) (due : Nat) (s : State) :
    s.TimedOut n due ((s.reach due).modContext n fun x => { x with graceTimer := none }) := by
  obtain ⟨q, hmod⟩ := State.modContext_form n (fun x => { x with graceTimer := none }) (s.reach due)
  rw [hmod]
  refine ⟨q, s.lineUnit n, s.charge.contexts.set n ((s.context n).map fun x => { x with graceTimer := none }), ?_, rfl,
    fun c hc => ⟨none, ?_⟩⟩
  · rw [State.lineUnit, show s.lines.set n (s.lines.get n) = s.lines from Table.set_get ..]
    rfl
  · exact (Table.get_set_self _ _ _).trans (congrArg (Option.map _) hc)

/-- What a timer's clear order leaves of the line's call. -/
structure State.TimerCleared (n : Fin 4) (due : Nat) (cause : Cause) (s t : State) : Prop where
  now : t.now = max s.now due
  line : ∃ u : LineUnit, u.record = (s.lineUnit n).record ∧ t.lineUnit n = u.clearedBy cause (max s.now due)
  context : t.context n = none
  stream : (t.stream n).state = .closed
  others : ∀ m, m ≠ n → t.lineUnit m = s.lineUnit m
  mem : t.mem = s.mem
  charge : ∀ c, s.context n = some c → ∃ (r : ChargeRecord) (contexts : Table (Option CallContext) 4),
    t.charge = ({ s.charge with contexts := contexts } : ChargeUnit).endCall n c r ∧ r.OfCall n c cause s.charge
  dest : ∀ c x, s.context n = some c → c.destination = some x → (s.dest x).cancelRequested = false →
    (s.stream n).state = .closed → (s.stream n).callDoc = none → t.dest x = (s.dest x).afterTimer cause
      (s.doc (s.dest x).document) (s.retryAt ((s.doc (s.dest x).document).retryInterval * 60))

theorem State.TimedOut.clears {n : Fin 4} {due : Nat} {cause : Cause} {s v : State} (h : s.TimedOut n due v)
    (hc : cause.retried ∨ cause = .budget) : s.TimerCleared n due cause (v.clearOrder n cause) := by
  obtain ⟨q, u, contexts, hv, hrecord, hgrace⟩ := h
  obtain ⟨hlines, hclosed, -, -, hnone, -, hmem, hnow⟩ := State.clearOrder_leaves n cause v
  have hunit : v.lineUnit n = u := by
    rw [hv]
    exact Table.get_set_self _ _ _
  have hvnow : v.now = max s.now due := by rw [hv]
  have hvmem : v.mem = s.mem := by rw [hv]
  have hvcharge : v.charge = { s.charge with contexts := contexts } := by rw [hv]
  have hvdispatch : v.dispatch = s.dispatch := by rw [hv]
  have hvstream : v.stream n = s.stream n := by
    rw [hv]
    rfl
  have hvothers (m : Fin 4) (hm : m ≠ n) : v.lineUnit m = s.lineUnit m := by
    rw [hv]
    exact Table.get_set_of_ne _ _ hm.symm
  have hvcontext {c : CallContext} (hcs : s.context n = some c) : ∃ grace, v.context n = some { c with graceTimer := grace } := by
    rw [hv]
    exact hgrace c hcs
  refine ⟨hnow.trans hvnow, ⟨u, hrecord, ?_⟩, hnone, hclosed, fun m hm => ?_, by rw [hmem, hvmem], fun c hcs => ?_,
    fun c x hcs hx hcancel hstate hdoc => ?_⟩
  · rw [State.lineUnit, hlines, Table.get_set_self, hunit, hvnow]
  · rw [State.lineUnit, hlines, Table.get_set_of_ne _ _ hm.symm]
    exact hvothers m hm
  · obtain ⟨grace, hcontext⟩ := hvcontext hcs
    obtain ⟨r, hcharge, hr⟩ := State.clearOrder_charge (n := n) cause hcontext
    rw [hvcharge] at hcharge hr
    exact ⟨r, contexts, hcharge, hr⟩
  · obtain ⟨grace, hcontext⟩ := hvcontext hcs
    obtain ⟨w, hdispatch, -, -, -, hclock, hset, hsame⟩ := State.clearOrder_settles (n := n) cause hcontext hx
    have hwdispatch : w.dispatch = s.dispatch := (hsame (by rw [hvstream]; exact hstate) (by rw [hvstream]; exact hdoc)).trans hvdispatch
    have hwdest : w.dest x = s.dest x := congrArg (fun p : DispatchUnit => p.dests.get x) hwdispatch
    have hwdoc : w.doc (s.dest x).document = s.doc (s.dest x).document :=
      congrArg (fun p : DispatchUnit => p.docs.get (s.dest x).document) hwdispatch
    have hretry (k : Nat) : w.retryAt k = s.retryAt k := by
      rw [State.retryAt, State.retryAt, hclock, hset, hvcharge]
    have hdest := State.settle_afterTimer (x := x) (s := w) (by rw [hwdest]; exact hcancel) hc
    rw [hwdest, hwdoc, hretry] at hdest
    exact (congrArg (fun p : DispatchUnit => p.dests.get x) hdispatch).trans hdest

end Sys2Proof.Machine

/-! PROOF. The ends of the line's timers (R110, R118, R127, R133, R134, R136 to R138, R189, R191 to R193). -/

namespace Sys2Proof.Machine

/-! ## The settings that wait are applied (R118) -/

/-- The settings of a line once those that wait are taken. -/
def LineRecord.nextSettings (r : LineRecord) : LineSettings := r.pending.getD r.active

theorem LineRecord.takePending_eq (r : LineRecord) : r.takePending = { r with active := r.nextSettings, pending := none } := by
  obtain ⟨_, _, _, _, _, _, _, _, _, _, _, p⟩ := r
  cases p with
  | none => rfl
  | some x => rfl

section ApplyIdle

variable {n : Fin 4} {u : LineUnit} {s : State} (hu : s.lineUnit n = u)

include hu

/-- A line whose waiting settings are OFF becomes DISABLED. -/
theorem State.applyIdle_disables (hpending : u.record.pending ≠ none) (hoff : u.record.nextSettings.direction = .off) :
    ∃ q, s.applyIdle n = ({ s with lines := s.lines.set n { u.quiet with
      record := { u.record with
        active := u.record.nextSettings, pending := none, state := .disabled, disabledReason := .off,
        ringCount := 0 } } } : State).withQueue q := by
  obtain ⟨q, hset, -⟩ := State.setLine_form n { u.quiet with
    record := { u.record.takePending with state := .disabled, disabledReason := .off, ringCount := 0 } } s
  refine ⟨q, ?_⟩
  have happly : s.applyIdle n = s.setLine n { u.quiet with
      record := { u.record.takePending with state := .disabled, disabledReason := .off, ringCount := 0 } } := by
    rw [State.applyIdle, hu]
    refine if_pos ⟨Option.isSome_iff_ne_none.mpr hpending, ?_⟩
    rw [LineRecord.takePending_eq]
    exact hoff
  rw [happly, hset, LineRecord.takePending_eq]

/-- Any other line becomes IDLE and the line arbiter runs. -/
theorem State.applyIdle_idles (h : u.record.pending = none ∨ u.record.nextSettings.direction ≠ .off) :
    ∃ q, s.applyIdle n = ({ s with
      lines := s.lines.set n { u with
        record := { u.record with active := u.record.nextSettings, pending := none, state := .idle } },
      dispatch := { s.dispatch with arbiterDue := true } } : State).withQueue q := by
  obtain ⟨q, hset, -⟩ := State.setLine_form n { u with record := { u.record.takePending with state := .idle } } s
  refine ⟨q, ?_⟩
  have happly : s.applyIdle n = (s.setLine n { u with record := { u.record.takePending with state := .idle } }).askArbiter := by
    rw [State.applyIdle, hu]
    refine if_neg fun ⟨hsome, hoff⟩ => ?_
    rw [LineRecord.takePending_eq] at hoff
    obtain hnone | hon := h
    · rw [hnone] at hsome
      cases hsome
    · exact hon hoff
  rw [happly, hset, LineRecord.takePending_eq]
  rfl

end ApplyIdle

/-! ## The clear guard's end (R137, R138) -/

/-- A line's record after its clear guard, before its new state is set. -/
def LineRecord.afterGuard (r : LineRecord) : LineRecord :=
  { r with callDirection := .none, answerSource := .none, active := r.nextSettings, pending := none }

/-- A line whose clear guard has run out, before the settings that wait are applied. -/
def LineUnit.guardOver (u : LineUnit) : LineUnit :=
  { u with clearGuard := none, record := { u.record with callDirection := .none, answerSource := .none } }

section Guard

variable {n : Fin 4} {due : Nat} {s : State}

/-- The line whose clear guard has run out. -/
theorem State.guard_stops (n : Fin 4) (due : Nat) (s : State) : (s.reach due).modLine n (fun u => { u with clearGuard := none }) =
    { s with now := max s.now due, lines := s.lines.set n { s.lineUnit n with clearGuard := none } } :=
  State.setLine_of_record_eq (s := s.reach due) rfl

/-- A line's call direction and answer source put back. -/
theorem State.callCleared_form (n : Fin 4) (s : State) :
    ∃ q, s.modRecord n (fun r => { r with callDirection := .none, answerSource := .none }) = ({ s with
      lines := s.lines.set n { s.lineUnit n with
        record := { (s.lineUnit n).record with callDirection := .none, answerSource := .none } } } : State).withQueue q :=
  State.modRecord_form n _ s

variable (hguard : (s.lineUnit n).clearGuard = some due)

include hguard

theorem State.guardEnded_fault (hrun : (s.lineUnit n).record.noLoopRun = 3) : ∃ q, s.guardEnded n = { s with
    now := max s.now due,
    lines := s.lines.set n { (s.lineUnit n).quiet with
      clearGuard := none, record := { (s.lineUnit n).record.afterGuard with state := .disabled, disabledReason := .loopFault } },
    ctl := { s.ctl with queue := q, notices := s.ctl.notices ||| Notice.line.bit } } := by
  obtain ⟨v, hv⟩ : ∃ v, v = (s.reach due).modLine n (fun u => { u with clearGuard := none }) := ⟨_, rfl⟩
  have hended : s.guardEnded n = v.loopFault n := by
    rw [State.guardEnded, hguard, hv]
    exact if_pos hrun
  rw [State.guard_stops] at hv
  have hunit : v.lineUnit n = { s.lineUnit n with clearGuard := none } := by
    rw [hv]
    exact Table.get_set_self _ _ _
  obtain ⟨y, hy⟩ : ∃ y, y = { (v.lineUnit n).quiet with record := { (v.lineUnit n).record.takePending with
    state := .disabled, disabledReason := .loopFault, callDirection := .none, answerSource := .none } } := ⟨_, rfl⟩
  have hfault : v.loopFault n = (v.setLine n y).raise .line := by
    rw [hy]
    rfl
  rw [hunit, LineRecord.takePending_eq] at hy
  obtain ⟨q₁, hset, -⟩ := State.setLine_form n y v
  obtain ⟨q, hraise, -⟩ := State.raise_form .line (v.setLine n y)
  refine ⟨q, ?_⟩
  rw [hended, hfault, hraise, hset, hv, hy]
  exact congrArg (fun l => ({ s with
    now := max s.now due, lines := l,
    ctl := { s.ctl with queue := q, notices := s.ctl.notices ||| Notice.line.bit } } : State)) (Table.set_set ..)

variable (hrun : (s.lineUnit n).record.noLoopRun ≠ 3)

include hrun

/-- The line as its clear guard hands it to the settings that wait. -/
theorem State.guardEnded_applies : ∃ q v, s.guardEnded n = (if ((v.applyIdle n).lineUnit n).record.state = .idle
    then (v.applyIdle n).raise .line else v.applyIdle n) ∧ v = { s with
      now := max s.now due,
      lines := s.lines.set n (s.lineUnit n).guardOver,
      ctl := { s.ctl with queue := q } } := by
  obtain ⟨w, hw⟩ : ∃ w, w = (s.reach due).modLine n (fun u => { u with clearGuard := none }) := ⟨_, rfl⟩
  have hended : s.guardEnded n = w.guardToIdle n := by
    rw [State.guardEnded, hguard, hw]
    exact if_neg hrun
  rw [State.guard_stops] at hw
  have hunit : w.lineUnit n = { s.lineUnit n with clearGuard := none } := by
    rw [hw]
    exact Table.get_set_self _ _ _
  obtain ⟨q, hmod⟩ := State.callCleared_form n w
  rw [hunit] at hmod
  refine ⟨q, _, hended.trans rfl, ?_⟩
  rw [hmod, hw]
  exact congrArg (fun l => ({ s with now := max s.now due, lines := l, ctl := { s.ctl with queue := q } } : State)) (Table.set_set ..)

theorem State.guardEnded_idle (h : (s.lineUnit n).record.pending = none ∨ (s.lineUnit n).record.nextSettings.direction ≠ .off) :
    ∃ q, s.guardEnded n = { s with
      now := max s.now due,
      lines := s.lines.set n { s.lineUnit n with
        clearGuard := none, record := { (s.lineUnit n).record.afterGuard with state := .idle } },
      dispatch := { s.dispatch with arbiterDue := true },
      ctl := { s.ctl with queue := q, notices := s.ctl.notices ||| Notice.line.bit } } := by
  obtain ⟨q₁, v, hended, hv⟩ := State.guardEnded_applies hguard hrun
  obtain ⟨q₂, happly⟩ := State.applyIdle_idles (s := v) (n := n) (u := (s.lineUnit n).guardOver)
    (by rw [hv]; exact Table.get_set_self _ _ _) h
  have hstate : ((v.applyIdle n).lineUnit n).record.state = .idle := by
    rw [happly]
    exact congrArg (fun u : LineUnit => u.record.state) (Table.get_set_self _ _ _)
  obtain ⟨q, hraise, -⟩ := State.raise_form .line (v.applyIdle n)
  refine ⟨q, ?_⟩
  rw [hended, if_pos hstate, hraise, happly, hv]
  exact congrArg (fun l => ({ s with
    now := max s.now due, lines := l, dispatch := { s.dispatch with arbiterDue := true },
    ctl := { s.ctl with queue := q, notices := s.ctl.notices ||| Notice.line.bit } } : State)) (Table.set_set ..)

theorem State.guardEnded_off (hpending : (s.lineUnit n).record.pending ≠ none)
    (hoff : (s.lineUnit n).record.nextSettings.direction = .off) : ∃ q, s.guardEnded n = { s with
      now := max s.now due,
      lines := s.lines.set n { (s.lineUnit n).quiet with
        clearGuard := none,
        record := { (s.lineUnit n).record.afterGuard with state := .disabled, disabledReason := .off, ringCount := 0 } },
      ctl := { s.ctl with queue := q } } := by
  obtain ⟨q₁, v, hended, hv⟩ := State.guardEnded_applies hguard hrun
  obtain ⟨q, happly⟩ := State.applyIdle_disables (s := v) (n := n) (u := (s.lineUnit n).guardOver)
    (by rw [hv]; exact Table.get_set_self _ _ _) hpending hoff
  have hstate : ((v.applyIdle n).lineUnit n).record.state ≠ .idle := by
    rw [happly, show ∀ (t : State) (q : List QueueEntry), (t.withQueue q).lineUnit n = t.lineUnit n from fun _ _ => rfl]
    refine fun h => LineState.noConfusion ((congrArg (fun u : LineUnit => u.record.state) (Table.get_set_self _ _ _)).symm.trans h)
  refine ⟨q, ?_⟩
  rw [hended, if_neg hstate, happly, hv]
  exact congrArg (fun l => ({ s with now := max s.now due, lines := l, ctl := { s.ctl with queue := q } } : State)) (Table.set_set ..)

end Guard

/-! ## The timers that clear a call -/

theorem State.orderClear_call {n : Fin 4} {due : Nat} {s v : State} (h : s.TimedOut n due v)
    (hcall : (s.lineUnit n).record.state.hasCall = true) (cause : Cause) : v.orderClear n cause = v.clearOrder n cause := by
  obtain ⟨q, u, contexts, hv, hrecord, -⟩ := h
  refine if_pos ?_
  rw [hv]
  refine Eq.trans (congrArg (fun u : LineUnit => u.record.state.hasCall) (Table.get_set_self s.lines n u)) ?_
  rw [hrecord]
  exact hcall

section Timers

variable {n : Fin 4} {due : Nat} {s : State}

theorem State.loopLost_clears (h : (s.lineUnit n).loopLoss = some due) (hcall : (s.lineUnit n).record.state.hasCall = true) :
    ∃ v, s.TimedOut n due v ∧ s.loopLost n = v.clearOrder n .loopDrop := by
  have hv := State.TimedOut.modLine (n := n) (s := s) due (fun u => { u with loopLoss := none }) rfl
  refine ⟨_, hv, Eq.trans ?_ (State.orderClear_call hv hcall .loopDrop)⟩
  rw [State.loopLost, h]

theorem State.loopChecked_clears (h : (s.lineUnit n).loopCheck = some due) (hseen : (s.lineUnit n).loopSeen = false)
    (hcall : (s.lineUnit n).record.state.hasCall = true) : ∃ v, s.TimedOut n due v ∧ s.loopChecked n = v.clearOrder n .noLoop := by
  have hv := State.TimedOut.modLine (n := n) (s := s) due (fun u => { u with loopCheck := none }) rfl
  refine ⟨_, hv, Eq.trans ?_ (State.orderClear_call hv hcall .noLoop)⟩
  rw [State.loopChecked, h]
  exact if_neg (by rw [hseen]; decide)

theorem State.loopChecked_seen (h : (s.lineUnit n).loopCheck = some due) (hseen : (s.lineUnit n).loopSeen = true) :
    s.loopChecked n = { s with now := max s.now due, lines := s.lines.set n { s.lineUnit n with loopCheck := none } } := by
  rw [State.loopChecked, h]
  exact (if_pos hseen).trans (State.setLine_of_record_eq (s := s.reach due) rfl)

theorem State.seizeDelayEnded_clears (h : (s.lineUnit n).seizeDelay = some due) (hseen : (s.lineUnit n).loopSeen = false)
    (hcall : (s.lineUnit n).record.state.hasCall = true) :
    ∃ v, s.TimedOut n due v ∧ s.seizeDelayEnded n = v.clearOrder n .noLoop := by
  have hv := State.TimedOut.modLine (n := n) (s := s) due (fun u => { u with seizeDelay := none }) rfl
  refine ⟨_, hv, Eq.trans ?_ (State.orderClear_call hv hcall .noLoop)⟩
  rw [State.seizeDelayEnded, h]
  exact if_neg (by rw [hseen]; decide)

theorem State.notAnswered_clears (h : (s.lineUnit n).noAnswer = some due) (hcall : (s.lineUnit n).record.state.hasCall = true) :
    ∃ v, s.TimedOut n due v ∧ s.notAnswered n = v.clearOrder n .noAnswer := by
  have hv := State.TimedOut.modLine (n := n) (s := s) due (fun u => { u with noAnswer := none }) rfl
  refine ⟨_, hv, Eq.trans ?_ (State.orderClear_call hv hcall .noAnswer)⟩
  rw [State.notAnswered, h]

theorem State.graceEnded_clears {c : CallContext} (hc : s.context n = some c) (h : c.graceTimer = some due)
    (hstate : (s.lineUnit n).record.state = .connected) : ∃ v, s.TimedOut n due v ∧ s.graceEnded n = v.clearOrder n .budget := by
  refine ⟨_, State.TimedOut.modContext n due s, ?_⟩
  rw [State.graceEnded, hc]
  dsimp only
  rw [h]
  exact if_pos hstate

end Timers

/-- Settles O59: the timers that clear a call by one law of clear orders, the clear guard's end by the settings that wait. -/
theorem lineTimersExpire : Obligations.LineTimersExpire := by
  refine ⟨fun n due s => ?clears, fun n s => ?guard, fun n c s hc => ?unit⟩
  case clears =>
    intro u clears
    have hidle {c : Instr} {t : State} (hexec : exec c s = .next t.settleStep) (ht : t = s) : exec c s = .next s.settleStep :=
      hexec.trans (congrArg (fun t : State => Host.Outcome.next t.settleStep) ht)
    have hclears {c : Instr} {cause : Cause} {t : State} (hexec : exec c s = .next t.settleStep)
        (hcause : cause.retried ∨ cause = .budget) (h : ∃ v, s.TimedOut n due v ∧ t = v.clearOrder n cause) : clears c cause := by
      obtain ⟨v, hv, ht⟩ := h
      have hcleared := hv.clears hcause
      rw [← ht] at hcleared
      obtain ⟨hnow, ⟨y, hrecord, hline⟩, hcontext, hstream, hothers, hmem, hcharge, hdest⟩ := hcleared
      refine ⟨t, hexec, hnow, ?_, ?_, ?_, ?_, hcontext, hstream, ?_, ?_, hothers, hmem, fun c hcs => ?_⟩
      · rw [hline]
        rfl
      · rw [hline]
        rfl
      · rw [hline]
        rfl
      · rw [hline]
        rfl
      · rw [hline, LineUnit.clearedBy, hrecord]
      · rw [hline, LineUnit.clearedBy, hrecord]
        rfl
      · obtain ⟨r, contexts, hunit, hr⟩ := hcharge c hcs
        refine ⟨⟨r, (congrArg ChargeUnit.recordQueue hunit :), hr⟩, (congrArg ChargeUnit.allotIndex hunit :),
          (congrArg ChargeUnit.reservations hunit :), ?_, fun x hx hcancel hstate hdoc => hdest c x hcs hx hcancel hstate hdoc⟩
        exact (congrArg (fun g : ChargeUnit => g.accounts.get c.account) hunit :).trans (Table.get_set_self _ _ _)
    refine ⟨fun h => hidle (t := s.loopLost n) rfl ?_, fun h hcall => ?_, fun h => hidle (t := s.loopChecked n) rfl ?_,
      fun h hseen => ?_, fun h hseen hcall => ?_, fun h => hidle (t := s.seizeDelayEnded n) rfl ?_, fun h hseen hcall => ?_,
      fun h => hidle (t := s.notAnswered n) rfl ?_, fun h hcall => ?_, fun c hc h => hidle (t := s.graceEnded n) rfl ?_,
      fun c hc h hstate => ?_⟩
    · rw [State.loopLost, show (s.lineUnit n).loopLoss = none from h]
    · exact hclears rfl (.inl (by simp [Cause.retried])) (State.loopLost_clears h hcall)
    · rw [State.loopChecked, show (s.lineUnit n).loopCheck = none from h]
    · exact congrArg (fun t : State => Host.Outcome.next t.settleStep) (State.loopChecked_seen h hseen)
    · exact hclears rfl (.inl (by simp [Cause.retried])) (State.loopChecked_clears h hseen hcall)
    · rw [State.seizeDelayEnded, show (s.lineUnit n).seizeDelay = none from h]
    · exact hclears rfl (.inl (by simp [Cause.retried])) (State.seizeDelayEnded_clears h hseen hcall)
    · rw [State.notAnswered, show (s.lineUnit n).noAnswer = none from h]
    · exact hclears rfl (.inl (by simp [Cause.retried])) (State.notAnswered_clears h hcall)
    · rw [State.graceEnded, hc]
      dsimp only
      rw [h]
    · exact hclears rfl (.inr rfl) (State.graceEnded_clears hc h hstate)
  case guard =>
    intro u
    refine ⟨fun h => congrArg (fun t : State => Host.Outcome.next t.settleStep) (?_ : s.guardEnded n = s), fun due hguard => ?_⟩
    · rw [State.guardEnded, show (s.lineUnit n).clearGuard = none from h]
    intro active record quiet
    refine ⟨fun hrun hleft => ⟨_, rfl, State.eq_of_bare ?_ rfl⟩, fun hrun hpending hoff => ⟨_, rfl, State.eq_of_bare ?_ rfl⟩,
      fun hrun => ⟨_, rfl, State.eq_of_bare ?_ rfl⟩⟩
    · obtain ⟨q, hended⟩ := State.guardEnded_idle hguard hrun hleft
      exact (congrArg State.bare hended).trans rfl
    · obtain ⟨q, hended⟩ := State.guardEnded_off hguard hrun hpending hoff
      exact (congrArg State.bare hended).trans rfl
    · obtain ⟨q, hended⟩ := State.guardEnded_fault hguard hrun
      exact (congrArg State.bare hended).trans rfl
  case unit =>
    refine ⟨fun h => congrArg (fun t : State => Host.Outcome.next t.settleStep) (?_ : s.unitExpired n = s),
      fun due hdue hunits hcharged => ?_⟩
    · rw [State.unitExpired, hc]
      dsimp only
      rw [h]
    intro value
    obtain ⟨q, contexts, due', notices, hexpired, hcontext⟩ := State.unitExpired_form hc hdue hunits hcharged
    rw [State.unitDeadline_eq] at hcontext
    refine ⟨s.unitExpired n, rfl, ?_⟩
    rw [hexpired]
    refine ⟨rfl, hcontext, ?_, fun a ha => Table.get_set_of_ne _ _ ha.symm, rfl, rfl, rfl, rfl⟩
    exact congrArg Account.charged (Table.get_set_self _ _ _)

end Sys2Proof.Machine

/-! PROOF. Meter pulses, an answer that charges its first unit, and loop sense (R120, R121, R131, R189, R190). -/

namespace Sys2Proof.Machine

/-! ## Charging starts (R189, R192) -/

/-- A call's context that charges, its account's budget judged. -/
def CallContext.charging (x : Account) (now : Nat) (c : CallContext) : CallContext :=
  ({ c with phase := .charging } : CallContext).policed x now

theorem CallContext.charging_eq (x : Account) (now : Nat) {c : CallContext} (hmethod : c.method ≠ .none) : c.charging x now =
    if x.atBudget = true ∧ x.policy = .cut then { c with phase := .grace, graceTimer := some (now + Config.grace) }
    else { c with phase := .charging } := by
  rw [CallContext.charging, CallContext.policed]
  dsimp only
  exact if_neg hmethod

theorem State.startCharging_form {n : Fin 4} {c : CallContext} {s : State} (hc : s.context n = some c) :
    ∃ q, s.startCharging n = ({ s with charge := { s.charge with
      contexts := s.charge.contexts.set n (some (c.charging (s.account c.account) s.now)) } } : State).withQueue q := by
  obtain ⟨q, hmod⟩ := State.modContext_form n
    (fun c => ({ c with phase := .charging } : CallContext).policed (s.account c.account) s.now) s
  refine ⟨q, ?_⟩
  rw [State.startCharging, hmod, hc]
  rfl

/-- A call's context as its answer is told, the pulse that tells it counted (R131). -/
def CallContext.answeredBy (byPulse : Bool) (clock : ClockValue) (now : Nat) (c : CallContext) : CallContext :=
  { c with
    answerTime := some clock, answeredAt := some now, qualified := if byPulse then c.qualified + 1 else c.qualified }

/-- An answered call's context once its first unit is charged. -/
def CallContext.firstCharged (timer : Option Nat) (c : CallContext) : CallContext :=
  { c with units := c.units + 1, unitTimer := timer }

/-- An answer that charges the first unit: the account's, and the context's but for its grace timer. -/
def State.FirstCharged (n : Fin 4) (c : CallContext) (timer : Option Nat) (s t : State) : Prop :=
  t.charge.accounts = s.charge.accounts.set c.account (s.account c.account).chargedUnit ∧
  ∃ grace, t.context n =
    some (({ c.firstCharged timer with graceTimer := grace } : CallContext).charging (s.account c.account).chargedUnit s.now)

section Answer

variable {n : Fin 4} {c : CallContext} {s : State} (hc : s.context n = some c) (hunits : c.units ≠ BitVec.allOnes 32)
  (hcharged : (s.account c.account).charged ≠ BitVec.allOnes 32)

include hc hunits hcharged

/-- The state in which the first unit of an answered call has been charged. -/
theorem State.answer_charged (byPulse : Bool) : ∃ v w : State,
    v = s.setContext n (some (c.answeredBy byPulse s.charge.clock s.now)) ∧ w = v.chargeUnit n ∧
    (∀ band start, v.unitDeadline band start = s.unitDeadline band start) ∧ v.now = s.now ∧ w.now = s.now ∧
    w.charge.accounts = s.charge.accounts.set c.account (s.account c.account).chargedUnit ∧
    ∃ phase grace, w.context n = some { c.answeredBy byPulse s.charge.clock s.now with
      units := c.units + 1, phase := phase, graceTimer := grace } := by
  obtain ⟨q₁, hset, -⟩ := State.setContext_form n (some (c.answeredBy byPulse s.charge.clock s.now)) s
  obtain ⟨v, hv⟩ : ∃ v, v = s.setContext n (some (c.answeredBy byPulse s.charge.clock s.now)) := ⟨_, rfl⟩
  rw [← hv] at hset
  have hvcontext : v.context n = some (c.answeredBy byPulse s.charge.clock s.now) := by
    rw [hset]
    exact Table.get_set_self _ _ _
  have hvaccounts : v.charge.accounts = s.charge.accounts := by rw [hset, State.withQueue]
  have hvaccount (a : Fin 32) : v.account a = s.account a := congrArg (fun l => l.get a) hvaccounts
  obtain ⟨q, contexts, due, notices, hcharge, hcontext⟩ := State.chargeUnit_form hvcontext hunits (by
    rw [hvaccount]
    exact hcharged)
  obtain ⟨phase, grace, hpoliced⟩ := CallContext.policed_form
    (v.account (c.answeredBy byPulse s.charge.clock s.now).account).chargedUnit v.now
    { c.answeredBy byPulse s.charge.clock s.now with units := (c.answeredBy byPulse s.charge.clock s.now).units + 1 }
  rw [hpoliced] at hcontext
  rw [hvaccount, hvaccounts] at hcharge
  refine ⟨v, v.chargeUnit n, hv, rfl, fun band start => by rw [hset]; rfl, by rw [hset]; rfl, ?_, ?_, phase, grace, ?_⟩
  · rw [hcharge, hset]
    rfl
  · rw [hcharge]
    rfl
  · rw [hcharge]
    exact hcontext

/-- The answer of a TIME call charges its first unit and loads its unit timer. -/
theorem State.answerContext_time (hmethod : c.method = .time) (byPulse : Bool) :
    s.FirstCharged n (c.answeredBy byPulse s.charge.clock s.now) (s.unitDeadline c.band s.now) (s.answerContext n byPulse) := by
  obtain ⟨v, w, hv, hw, hdeadline, hvnow, hwnow, haccounts, phase, grace, hcontext⟩ :=
    State.answer_charged hc hunits hcharged byPulse
  obtain ⟨x, hx⟩ : ∃ x, x = w.modContext n fun y => { y with unitTimer := v.unitDeadline c.band v.now } := ⟨_, rfl⟩
  have hanswer : s.answerContext n byPulse = x.startCharging n := by
    subst hx hw hv
    unfold State.answerContext
    rw [hc]
    dsimp only
    split
    · rfl
    · next h => cases hmethod.symm.trans h
    · next h => cases hmethod.symm.trans h
  obtain ⟨q, hmod⟩ := State.modContext_form n (fun y => { y with unitTimer := v.unitDeadline c.band v.now }) w
  rw [← hx, hcontext, hdeadline, hvnow] at hmod
  have hxcontext : x.context n = some { c.answeredBy byPulse s.charge.clock s.now with
      units := c.units + 1, phase := phase, graceTimer := grace, unitTimer := s.unitDeadline c.band s.now } := by
    rw [hmod]
    exact Table.get_set_self _ _ _
  have hxaccounts : x.charge.accounts = w.charge.accounts := by rw [hmod, State.withQueue]
  have hxaccount : x.account c.account = (s.account c.account).chargedUnit := by
    rw [State.account, hxaccounts, haccounts, Table.get_set_self]
  have hxnow : x.now = s.now := by rw [hmod, State.withQueue, hwnow]
  obtain ⟨q', hstart⟩ := State.startCharging_form hxcontext
  rw [hanswer, hstart]
  refine ⟨hxaccounts.trans haccounts, grace, ?_⟩
  refine (Table.get_set_self _ _ _).trans (congrArg some ?_)
  rw [hxnow]
  exact (congrArg (fun a : Account => CallContext.charging a s.now _) hxaccount :)

/-- The pulse that answers a METER call charges its first unit. -/
theorem State.answerContext_pulse (hmethod : c.method = .meter) :
    s.FirstCharged n (c.answeredBy true s.charge.clock s.now) c.unitTimer (s.answerContext n true) := by
  obtain ⟨v, w, hv, hw, -, -, hwnow, haccounts, phase, grace, hcontext⟩ := State.answer_charged hc hunits hcharged true
  have hanswer : s.answerContext n true = w.startCharging n := by
    subst hw hv
    unfold State.answerContext
    rw [hc]
    dsimp only
    split
    · next h => cases hmethod.symm.trans h
    · rfl
    · next h => cases hmethod.symm.trans h
  have hwaccount : w.account c.account = (s.account c.account).chargedUnit := by
    rw [State.account, haccounts, Table.get_set_self]
  obtain ⟨q', hstart⟩ := State.startCharging_form hcontext
  rw [hanswer, hstart]
  refine ⟨haccounts, grace, ?_⟩
  refine (Table.get_set_self _ _ _).trans (congrArg some ?_)
  rw [hwnow]
  exact (congrArg (fun a : Account => CallContext.charging a s.now _) hwaccount :)

end Answer

/-- An outgoing call's answer charges in a state that differs in the line, the queue and the notices. -/
theorem State.callAnswered_charges {n : Fin 4} {c : CallContext} {timer : Option Nat} {source : AnswerSource} {s : State}
    (h : ∀ v : State, v.charge = s.charge → v.now = s.now → v.FirstCharged n c timer (v.answerContext n (decide (source = .meter)))) :
    s.FirstCharged n c timer (s.callAnswered n source) := by
  obtain ⟨v, hanswer, q, hv⟩ := State.callAnswered_form n source s
  have hcharge : v.charge = s.charge := by rw [hv]
  have hnow : v.now = s.now := by rw [hv]
  obtain ⟨haccounts, grace, hcontext⟩ := h v hcharge hnow
  rw [show v.account c.account = s.account c.account from
    congrArg (fun g : ChargeUnit => g.accounts.get c.account) hcharge] at haccounts hcontext
  rw [hcharge] at haccounts
  rw [hnow] at hcontext
  rw [hanswer]
  exact ⟨haccounts, grace, hcontext⟩

/-! ## Pulses counted (R120) -/

section Pulses

variable {n : Fin 4} {s : State}

theorem State.countPulse_none (h : s.context n = none) (qualified : Bool) : s.countPulse n qualified = s := by
  rw [State.countPulse, h]

theorem State.countPulse_rejected {c : CallContext} (h : s.context n = some c) : s.countPulse n false = { s with
    charge := { s.charge with contexts := s.charge.contexts.set n (some { c with rejected := c.rejected + 1 }) } } := by
  rw [State.countPulse, h]
  refine (if_neg Bool.false_ne_true).trans (if_pos ?_)
  rw [h]
  rfl

theorem State.countPulse_qualified {c : CallContext} (h : s.context n = some c) : s.countPulse n true =
    if c.method = .meter ∧ (c.phase = .charging ∨ c.phase = .grace) then
      ({ s with charge := { s.charge with
        contexts := s.charge.contexts.set n (some { c with qualified := c.qualified + 1 }) } } : State).chargeUnit n
    else { s with charge := { s.charge with
      contexts := s.charge.contexts.set n (some { c with qualified := c.qualified + 1 }) } } := by
  have hset : s.setContext n (some { c with qualified := c.qualified + 1 }) = { s with charge := { s.charge with
      contexts := s.charge.contexts.set n (some { c with qualified := c.qualified + 1 }) } } := by
    refine if_pos ?_
    rw [h]
    rfl
  rw [State.countPulse, h]
  dsimp only
  rw [if_pos rfl, hset]

end Pulses

end Sys2Proof.Machine

/-! PROOF. Ring bursts, glare and the ring cycle's end (R119, R122, R123, R125, R128). -/

namespace Sys2Proof.Machine

/-! ## A line that rings -/

/-- A line whose burst has been counted. -/
def LineUnit.counted (now : Nat) (u : LineUnit) : LineUnit :=
  { u with ring := .counted, lastBurst := some now, ringCycle := some (now + 8000000) }

/-- A line in RINGING with a ring count and what its answer lacks. -/
def LineUnit.ringingAt (count : Nat) (why : AnswerRefusal) (u : LineUnit) : LineUnit :=
  { u with record := { u.record with state := .ringing, ringCount := count, answerRefusal := why } }

theorem State.burstCounted_idle {n : Fin 4} {s : State}
    (h : (s.lineUnit n).record.state = .disabled ∨ ∀ due, (s.lineUnit n).ring ≠ .timing due) : s.burstCounted n = s := by
  unfold State.burstCounted
  split
  · next due hring => exact if_pos (h.resolve_right fun hne => hne due hring)
  · rfl

/-- A burst is counted in the state that the line is in. -/
theorem State.burstCounted_eq {n : Fin 4} {due : Nat} {s : State} (hring : (s.lineUnit n).ring = .timing due)
    (h : (s.lineUnit n).record.state ≠ .disabled) : s.burstCounted n = ({ s with
      now := max s.now due, lines := s.lines.set n ((s.lineUnit n).counted (max s.now due)) } : State).burst n := by
  rw [State.burstCounted, hring]
  refine (if_neg h).trans (congrArg (State.burst n) ?_)
  exact State.setLine_of_record_eq (s := s.reach due) rfl

section Burst

variable {n : Fin 4} {u : LineUnit} {s : State} (hu : s.lineUnit n = u)

include hu

theorem State.burst_elsewhere (h : u.record.state = .dialling ∨ u.record.state = .awaiting ∨ u.record.state = .connected ∨
    u.record.state = .clearing) : s.burst n = s := by
  rw [State.burst, hu]
  obtain h | h | h | h := h <;> rw [h]

theorem State.burst_quiet (hstate : u.record.state = .idle) (h : u.record.active.direction.rings = false) :
    s.burst n = s.modRecord n fun x => { x with ringCount := saturate 255 x.ringCount } := by
  rw [State.burst, hu, hstate]
  exact if_neg (by rw [h]; decide)

theorem State.burst_enters (hstate : u.record.state = .idle) (h : u.record.active.direction.rings = true) :
    s.burst n = s.enterRinging n := by
  rw [State.burst, hu, hstate]
  exact if_pos h

theorem State.burst_ringing (hstate : u.record.state = .ringing) :
    s.burst n = (s.modRecord n fun x => { x with ringCount := saturate 255 x.ringCount }).burstInRinging n := by
  rw [State.burst, hu, hstate]

theorem State.burst_seizing (hstate : u.record.state = .seizing) : s.burst n = s.glare n := by
  rw [State.burst, hu, hstate]

/-- The line enters RINGING, LINE raised, before its first burst is judged. -/
theorem State.enterRinging_form : ∃ q v, s.enterRinging n = v.burstInRinging n ∧ v = { s with
    lines := s.lines.set n (u.ringingAt 1 .none), ctl := { s.ctl with queue := q, notices := s.ctl.notices ||| Notice.line.bit } } ∧
    (u.record.state ≠ .ringing → QueueEntry.record (.line n) ∈ q) := by
  obtain ⟨q₁, hset, -, hqueued⟩ := State.setLine_form n ((s.lineUnit n).ringingAt 1 .none) s
  obtain ⟨q, hraise, hkeeps⟩ := State.raise_form .line (s.setLine n ((s.lineUnit n).ringingAt 1 .none))
  refine ⟨q, (s.setLine n ((s.lineUnit n).ringingAt 1 .none)).raise .line, rfl, ?_, fun hne => ?_⟩
  · rw [hraise, hset, hu]
    rfl
  · rw [hset] at hkeeps
    exact hkeeps _ (hqueued fun h => hne (hu ▸ (congrArg LineRecord.state h).symm))

/-- The ring count grows in RINGING or on a line that does not ring. -/
theorem State.ringCounted_form : ∃ q, s.modRecord n (fun x => { x with ringCount := saturate 255 x.ringCount }) = ({ s with
    lines := s.lines.set n { u with record := { u.record with ringCount := saturate 255 u.record.ringCount } } } :
      State).withQueue q := by
  obtain ⟨q, hmod⟩ := State.modRecord_form n (fun x => { x with ringCount := saturate 255 x.ringCount }) s
  rw [hu] at hmod
  exact ⟨q, hmod⟩

theorem State.burstInRinging_below (h : u.record.active.rings = 0 ∨ u.record.ringCount < u.record.active.rings) :
    s.burstInRinging n = s := by
  rw [State.burstInRinging, hu]
  exact if_neg fun ⟨hne, hle⟩ => h.elim hne hle.not_gt

theorem State.burstInRinging_reached (h : u.record.active.rings ≠ 0) (hle : u.record.active.rings ≤ u.record.ringCount) :
    s.burstInRinging n = s.answerTry n := by
  rw [State.burstInRinging, hu]
  exact if_pos ⟨h, hle⟩

/-- A line that cannot answer shows why, and a notice is raised. -/
theorem State.refusalShown_form (why : AnswerRefusal) (f : Notice) :
    ∃ q, (s.modRecord n fun r => { r with answerRefusal := why }).raise f = { s with
      lines := s.lines.set n { u with record := { u.record with answerRefusal := why } },
      ctl := { s.ctl with queue := q, notices := s.ctl.notices ||| f.bit } } := by
  obtain ⟨q₁, hmod⟩ := State.modRecord_form n (fun r => { r with answerRefusal := why }) s
  obtain ⟨q, hraise, -⟩ := State.raise_form f (s.modRecord n fun r => { r with answerRefusal := why })
  refine ⟨q, ?_⟩
  rw [hraise, hmod, hu]
  rfl

end Burst

section Try

variable {n : Fin 4} {s : State}

theorem State.answerTry_teardown (h : s.ctl.teardown ≠ none) : s.answerTry n = s := by
  unfold State.answerTry
  split
  · rfl
  · next hnone => exact absurd hnone h

variable (h : s.ctl.teardown = none)

include h

theorem State.answerTry_entry (hlacks : s.answerLacks = .entry) :
    s.answerTry n = (s.modRecord n fun r => { r with answerRefusal := .entry }).raise .dispatch := by
  rw [State.answerTry, h, hlacks]

theorem State.answerTry_log (hlacks : s.answerLacks = .log) :
    s.answerTry n = (s.modRecord n fun r => { r with answerRefusal := .log }).raise .log := by
  rw [State.answerTry, h, hlacks]

theorem State.answerTry_answers (hlacks : s.answerLacks = .none) : s.answerTry n = s.answer n := by
  rw [State.answerTry, h, hlacks]

end Try

/-! ## Glare (R128) -/

/-- The line of a call that ended in glare. -/
def LineUnit.glared (u : LineUnit) : LineUnit :=
  { u with
    record := { u.record with lastCause := .glare, destination := none, callDirection := .none },
    offHook := false, loopCheck := none, seizeDelay := none, loopLoss := none }

/-- A destination that is PENDING again after glare, no attempt counted. -/
def DestRecord.glared (r : DestRecord) : DestRecord :=
  { r with line := none, lastCause := .glare, state := .pending, retryDue := none }

section Glare

variable {n : Fin 4} {c : CallContext} {x : Fin 512} {s : State} (hc : s.context n = some c) (hx : c.destination = some x)
  (hcancel : (s.dest x).cancelRequested = false)

include hc hx hcancel

/-- A context ended with GLARE. -/
theorem State.endContext_glare : ∃ r q notices k, s.endContext n .glare = { s with
    freeCount := k, charge := s.charge.endCall n c r,
    dispatch := { s.dispatch with dests := s.dispatch.dests.set x (s.dest x).glared, arbiterDue := true },
    ctl := { s.ctl with queue := q, notices := notices } } ∧ r.OfCall n c .glare s.charge := by
  obtain ⟨u, r, q, notices, k, hu, hr, hsettles, -⟩ := State.endContext_form .glare hc
  have hdest : u.dest x = s.dest x := by
    rw [hu]
    rfl
  have hsettle : u.settle x .glare = u.becomePending x { s.dest x with line := none, lastCause := .glare } := by
    rw [← hdest]
    exact State.settle_glare (by rw [hdest]; exact hcancel) rfl rfl
  refine ⟨r, (u.becomePending x { s.dest x with line := none, lastCause := .glare }).ctl.queue, notices, k, ?_, hr⟩
  rw [hsettles x hx, hsettle]
  refine State.eq_of_bare ?_ rfl
  rw [State.becomePending_bare, hu]
  rfl

/-- The glare before the line's new state: the context ended, the line on hook. -/
theorem State.glare_form {u : LineUnit} (hu : s.lineUnit n = u) : ∃ r q notices k v, s.glare n =
    (if u.record.active.direction.rings then v.enterRinging n else v.modRecord n fun r => { r with state := .idle, ringCount := 1 }) ∧
    v = { s with
      freeCount := k, lines := s.lines.set n u.glared, charge := s.charge.endCall n c r,
      dispatch := { s.dispatch with dests := s.dispatch.dests.set x (s.dest x).glared, arbiterDue := true },
      ctl := { s.ctl with queue := q, notices := notices } } ∧ r.OfCall n c .glare s.charge := by
  obtain ⟨y, hy⟩ : ∃ y : LineUnit, y = { u with offHook := false, loopCheck := none, seizeDelay := none, loopLoss := none } :=
    ⟨_, rfl⟩
  obtain ⟨w, hw⟩ : ∃ w, w = s.modLine n fun u =>
    { u with offHook := false, loopCheck := none, seizeDelay := none, loopLoss := none } := ⟨_, rfl⟩
  have hwform : w = { s with lines := s.lines.set n y } := by
    rw [hw, hy, ← hu]
    exact State.setLine_of_record_eq rfl
  obtain ⟨r, q₁, notices, k, hend, hr⟩ := State.endContext_glare (s := w) (n := n) (c := c) (x := x) (by rw [hwform]; exact hc) hx
    (by rw [hwform]; exact hcancel)
  obtain ⟨e, he⟩ : ∃ e, e = w.endContext n .glare := ⟨_, rfl⟩
  rw [← he, hwform] at hend
  have heunit : e.lineUnit n = y := by
    rw [hend]
    exact Table.get_set_self _ _ _
  obtain ⟨q, hmod⟩ := State.modRecord_form n
    (fun r => { r with lastCause := .glare, destination := none, callDirection := .none }) e
  obtain ⟨v, hv⟩ : ∃ v, v = e.modRecord n fun r => { r with lastCause := .glare, destination := none, callDirection := .none } :=
    ⟨_, rfl⟩
  have hglare : s.glare n = if (v.lineUnit n).record.active.direction.rings then v.enterRinging n
      else v.modRecord n fun r => { r with state := .idle, ringCount := 1 } := by
    rw [hv, he, hw]
    rfl
  rw [← hv, heunit, hend] at hmod
  have hvform : v = { s with
      freeCount := k, lines := s.lines.set n u.glared, charge := s.charge.endCall n c r,
      dispatch := { s.dispatch with dests := s.dispatch.dests.set x (s.dest x).glared, arbiterDue := true },
      ctl := { s.ctl with queue := q, notices := notices } } := by
    rw [hmod, hy]
    exact congrArg (fun l => ({ s with
      freeCount := k, lines := l, charge := s.charge.endCall n c r,
      dispatch := { s.dispatch with dests := s.dispatch.dests.set x (s.dest x).glared, arbiterDue := true },
      ctl := { s.ctl with queue := q, notices := notices } } : State)) (Table.set_set ..)
  have hvunit : v.lineUnit n = u.glared := by
    rw [hvform]
    exact Table.get_set_self _ _ _
  rw [hvunit] at hglare
  refine ⟨r, q, notices, k, v, hglare, hvform, ?_⟩
  rw [hwform] at hr
  exact hr

end Glare

/-! ## A burst that the line's state counts -/

theorem LineDirection.rings_iff (x : LineDirection) : x.rings = true ↔ x = .incoming ∨ x = .both := by
  cases x <;> decide

theorem LineDirection.rings_eq_false_iff (x : LineDirection) : x.rings = false ↔ x = .off ∨ x = .out := by
  cases x <;> decide

/-- A line in RINGING as a counted burst finds or puts it. -/
def LineUnit.burstRung (now : Nat) (u : LineUnit) : LineUnit :=
  { u.counted now with record := { u.record with
    state := .ringing, ringCount := if u.record.state = .idle then 1 else saturate 255 u.record.ringCount,
    answerRefusal := if u.record.state = .idle then .none else u.record.answerRefusal } }

section Rung

variable {n : Fin 4} {due : Nat} {u : LineUnit} {s : State} (hu : s.lineUnit n = u) (hring : u.ring = .timing due)

include hu hring

/-- A counted burst in RINGING, or on an IDLE line that may be answered: what is left to judge is the answering count. -/
theorem State.burstCounted_rings
    (h : (u.record.state = .idle ∧ u.record.active.direction.rings = true) ∨ u.record.state = .ringing) :
    ∃ (q : List QueueEntry) (v : State), s.burstCounted n = v.burstInRinging n ∧ v = { s with
      now := max s.now due, lines := s.lines.set n (u.burstRung (max s.now due)),
      ctl := { s.ctl with
        queue := q,
        notices := if u.record.state = .idle then s.ctl.notices ||| Notice.line.bit else s.ctl.notices } } ∧
      (u.record.state = .idle → QueueEntry.record (.line n) ∈ q) := by
  obtain ⟨w, hw⟩ : ∃ w : State, w = { s with
    now := max s.now due, lines := s.lines.set n (u.counted (max s.now due)) } := ⟨_, rfl⟩
  have hburst : s.burstCounted n = w.burst n := by
    rw [hw, ← hu]
    refine State.burstCounted_eq (by rw [hu]; exact hring) ?_
    rw [hu]
    obtain ⟨h, -⟩ | h := h
    · rw [h]
      decide
    · rw [h]
      decide
  have hwunit : w.lineUnit n = u.counted (max s.now due) := by
    rw [hw]
    exact Table.get_set_self _ _ _
  obtain ⟨hidle, hrings⟩ | hringing := h
  · obtain ⟨q, v, henter, hv, hqueued⟩ := State.enterRinging_form hwunit
    refine ⟨q, v, hburst.trans ((State.burst_enters hwunit hidle hrings).trans henter), ?_, fun _ => hqueued ?_⟩
    · rw [hv, hw, LineUnit.burstRung, if_pos hidle, if_pos hidle, if_pos hidle]
      exact congrArg (fun l => ({ s with
        now := max s.now due, lines := l,
        ctl := { s.ctl with queue := q, notices := s.ctl.notices ||| Notice.line.bit } } : State)) (Table.set_set ..)
    · rw [LineUnit.counted, hidle]
      decide
  · have hne : u.record.state ≠ .idle := by
      rw [hringing]
      decide
    obtain ⟨q, hmod⟩ := State.ringCounted_form hwunit
    refine ⟨q, _, hburst.trans (State.burst_ringing hwunit hringing), ?_, fun h => absurd h hne⟩
    rw [hmod, hw, LineUnit.burstRung, if_neg hne, if_neg hne, if_neg hne, ← hringing]
    exact congrArg (fun l => ({ s with now := max s.now due, lines := l, ctl := { s.ctl with queue := q } } : State))
      (Table.set_set ..)

/-- A counted burst on an IDLE line that rings for no call: the ring count alone grows. -/
theorem State.burstCounted_quiet (hidle : u.record.state = .idle) (hrings : u.record.active.direction.rings = false) :
    ∃ q, s.burstCounted n = { s with
      now := max s.now due,
      lines := s.lines.set n { u.counted (max s.now due) with
        record := { u.record with ringCount := saturate 255 u.record.ringCount } },
      ctl := { s.ctl with queue := q } } := by
  obtain ⟨w, hw⟩ : ∃ w : State, w = { s with
    now := max s.now due, lines := s.lines.set n (u.counted (max s.now due)) } := ⟨_, rfl⟩
  have hburst : s.burstCounted n = w.burst n := by
    rw [hw, ← hu]
    refine State.burstCounted_eq (by rw [hu]; exact hring) ?_
    rw [hu, hidle]
    decide
  have hwunit : w.lineUnit n = u.counted (max s.now due) := by
    rw [hw]
    exact Table.get_set_self _ _ _
  obtain ⟨q, hmod⟩ := State.ringCounted_form hwunit
  refine ⟨q, ?_⟩
  rw [hburst, State.burst_quiet hwunit hidle hrings, hmod, hw]
  exact congrArg (fun l => ({ s with now := max s.now due, lines := l, ctl := { s.ctl with queue := q } } : State))
    (Table.set_set ..)

/-- A counted burst in SEIZING is glare. -/
theorem State.burstCounted_glares (hstate : u.record.state = .seizing) : s.burstCounted n = ({ s with
    now := max s.now due, lines := s.lines.set n (u.counted (max s.now due)) } : State).glare n := by
  rw [State.burstCounted_eq (n := n) (due := due) (by rw [hu]; exact hring) (by rw [hu, hstate]; decide), hu]
  exact State.burst_seizing (Table.get_set_self _ _ _) hstate

end Rung

/-! ## The ring cycle's end (R119, R125) -/

/-- A line whose ring cycle has ended. -/
def LineUnit.cycleOver (u : LineUnit) : LineUnit := { u with ringCycle := none, record := { u.record with ringCount := 0 } }

section Cycle

variable {n : Fin 4} {due : Nat} {u : LineUnit} {s : State} (hu : s.lineUnit n = u) (hcycle : u.ringCycle = some due)

include hu hcycle

/-- The line whose cycle has ended, in the state that its end judges. -/
theorem State.ringCycleEnded_stops : ∃ q v, v = { s with
      now := max s.now due, lines := s.lines.set n u.cycleOver, ctl := { s.ctl with queue := q } } ∧
    (u.record.state ≠ .ringing → u.record.state ≠ .idle → s.ringCycleEnded n = v) ∧
    (u.record.state = .idle → s.ringCycleEnded n = v.askArbiter) ∧
    (u.record.state = .ringing → s.ringCycleEnded n =
      ((v.modRecord n fun r => { r with answerRefusal := .none }).applyIdle n).askArbiter) := by
  obtain ⟨v, hv⟩ : ∃ v, v = (s.reach due).modLine n fun u =>
    { u with ringCycle := none, record := { u.record with ringCount := 0 } } := ⟨_, rfl⟩
  obtain ⟨q, hset, -⟩ := State.setLine_form n u.cycleOver (s.reach due)
  have hvform : v = { s with
      now := max s.now due, lines := s.lines.set n u.cycleOver, ctl := { s.ctl with queue := q } } := by
    rw [hv]
    refine Eq.trans ?_ hset
    exact congrArg (fun y => (s.reach due).setLine n (LineUnit.cycleOver y)) hu
  have hvunit : v.lineUnit n = u.cycleOver := by
    rw [hvform]
    exact Table.get_set_self _ _ _
  refine ⟨q, v, hvform, fun hringing hidle => ?_, fun h => ?_, fun h => ?_⟩
  · unfold State.ringCycleEnded
    rw [hu, hcycle]
    dsimp only
    rw [← hv, hvunit]
    split
    · next h => exact absurd h hringing
    · next h => exact absurd h hidle
    · rfl
  · unfold State.ringCycleEnded
    rw [hu, hcycle]
    dsimp only
    rw [← hv, hvunit, show u.cycleOver.record.state = .idle from h]
  · unfold State.ringCycleEnded
    rw [hu, hcycle]
    dsimp only
    rw [← hv, hvunit, show u.cycleOver.record.state = .ringing from h]

/-- A line in RINGING whose cycle has ended, as the settings that wait find it. -/
def LineUnit.rungOut (u : LineUnit) : LineUnit :=
  { u.cycleOver with record := { u.cycleOver.record with answerRefusal := .none } }

variable (hstate : u.record.state = .ringing)

include hstate

theorem State.ringCycleEnded_applies : ∃ q v, s.ringCycleEnded n = (v.applyIdle n).askArbiter ∧ v = { s with
    now := max s.now due, lines := s.lines.set n u.rungOut, ctl := { s.ctl with queue := q } } := by
  obtain ⟨q₁, v, hv, -, -, hringing⟩ := State.ringCycleEnded_stops hu hcycle
  have hvunit : v.lineUnit n = u.cycleOver := by
    rw [hv]
    exact Table.get_set_self _ _ _
  obtain ⟨q, hmod⟩ := State.modRecord_form n (fun r => { r with answerRefusal := .none }) v
  refine ⟨q, _, hringing hstate, ?_⟩
  rw [hmod, hvunit, hv]
  exact congrArg (fun l => ({ s with now := max s.now due, lines := l, ctl := { s.ctl with queue := q } } : State))
    (Table.set_set ..)

theorem State.ringCycleEnded_idles (h : u.record.pending = none ∨ u.record.nextSettings.direction ≠ .off) :
    ∃ q, s.ringCycleEnded n = { s with
      now := max s.now due,
      lines := s.lines.set n { u.rungOut with
        record := { u.rungOut.record with active := u.record.nextSettings, pending := none, state := .idle } },
      dispatch := { s.dispatch with arbiterDue := true }, ctl := { s.ctl with queue := q } } := by
  obtain ⟨q₁, v, hended, hv⟩ := State.ringCycleEnded_applies hu hcycle hstate
  obtain ⟨q, happly⟩ := State.applyIdle_idles (s := v) (n := n) (u := u.rungOut) (by rw [hv]; exact Table.get_set_self _ _ _) h
  refine ⟨q, ?_⟩
  rw [hended, happly, hv]
  exact congrArg (fun l => ({ s with
    now := max s.now due, lines := l, dispatch := { s.dispatch with arbiterDue := true },
    ctl := { s.ctl with queue := q } } : State)) (Table.set_set ..)

theorem State.ringCycleEnded_disables (hpending : u.record.pending ≠ none) (hoff : u.record.nextSettings.direction = .off) :
    ∃ q, s.ringCycleEnded n = { s with
      now := max s.now due,
      lines := s.lines.set n { u.rungOut.quiet with
        record := { u.rungOut.record with
          active := u.record.nextSettings, pending := none, state := .disabled, disabledReason := .off, ringCount := 0 } },
      dispatch := { s.dispatch with arbiterDue := true }, ctl := { s.ctl with queue := q } } := by
  obtain ⟨q₁, v, hended, hv⟩ := State.ringCycleEnded_applies hu hcycle hstate
  obtain ⟨q, happly⟩ := State.applyIdle_disables (s := v) (n := n) (u := u.rungOut) (by rw [hv]; exact Table.get_set_self _ _ _)
    hpending hoff
  refine ⟨q, ?_⟩
  rw [hended, happly, hv]
  exact congrArg (fun l => ({ s with
    now := max s.now due, lines := l, dispatch := { s.dispatch with arbiterDue := true },
    ctl := { s.ctl with queue := q } } : State)) (Table.set_set ..)

end Cycle

end Sys2Proof.Machine

/-! PROOF. Meter pulses, reversals, loop sense and ring signals settle as one statement (R119 to R125, R128, R131, R189). -/

namespace Sys2Proof.Machine

/-- A meter pulse has ended: its start is gone. -/
theorem State.pulse_stops (n : Fin 4) (due : Nat) (s : State) : (s.reach due).modLine n (fun u => { u with meterStart := none }) =
    { s with now := max s.now due, lines := s.lines.set n { s.lineUnit n with meterStart := none } } :=
  State.setLine_of_record_eq (s := s.reach due) rfl

theorem meterQualified_iff (width : Nat) : meterQualified width = true ↔ 30000 ≤ width ∧ width ≤ 300000 := by
  rw [meterQualified, Bool.and_eq_true, decide_eq_true_eq, decide_eq_true_eq]
  rfl

section Pulse

variable {n : Fin 4} {start : Nat} {s : State} (h : (s.lineUnit n).meterStart = some start) (width : Nat)

include h

/-- A pulse is judged in the state of the line that its end leaves. -/
theorem State.pulseEnded_judges : ∃ v : State, v = { s with
      now := max s.now (start + width), lines := s.lines.set n { s.lineUnit n with meterStart := none } } ∧
    ((s.lineUnit n).record.state = .awaiting → meterQualified width = true → s.pulseEnded n width = v.callAnswered n .meter) ∧
    ((s.lineUnit n).record.state = .awaiting → meterQualified width = false → s.pulseEnded n width = v.countPulse n false) ∧
    ((s.lineUnit n).record.state = .connected → s.pulseEnded n width = v.countPulse n (meterQualified width)) ∧
    ((s.lineUnit n).record.state ≠ .awaiting → (s.lineUnit n).record.state ≠ .connected → s.pulseEnded n width = v) := by
  obtain ⟨v, hv⟩ : ∃ v : State, v = { s with
      now := max s.now (start + width), lines := s.lines.set n { s.lineUnit n with meterStart := none } } := ⟨_, rfl⟩
  have hstate : (v.lineUnit n).record.state = (s.lineUnit n).record.state := by
    have hunit : v.lineUnit n = { s.lineUnit n with meterStart := none } := by
      rw [hv]
      exact Table.get_set_self _ _ _
    rw [hunit]
  refine ⟨v, hv, fun hawait hq => ?_, fun hawait hq => ?_, fun hconn => ?_, fun hawait hconn => ?_⟩ <;>
    unfold State.pulseEnded <;> rw [h] <;> dsimp only <;> rw [State.pulse_stops, ← hv]
  · rw [hstate, hawait]
    exact if_pos hq
  · rw [hstate, hawait]
    exact if_neg (by rw [hq]; decide)
  · rw [hstate, hconn]
  · split
    · next hst => exact absurd (hstate.symm.trans hst) hawait
    · next hst => exact absurd (hstate.symm.trans hst) hconn
    · rfl

end Pulse

/-- A qualified pulse that a METER call's context counts is charged. -/
theorem State.countPulse_charges {n : Fin 4} {c : CallContext} {s : State} (hc : s.context n = some c) (hmethod : c.method = .meter)
    (hphase : c.phase = .charging ∨ c.phase = .grace) (hunits : c.units ≠ BitVec.allOnes 32)
    (hcharged : (s.account c.account).charged ≠ BitVec.allOnes 32) :
    ((s.countPulse n true).context n).map (fun x => x.units) = some (c.units + 1) ∧
    ((s.countPulse n true).account c.account).charged = (s.account c.account).charged + 1 := by
  obtain ⟨v, hv⟩ : ∃ v : State, v = { s with charge := { s.charge with
    contexts := s.charge.contexts.set n (some { c with qualified := c.qualified + 1 }) } } := ⟨_, rfl⟩
  have hcount : s.countPulse n true = v.chargeUnit n := by
    rw [State.countPulse_qualified hc, hv]
    exact if_pos ⟨hmethod, hphase⟩
  have hvcontext : v.context n = some { c with qualified := c.qualified + 1 } := by
    rw [hv]
    exact Table.get_set_self _ _ _
  have hvaccount : v.account c.account = s.account c.account := by
    rw [hv]
    rfl
  obtain ⟨q, contexts, due, notices, hcharge, hcontext⟩ := State.chargeUnit_form hvcontext hunits (by
    rw [hvaccount]
    exact hcharged)
  obtain ⟨phase, grace, hpoliced⟩ := CallContext.policed_form (v.account c.account).chargedUnit v.now
    { c with qualified := c.qualified + 1, units := c.units + 1 }
  rw [hcount, hcharge]
  refine ⟨?_, ?_⟩
  · exact (congrArg (Option.map CallContext.units) (hcontext.trans (congrArg some hpoliced)) :)
  · refine (congrArg Account.charged (Table.get_set_self _ _ _)).trans ?_
    rw [hvaccount]
    rfl

/-- A qualified pulse counts in the context. -/
theorem State.countPulse_counts (n : Fin 4) (s : State) :
    ((s.countPulse n true).context n).map (fun x => x.qualified) = (s.context n).map (fun x => x.qualified + 1) := by
  cases hc : s.context n with
  | none => rw [State.countPulse_none hc, hc]; rfl
  | some c =>
    rw [State.countPulse_qualified hc]
    obtain ⟨v, hv⟩ : ∃ v : State, v = { s with charge := { s.charge with
      contexts := s.charge.contexts.set n (some { c with qualified := c.qualified + 1 }) } } := ⟨_, rfl⟩
    have hvcontext : v.context n = some { c with qualified := c.qualified + 1 } := by
      rw [hv]
      exact Table.get_set_self _ _ _
    rw [← hv]
    split
    · obtain ⟨q, k, contexts, due, notices, units, charged, hcharge, hcontext, -⟩ := State.chargeUnit_result hvcontext
      obtain ⟨phase, grace, hpoliced⟩ := CallContext.policed_form
        ({ v.account c.account with charged := charged } : Account).judgedAccount v.now
        { c with qualified := c.qualified + 1, units := units }
      rw [hcharge]
      exact (congrArg (Option.map CallContext.qualified) (hcontext.trans (congrArg some hpoliced)) :)
    · rw [hvcontext]
      rfl

/-! ## Loop sense (R121, R134) -/

theorem LineUnit.loopEstablished_iff (u : LineUnit) : u.loopEstablished = true ↔
    (u.record.state = .seizing ∧ u.loopSeen = true) ∨ u.record.state = .dialling ∨ u.record.state = .awaiting ∨
      u.record.state = .connected := by
  unfold LineUnit.loopEstablished
  cases u.record.state <;> simp

/-- A line unit replaced with its record as it was, in a successful step. -/
theorem State.next_setLine {n : Fin 4} {u : LineUnit} {s t : State} (ht : t = s.setLine n u)
    (h : u.record = (s.lineUnit n).record) :
    Host.Outcome.next t.settleStep = (.next ({ s with lines := s.lines.set n u } : State).settleStep :
      Host.Outcome State Fault Refusal) :=
  congrArg (fun t : State => Host.Outcome.next t.settleStep) (ht.trans (State.setLine_of_record_eq h))

theorem State.next_same {s t : State} (ht : t = s) :
    Host.Outcome.next t.settleStep = (.next s.settleStep : Host.Outcome State Fault Refusal) :=
  congrArg (fun t : State => Host.Outcome.next t.settleStep) ht

/-- The charging that a first unit leaves, as the account's record and the context's fields. -/
theorem State.FirstCharged.shows {n : Fin 4} {c : CallContext} {timer : Option Nat} {s t : State} (h : s.FirstCharged n c timer t)
    (hmethod : c.method ≠ .none) :
    t.account c.account = (s.account c.account).chargedUnit ∧ ∃ grace, t.context n = some { c with
      units := c.units + 1, unitTimer := timer, graceTimer := grace,
      phase := if (s.account c.account).chargedUnit.atBudget = true ∧ (s.account c.account).chargedUnit.policy = .cut
        then .grace else .charging } := by
  obtain ⟨haccounts, grace, hcontext⟩ := h
  refine ⟨(congrArg (fun l => l.get c.account) haccounts).trans (Table.get_set_self _ _ _), ?_⟩
  rw [CallContext.charging_eq _ _ (c := { c.firstCharged timer with graceTimer := grace }) hmethod] at hcontext
  by_cases hcut : (s.account c.account).chargedUnit.atBudget = true ∧ (s.account c.account).chargedUnit.policy = .cut
  · rw [if_pos hcut] at hcontext ⊢
    exact ⟨_, hcontext⟩
  · rw [if_neg hcut] at hcontext ⊢
    exact ⟨_, hcontext⟩

theorem Account.chargedUnit_eq {x : Account} (h : x.charged ≠ BitVec.allOnes 32) : x.chargedUnit = { x with
    charged := x.charged + 1, atBudget := decide (x.budget ≠ 0 ∧ x.budget ≤ x.charged.toNat + 1) } := by
  have hnext : (x.charged + 1).toNat = x.charged.toNat + 1 := by
    have hne : x.charged.toNat ≠ 4294967295 := fun heq => h (BitVec.eq_of_toNat_eq heq)
    bv_omega
  rw [Account.chargedUnit, Account.judgedAccount, Account.overBudget, ← Bool.decide_and]
  dsimp only
  rw [hnext]

/-- Settles O58: pulses and answers by the charged unit, loop sense and ring signals by the line's state, bursts and glare by
the state that they leave. -/
theorem meterReversalAndLoopSignals : Obligations.MeterReversalAndLoopSignals := by
  refine ⟨fun n width s => ?meter, fun n s => ?reversal, fun n s => ?loop, fun n s => ?ring, fun n s => ?burst, fun n s => ?cycle⟩
  case meter =>
    intro u
    refine ⟨fun hstate hnone => ?_, fun h => ?_, fun h => State.next_same (t := s.pulseEnded n width) ?_, fun start hstart => ?_⟩
    · exact State.next_setLine (t := s.meterActive n) (if_pos ⟨hstate, hnone⟩) rfl
    · exact State.next_same (t := s.meterActive n) (if_neg fun ⟨hstate, hnone⟩ => h.elim hstate fun hne => hne hnone)
    · rw [State.pulseEnded, show (s.lineUnit n).meterStart = none from h]
    intro ended
    obtain ⟨v, hv, hanswers, hrejects, hcounts, helse⟩ := State.pulseEnded_judges hstart width
    have hvcontext : v.context n = s.context n := by
      rw [hv]
      rfl
    have hvcharge : v.charge = s.charge := by rw [hv]
    have hvaccount (a : Fin 32) : v.account a = s.account a := congrArg (fun g : ChargeUnit => g.accounts.get a) hvcharge
    refine ⟨fun hawait hconn => ?_, fun hstate hbad => ?_, fun hconn hlow hhigh => ?_, fun hawait hlow hhigh => ?_⟩
    · exact State.next_same (t := s.pulseEnded n width) ((helse hawait hconn).trans hv)
    · have hq : meterQualified width = false := Bool.eq_false_iff.mpr fun h => hbad ((meterQualified_iff width).mp h)
      have hrejected : s.pulseEnded n width = v.countPulse n false := by
        obtain h | h := hstate
        · exact hrejects h hq
        · rw [hcounts h, hq]
      refine State.next_same (t := s.pulseEnded n width) ?_
      cases hc : s.context n with
      | none =>
        rw [hrejected, State.countPulse_none (hvcontext.trans hc)]
        exact hv
      | some c =>
        rw [hrejected, State.countPulse_rejected (hvcontext.trans hc), hv]
    · have hq : meterQualified width = true := (meterQualified_iff width).mpr ⟨hlow, hhigh⟩
      have hcounted : s.pulseEnded n width = v.countPulse n true := by rw [hcounts hconn, hq]
      obtain ⟨hmem, -, -, hlines, -⟩ := (State.OnlyCharge.countPulse n true v).leaves
      refine ⟨s.pulseEnded n width, rfl, ?_⟩
      rw [hcounted]
      refine ⟨by rw [hlines, hv], by rw [hmem, hv], by rw [State.countPulse_counts, hvcontext],
        fun c hc hmethod hphase hunits hcharged => ?_⟩
      have hcharges := State.countPulse_charges (hvcontext.trans hc) hmethod hphase hunits (by rw [hvaccount]; exact hcharged)
      rw [hvaccount] at hcharges
      exact hcharges
    · have hq : meterQualified width = true := (meterQualified_iff width).mpr ⟨hlow, hhigh⟩
      obtain ⟨hlines, hpending, hmem, -⟩ := State.callAnswered_leaves n .meter v
      have hvunit : v.lineUnit n = { u with meterStart := none } := by
        rw [hv]
        exact Table.get_set_self _ _ _
      refine ⟨s.pulseEnded n width, rfl, ?_⟩
      rw [hanswers hawait hq]
      refine ⟨?_, hpending, by rw [hmem, hv], fun c hc hmethod hunits hcharged => ?_⟩
      · rw [hlines, hvunit, hv]
        exact Table.set_set ..
      · have hfirst : v.FirstCharged n (c.answeredBy true v.charge.clock v.now) c.unitTimer (v.callAnswered n .meter) :=
          State.callAnswered_charges fun w hw hnow => by
            have hwcontext : w.context n = some c :=
              (congrArg (fun g : ChargeUnit => g.contexts.get n) hw).trans (hvcontext.trans hc)
            have hwaccount : w.account c.account = s.account c.account :=
              (congrArg (fun g : ChargeUnit => g.accounts.get c.account) hw).trans (hvaccount _)
            rw [← hw, ← hnow]
            exact State.answerContext_pulse hwcontext hunits (by rw [hwaccount]; exact hcharged) hmethod
        obtain ⟨haccount, grace, hcontext⟩ := hfirst.shows (by
          rw [show (c.answeredBy true v.charge.clock v.now).method = c.method from rfl, hmethod]
          decide)
        refine ⟨?_, ?_⟩
        · rw [hcontext]
          rfl
        · refine (congrArg Account.charged haccount).trans ?_
          exact congrArg (fun x : Account => x.charged + 1) (hvaccount c.account)
  case reversal =>
    intro u
    refine ⟨fun h => State.next_same (t := s.reversed n) (if_neg h), fun hawait => ?_⟩
    obtain ⟨hlines, hpending, hmem, hstore, hstreams, -⟩ := State.callAnswered_leaves n .reversal s
    refine ⟨s.callAnswered n .reversal, State.next_same (t := s.reversed n) (if_pos hawait), hlines, hpending, hmem, hstore, hstreams,
      fun c hc hmethod hunits hcharged => ?_⟩
    intro x value full
    have hfirst : s.FirstCharged n (c.answeredBy false s.charge.clock s.now) (s.unitDeadline c.band s.now)
        (s.callAnswered n .reversal) :=
      State.callAnswered_charges fun w hw hnow => by
        have hwcontext : w.context n = some c := (congrArg (fun g : ChargeUnit => g.contexts.get n) hw).trans hc
        have hwaccount : w.account c.account = s.account c.account :=
          congrArg (fun g : ChargeUnit => g.accounts.get c.account) hw
        have hdeadline : s.unitDeadline c.band s.now = w.unitDeadline c.band w.now := by
          rw [State.unitDeadline, State.unitDeadline, hw, hnow]
        rw [hdeadline, ← hw, ← hnow]
        exact State.answerContext_time hwcontext hunits (by rw [hwaccount]; exact hcharged) hmethod false
    obtain ⟨haccount, grace, hcontext⟩ := hfirst.shows (by
      rw [show (c.answeredBy false s.charge.clock s.now).method = c.method from rfl, hmethod]
      decide)
    rw [State.unitDeadline_eq] at hcontext
    have hcharge : x.chargedUnit = { x with charged := x.charged + 1, atBudget := decide full } :=
      Account.chargedUnit_eq hcharged
    refine ⟨?_, ?_, ?_, haccount.trans hcharge⟩
    · rw [hcontext]
      rfl
    · rw [hcontext]
      rfl
    · rw [hcontext]
      refine congrArg some ?_
      rw [show (s.account (c.answeredBy false s.charge.clock s.now).account).chargedUnit = x.chargedUnit from rfl, hcharge]
      exact if_congr (and_congr_left' decide_eq_true_iff) rfl rfl
  case loop =>
    intro u
    refine ⟨fun hcall => State.next_setLine (t := s.loopPresent n) (if_pos hcall) rfl,
      fun hcall => State.next_same (t := s.loopPresent n) (if_neg (by
        rw [show (s.lineUnit n).record.state.hasCall = false from hcall]
        decide)), fun h hnone => ?_, fun h => ?_⟩
    · exact State.next_setLine (t := s.loopAbsent n) (if_pos ⟨u.loopEstablished_iff.mpr h, hnone⟩) rfl
    · refine State.next_same (t := s.loopAbsent n) (if_neg fun ⟨hestablished, hnone⟩ => ?_)
      have hloop := u.loopEstablished_iff.mp hestablished
      obtain hne | hcall | ⟨hseizing, hseen⟩ := h
      · exact hne hnone
      · obtain ⟨hst, -⟩ | hst | hst | hst := hloop <;> rw [hst] at hcall <;> cases hcall
      · rw [hseizing, hseen] at hloop
        obtain ⟨-, h⟩ | h | h | h := hloop <;> cases h
  case ring =>
    intro u
    refine ⟨fun hstate hring => State.next_setLine (t := s.ringActive n) (if_pos ⟨hstate, hring⟩) rfl,
      fun h => State.next_same (t := s.ringActive n) (if_neg fun ⟨hstate, hring⟩ => h.elim hstate fun hne => hne hring),
      State.next_setLine (t := s.ringInactive n) rfl rfl⟩
  case burst =>
    intro u
    refine ⟨fun h => State.next_same (t := s.burstCounted n) (State.burstCounted_idle h), fun due hring => ?_⟩
    intro at_ v
    refine ⟨fun h => ?elsewhere, fun hidle hdir hrings => ?rings, fun h => ?counts, ?tries, fun c x hseizing hc hx hcancel hnot => ?glares,
      fun c x hseizing hc hx hcancel hup hdir hone => ?glareTries⟩
    case elsewhere =>
      refine State.next_same (t := s.burstCounted n) ?_
      rw [State.burstCounted_eq hring (by
        obtain h | h | h | h := h <;> rw [show (s.lineUnit n).record.state = _ from h] <;> decide)]
      exact State.burst_elsewhere (Table.get_set_self _ _ _) h
    case rings =>
      obtain ⟨q, w, hburst, hw, hqueued⟩ := State.burstCounted_rings (u := u) rfl hring
        (.inl ⟨hidle, (LineDirection.rings_iff _).mpr hdir⟩)
      rw [LineUnit.burstRung, if_pos hidle, if_pos hidle, if_pos hidle] at hw
      have hbelow : w.burstInRinging n = w := by
        refine State.burstInRinging_below (u := { v with record := { u.record with
          state := .ringing, ringCount := 1, answerRefusal := .none } }) (by rw [hw]; exact Table.get_set_self _ _ _) ?_
        change u.record.active.rings = 0 ∨ 1 < u.record.active.rings
        omega
      rw [hbelow] at hburst
      refine ⟨s.burstCounted n, rfl, State.eq_of_bare ?_ rfl, ?_⟩
      · rw [hburst, hw]
        rfl
      · rw [hburst, hw]
        exact hqueued hidle
    case counts =>
      refine ⟨s.burstCounted n, rfl, State.eq_of_bare ?_ rfl⟩
      obtain ⟨hidle, hdir⟩ | ⟨hringing, hbelow⟩ := h
      · obtain ⟨q, hburst⟩ := State.burstCounted_quiet (u := u) rfl hring hidle ((LineDirection.rings_eq_false_iff _).mpr hdir)
        exact (congrArg State.bare hburst).trans rfl
      · obtain ⟨q, w, hburst, hw, -⟩ := State.burstCounted_rings (u := u) rfl hring (.inr hringing)
        have hne : u.record.state ≠ .idle := by
          rw [hringing]
          decide
        rw [LineUnit.burstRung, if_neg hne, if_neg hne, if_neg hne, ← hringing] at hw
        have hsame : w.burstInRinging n = w := State.burstInRinging_below
          (u := { v with record := { u.record with ringCount := saturate 255 u.record.ringCount } })
          (by rw [hw]; exact Table.get_set_self _ _ _) hbelow
        rw [hsame] at hburst
        rw [hburst, hw]
        rfl
    case tries =>
      intro entered count refused htried
      have hstate : (u.record.state = .idle ∧ u.record.active.direction.rings = true) ∨ u.record.state = .ringing :=
        htried.imp (fun ⟨hidle, hdir, _⟩ => ⟨hidle, (LineDirection.rings_iff _).mpr hdir⟩) And.left
      obtain ⟨q, w, hburst, hw, -⟩ := State.burstCounted_rings (u := u) rfl hring hstate
      have hwunit : w.lineUnit n = u.burstRung at_ := by
        rw [hw]
        exact Table.get_set_self _ _ _
      have hreached : u.record.active.rings ≠ 0 ∧ u.record.active.rings ≤ count := by
        obtain ⟨hidle, -, hone⟩ | ⟨-, hne, hle⟩ := htried
        · rw [show count = 1 from if_pos hidle, hone]
          exact ⟨by decide, le_rfl⟩
        · exact ⟨hne, hle⟩
      rw [State.burstInRinging_reached hwunit hreached.1 hreached.2] at hburst
      have hlacksEntry (h : ∀ d, (s.doc d).inUse = true) : w.answerLacks = .entry :=
        State.answerLacks_entry (by rw [hw]; exact h)
      have hlacks (h : ∃ d, (s.doc d).inUse = false) : w.answerLacks = if s.mayReserve then .none else .log :=
        (State.answerLacks_of_entry (by rw [hw]; exact h)).trans (by rw [hw]; rfl)
      have hwup : w.ctl.teardown = s.ctl.teardown := by rw [hw]
      refine ⟨fun hup => ⟨s.burstCounted n, rfl, State.eq_of_bare ?_ rfl⟩,
        fun hup hfull => ⟨s.burstCounted n, rfl, State.eq_of_bare ?_ rfl⟩,
        fun hup hentry hlog => ⟨s.burstCounted n, rfl, State.eq_of_bare ?_ rfl⟩, fun hup hentry hroom => ?_⟩
      · rw [State.answerTry_teardown (by rw [hwup]; exact hup)] at hburst
        rw [hburst, hw]
        rfl
      · rw [State.answerTry_entry (hwup.trans hup) (hlacksEntry hfull)] at hburst
        obtain ⟨q', hshown⟩ := State.refusalShown_form hwunit .entry .dispatch
        rw [hburst, hshown, hw]
        exact (congrArg (fun l => ({ s.bare with
          now := at_, lines := l,
          ctl := { s.bare.ctl with
            notices := (if u.record.state = .idle then s.ctl.notices ||| Notice.line.bit else s.ctl.notices) |||
              Notice.dispatch.bit } } : State)) (Table.set_set ..))
      · rw [State.answerTry_log (hwup.trans hup) ((hlacks hentry).trans (if_neg (by rw [hlog]; decide)))] at hburst
        obtain ⟨q', hshown⟩ := State.refusalShown_form hwunit .log .log
        rw [hburst, hshown, hw]
        exact (congrArg (fun l => ({ s.bare with
          now := at_, lines := l,
          ctl := { s.bare.ctl with
            notices := (if u.record.state = .idle then s.ctl.notices ||| Notice.line.bit else s.ctl.notices) |||
              Notice.log.bit } } : State)) (Table.set_set ..))
      · rw [State.answerTry_answers (hwup.trans hup) ((hlacks hentry).trans (if_pos hroom))] at hburst
        obtain ⟨q', notices, hanswer⟩ := w.answer_form n
        refine ⟨s.burstCounted n, CallContext.openedIncoming s.charge.clock s.charge.clockSet at_, rfl, State.eq_of_bare ?_ rfl, rfl, rfl,
          rfl, rfl, rfl, rfl, rfl, rfl, ?_⟩
        · rw [hburst, hanswer, hwunit, hw]
          exact (congrArg (fun l => ({ s.bare with
            now := at_, lines := l, charge := { s.charge with
              reservations := s.charge.reservations + 1,
              contexts := s.charge.contexts.set n (some (CallContext.openedIncoming s.charge.clock s.charge.clockSet at_)) },
            ctl := { s.bare.ctl with notices := notices ||| Notice.line.bit } } : State)) (Table.set_set ..))
        · rw [hburst, hanswer]
          exact Notice.pending_of_or (x := notices) rfl
    case glares =>
      intro rings
      obtain ⟨w, hw⟩ : ∃ w : State, w = { s with now := at_, lines := s.lines.set n v } := ⟨_, rfl⟩
      have hglares : s.burstCounted n = w.glare n := by
        rw [hw]
        exact State.burstCounted_glares (u := u) rfl hring hseizing
      obtain ⟨r, q, notices, k, y, hglare, hy, hr⟩ := State.glare_form (s := w) (n := n) (u := v) (c := c) (x := x)
        (by rw [hw]; exact hc) hx (by rw [hw]; exact hcancel) (by rw [hw]; exact Table.get_set_self _ _ _)
      rw [hw] at hy hr
      obtain ⟨hindex, -, -, hunits, hcause, -⟩ := hr
      have hyunit : y.lineUnit n = v.glared := by
        rw [hy]
        exact Table.get_set_self _ _ _
      rw [← hglares] at hglare
      by_cases hrings : rings
      · rw [if_pos ((LineDirection.rings_iff _).mpr hrings)] at hglare
        obtain ⟨q', z, henter, hz, -⟩ := State.enterRinging_form hyunit
        have hbelow : z.burstInRinging n = z := by
          refine State.burstInRinging_below (u := v.glared.ringingAt 1 .none) (by rw [hz]; exact Table.get_set_self _ _ _) ?_
          have hne : u.record.active.rings ≠ 1 := fun h => hnot ⟨hrings, h⟩
          change u.record.active.rings = 0 ∨ 1 < u.record.active.rings
          omega
        rw [henter, hbelow] at hglare
        refine ⟨s.burstCounted n, r, rfl, ?_⟩
        rw [hglare, hz, hy, if_pos hrings, if_pos hrings]
        refine ⟨rfl, ?_, fun _ => Notice.pending_of_or (x := notices) rfl, Table.get_set_self _ _ _, rfl, hcause, hunits, hindex, rfl,
          Table.get_set_self _ _ _, rfl, rfl⟩
        exact (Table.set_set ..).trans (Table.set_set ..)
      · have hquiet : ¬ u.record.active.direction.rings = true := fun h => hrings ((LineDirection.rings_iff _).mp h)
        rw [if_neg hquiet] at hglare
        obtain ⟨q', hmod⟩ := State.modRecord_form n (fun r => { r with state := .idle, ringCount := 1 }) y
        rw [hmod, hyunit] at hglare
        refine ⟨s.burstCounted n, r, rfl, ?_⟩
        rw [hglare, hy, if_neg hrings, if_neg hrings]
        refine ⟨rfl, ?_, fun h => absurd h hrings, Table.get_set_self _ _ _, rfl, hcause, hunits, hindex, rfl,
          Table.get_set_self _ _ _, rfl, rfl⟩
        exact (Table.set_set ..).trans (Table.set_set ..)
    case glareTries =>
      intro room noEntry glared
      obtain ⟨w, hw⟩ : ∃ w : State, w = { s with now := at_, lines := s.lines.set n v } := ⟨_, rfl⟩
      have hglares : s.burstCounted n = w.glare n := by
        rw [hw]
        exact State.burstCounted_glares (u := u) rfl hring hseizing
      obtain ⟨r, q, notices, k, y, hglare, hy, hr⟩ := State.glare_form (s := w) (n := n) (u := v) (c := c) (x := x)
        (by rw [hw]; exact hc) hx (by rw [hw]; exact hcancel) (by rw [hw]; exact Table.get_set_self _ _ _)
      rw [hw] at hy hr
      obtain ⟨hindex, -, -, hunits, hcause, -⟩ := hr
      have hyunit : y.lineUnit n = v.glared := by
        rw [hy]
        exact Table.get_set_self _ _ _
      rw [← hglares, if_pos ((LineDirection.rings_iff _).mpr hdir)] at hglare
      obtain ⟨q', z, henter, hz, -⟩ := State.enterRinging_form hyunit
      obtain ⟨a, ha⟩ : ∃ a, a = v.glared.ringingAt 1 .none := ⟨_, rfl⟩
      have hzform : z = { s with
          now := at_, freeCount := k, lines := s.lines.set n a, charge := s.charge.endCall n c r,
          dispatch := { s.dispatch with dests := s.dispatch.dests.set x (s.dest x).glared, arbiterDue := true },
          ctl := { s.ctl with queue := q', notices := notices ||| Notice.line.bit } } := by
        rw [hz, hy, ha]
        exact congrArg (fun l => ({ s with
          now := at_, freeCount := k, lines := l, charge := s.charge.endCall n c r,
          dispatch := { s.dispatch with dests := s.dispatch.dests.set x (s.dest x).glared, arbiterDue := true },
          ctl := { s.ctl with queue := q', notices := notices ||| Notice.line.bit } } : State))
          ((Table.set_set ..).trans (Table.set_set ..))
      have hzunit : z.lineUnit n = a := by
        rw [hzform]
        exact Table.get_set_self _ _ _
      have hreached : z.burstInRinging n = z.answerTry n :=
        State.burstInRinging_reached hzunit (by
          rw [ha, show (v.glared.ringingAt 1 .none).record.active.rings = 1 from hone]
          decide) (by
          rw [ha, show (v.glared.ringingAt 1 .none).record.active.rings = 1 from hone]
          exact le_rfl)
      rw [henter, hreached] at hglare
      have hzup : z.ctl.teardown = none := by
        rw [hzform]
        exact hup
      have hreserve : z.mayReserve = true ↔ room := by
        rw [hzform, State.mayReserve, Bool.and_eq_true, decide_eq_true_eq, decide_eq_true_eq]
        rfl
      have hkept {t : State} (ht : ∃ lines contexts k q notices, t = { z with
          lines := lines, charge := { z.charge with reservations := k, contexts := contexts },
          ctl := { z.ctl with queue := q, notices := notices } }) :
          t.now = at_ ∧ t.charge.recordQueue = s.charge.recordQueue ++ [r] ∧ t.charge.allotIndex = s.charge.allotIndex + 1 ∧
          t.dest x = (s.dest x).glared ∧ t.dispatch.arbiterDue = true ∧ t.mem = s.mem := by
        obtain ⟨lines, contexts, k, q, notices, rfl⟩ := ht
        rw [hzform]
        exact ⟨rfl, rfl, rfl, Table.get_set_self _ _ _, rfl, rfl⟩
      have hzpending : z.isPending .line = true := by
        rw [hzform]
        exact Notice.pending_of_or (x := notices) rfl
      by_cases hfull : noEntry
      · rw [State.answerTry_entry hzup (State.answerLacks_entry (by rw [hzform]; exact hfull))] at hglare
        obtain ⟨q₃, hshown⟩ := State.refusalShown_form hzunit .entry .dispatch
        rw [hshown] at hglare
        obtain ⟨hnow, hqueue, hallot, hdest, hdue, hmem⟩ := hkept ⟨_, z.charge.contexts, z.charge.reservations, _, _, hglare⟩
        refine ⟨s.burstCounted n, r, rfl, hnow, ?_, hqueue, hcause, hunits, hindex, hallot, hdest, hdue, hmem, fun _ => ?_,
          fun h => absurd hfull h⟩
        · rw [hglare]
          exact State.NoticesIn.pending ⟨Notice.dispatch.bit, rfl⟩ hzpending
        · rw [if_pos hfull, hglare]
          refine ⟨?_, ?_, ?_, Notice.pending_of_or (x := z.ctl.notices) rfl⟩
          · have hglared : glared = v.glared.ringingAt 1 .entry := congrArg (fun why => v.glared.ringingAt 1 why) (if_pos hfull)
            rw [hzform, ha, hglared]
            exact Table.set_set ..
          · rw [hzform]
            exact Table.get_set_self _ _ _
          · rw [hzform]
            rfl
      · have hentry : ∃ d, (s.doc d).inUse = false := by
          obtain ⟨d, hd⟩ := not_forall.mp hfull
          exact ⟨d, Bool.eq_false_iff.mpr hd⟩
        have hlacks : z.answerLacks = if z.mayReserve then .none else .log :=
          State.answerLacks_of_entry (by rw [hzform]; exact hentry)
        by_cases hroom : room
        · rw [State.answerTry_answers hzup (hlacks.trans (if_pos (hreserve.mpr hroom)))] at hglare
          obtain ⟨q₃, notices₃, hanswer⟩ := z.answer_form n
          rw [hanswer] at hglare
          obtain ⟨hnow, hqueue, hallot, hdest, hdue, hmem⟩ := hkept ⟨_, _, _, _, _, hglare⟩
          refine ⟨s.burstCounted n, r, rfl, hnow, ?_, hqueue, hcause, hunits, hindex, hallot, hdest, hdue, hmem,
            fun h => absurd h (not_or.mpr ⟨hfull, not_not.mpr hroom⟩), fun _ _ => ?_⟩
          · rw [hglare]
            exact Notice.pending_of_or (x := notices₃) rfl
          · rw [hglare]
            refine ⟨?_, ?_, CallContext.openedIncoming z.charge.clock z.charge.clockSet z.now, Table.get_set_self _ _ _, rfl, rfl, rfl,
              rfl, ?_, ?_, rfl⟩
            · rw [hzunit, hzform, ha]
              exact Table.set_set ..
            · rw [hzform]
              rfl
            · rw [hzform]
              rfl
            · rw [hzform]
              rfl
        · rw [State.answerTry_log hzup (hlacks.trans (if_neg fun h => hroom (hreserve.mp h)))] at hglare
          obtain ⟨q₃, hshown⟩ := State.refusalShown_form hzunit .log .log
          rw [hshown] at hglare
          obtain ⟨hnow, hqueue, hallot, hdest, hdue, hmem⟩ := hkept ⟨_, z.charge.contexts, z.charge.reservations, _, _, hglare⟩
          refine ⟨s.burstCounted n, r, rfl, hnow, ?_, hqueue, hcause, hunits, hindex, hallot, hdest, hdue, hmem, fun _ => ?_,
            fun _ h => absurd h hroom⟩
          · rw [hglare]
            exact State.NoticesIn.pending ⟨Notice.log.bit, rfl⟩ hzpending
          · rw [if_neg hfull, hglare]
            refine ⟨?_, ?_, ?_, Notice.pending_of_or (x := z.ctl.notices) rfl⟩
            · have hglared : glared = v.glared.ringingAt 1 .log := congrArg (fun why => v.glared.ringingAt 1 why) (if_neg hfull)
              rw [hzform, ha, hglared]
              exact Table.set_set ..
            · rw [hzform]
              exact Table.get_set_self _ _ _
            · rw [hzform]
              rfl
  case cycle =>
    intro u
    refine ⟨fun h => State.next_same (t := s.ringCycleEnded n) ?_, fun due hcycle => ?_⟩
    · rw [State.ringCycleEnded, show (s.lineUnit n).ringCycle = none from h]
    intro ended
    refine ⟨fun h => ⟨s.ringCycleEnded n, rfl, State.eq_of_bare ?_ rfl⟩, fun x hringing hpending =>
      ⟨s.ringCycleEnded n, rfl, State.eq_of_bare ?_ rfl⟩⟩
    · by_cases hringing : u.record.state = .ringing
      · have hnone := h.resolve_left (not_not.mpr hringing)
        obtain ⟨q, hended⟩ := State.ringCycleEnded_idles (u := u) rfl hcycle hringing (.inl hnone)
        have hactive : u.record.nextSettings = u.record.active := by
          rw [LineRecord.nextSettings, hnone]
          rfl
        rw [hactive, ← hnone] at hended
        rw [if_pos hringing, hended, decide_eq_true (.inl hringing), Bool.or_true]
        rfl
      · obtain ⟨q, w, hw, helse, hidle, -⟩ := State.ringCycleEnded_stops (u := u) rfl hcycle
        rw [if_neg hringing]
        by_cases hi : u.record.state = .idle
        · rw [hidle hi, hw, decide_eq_true (.inr hi), Bool.or_true]
          rfl
        · rw [helse hringing hi, hw, decide_eq_false (not_or.mpr ⟨hringing, hi⟩), Bool.or_false]
          rfl
    · have hnext : u.record.nextSettings = x := by rw [LineRecord.nextSettings, hpending]; rfl
      by_cases hoff : x.direction = .off
      · obtain ⟨q, hended⟩ := State.ringCycleEnded_disables (u := u) rfl hcycle hringing (by rw [hpending]; exact nofun)
          (by rw [hnext]; exact hoff)
        rw [if_pos hoff, hended, hnext]
        rfl
      · obtain ⟨q, hended⟩ := State.ringCycleEnded_idles (u := u) rfl hcycle hringing (.inr (by rw [hnext]; exact hoff))
        rw [if_neg hoff, hended, hnext]
        rfl

end Sys2Proof.Machine

/-! PROOF. `printWhole` is not kept by every step (R91, R94, R114): it says nothing of the coder's engine. -/

namespace Sys2Proof.Machine

/-- The part after reset but for the coder's engine, which runs a live ENCODE job for the scan stream, CLOSED as reset left it;
the job's completion comes next. -/
def State.strayJob : State :=
  { State.reset with
    pending := [.encodeComplete],
    coder := { State.reset.coder with engine := some { stream := .scan, kind := .encode, live := true } } }

theorem State.strayJob_callsWhole : State.strayJob.callsWhole := State.reset_callsWhole

theorem State.strayJob_printWhole : State.strayJob.printWhole := State.reset_printWhole

/-- The job's line finds no page to go to, so the CLOSED stream becomes STARVED (R91), on a document that is not in use. -/
theorem State.strayJob_starves :
    ∃ u : State, step State.strayJob = .next u ∧ u.scan.state = .starved ∧ (u.doc u.scan.document).inUse = false :=
  ⟨(State.encodeCompleted { State.strayJob with pending := [] }).settleStep, rfl, by decide +kernel, by decide +kernel⟩

/-- Refutes O57: its third part fails where a live ENCODE job completes on a CLOSED scan stream, which no hypothesis excludes. -/
theorem not_storeLogAndPrintQueueStayWhole : ¬ Obligations.StoreLogAndPrintQueueStayWhole := by
  rintro ⟨-, -, hprint, -⟩
  obtain ⟨u, hstep, hstate, hdoc⟩ := State.strayJob_starves
  obtain ⟨-, -, -, -, -, -, hscan, -⟩ := hprint _ u State.strayJob_callsWhole State.strayJob_printWhole hstep
  obtain ⟨hused, -⟩ := hscan (by rw [hstate]; decide)
  rw [hdoc] at hused
  cases hused

end Sys2Proof.Machine

/-! PROOF. Predicates that the blocks' operations keep, whatever the predicate, because it reads the held access, the windows and
the mirror write queue alone. -/

namespace Sys2Proof.Machine

/-- A predicate that reads only the held access, the windows and the queue, and that a queued rewrite, an answer to the host and a
pending window entry's activation keep. -/
structure Deskwise (P : State → Prop) : Prop where
  frame : ∀ {s t : State}, t.path.held = s.path.held → t.path.windows = s.path.windows → t.ctl.queue = s.ctl.queue → P s → P t
  rewrite : ∀ (r : RecordId) {s : State}, P s → P (s.rewrite r)
  answer : ∀ (a : HostAnswer) {s : State}, P s → P (s.answerHost a)
  activate : ∀ (w : Fin 6) {s : State}, P s → P (s.activatePending w)

/-- A state of which a predicate holds. -/
def State.Meets (P : State → Prop) (s : State) : Prop := P s

theorem foldl_meets {P : State → Prop} {α : Type} (F : State → α → State) (hF : ∀ s a, s.Meets P → (F s a).Meets P) (l : List α) {s : State}
    (h : s.Meets P) : (l.foldl F s).Meets P := by
  induction l generalizing s with
  | nil => exact h
  | cons a l ih => exact ih (hF s a h)

variable {P : State → Prop} (hP : Deskwise P)

include hP

/-- A state with the same held access, windows and queue meets the same predicates. -/
theorem Deskwise.meets {s t : State} (h : s.Meets P) (hheld : t.path.held = s.path.held)
    (hwindows : t.path.windows = s.path.windows) (hqueue : t.ctl.queue = s.ctl.queue) : t.Meets P :=
  hP.frame (s := s) hheld hwindows hqueue h

section Records

variable {s : State} (h : s.Meets P)

include h

theorem State.rewriteIf_meets (changed : Prop) [Decidable changed] (r : RecordId) : (s.rewriteIf changed r).Meets P := by
  unfold State.rewriteIf
  split
  · exact hP.rewrite r h
  · exact h

@[simp] theorem State.rewrite_meets (r : RecordId) : (s.rewrite r).Meets P := hP.rewrite r h

@[simp] theorem State.reach_meets (due : Nat) : (s.reach due).Meets P := hP.meets h rfl rfl rfl

@[simp] theorem State.bump32_meets (x : BitVec 32) : (s.bump32 x).2.Meets P := by
  unfold State.bump32
  split
  · exact hP.meets h rfl rfl rfl
  · exact h

@[simp] theorem State.setPage_meets (p : Fin 512) (r : PageRecord) : (s.setPage p r).Meets P := by
  unfold State.setPage
  apply State.rewriteIf_meets hP
  exact hP.meets h rfl rfl rfl

@[simp] theorem State.setSlot_meets (w : Writer) (x : WriterSlot) : (s.setSlot w x).Meets P := hP.meets h rfl rfl rfl

@[simp] theorem State.setFreeList_meets (l : List Nat) : (s.setFreeList l).Meets P := by
  unfold State.setFreeList
  apply State.rewriteIf_meets hP
  exact hP.meets h rfl rfl rfl

@[simp] theorem State.setDoc_meets (d : Fin 64) (r : DocRecord) : (s.setDoc d r).Meets P := by
  unfold State.setDoc
  apply State.rewriteIf_meets hP
  exact hP.meets h rfl rfl rfl

@[simp] theorem State.setPageList_meets (d : Fin 64) (l : List (Fin 512)) : (s.setPageList d l).Meets P := by
  unfold State.setPageList
  apply State.rewriteIf_meets hP
  exact hP.meets h rfl rfl rfl

@[simp] theorem State.setDest_meets (d : Fin 512) (r : DestRecord) : (s.setDest d r).Meets P := by
  unfold State.setDest
  apply State.rewriteIf_meets hP
  exact hP.meets h rfl rfl rfl

@[simp] theorem State.setRetryTimer_meets (d : Fin 512) (t : Option Nat) : (s.setRetryTimer d t).Meets P := hP.meets h rfl rfl rfl

@[simp] theorem State.setPrintQueue_meets (q : List (Fin 64)) : (s.setPrintQueue q).Meets P := hP.meets h rfl rfl rfl

@[simp] theorem State.askArbiter_meets : s.askArbiter.Meets P := hP.meets h rfl rfl rfl

@[simp] theorem State.setLine_meets (n : Fin 4) (u : LineUnit) : (s.setLine n u).Meets P := by
  unfold State.setLine
  apply State.rewriteIf_meets hP
  exact hP.meets h rfl rfl rfl

@[simp] theorem State.modLine_meets (n : Fin 4) (f : LineUnit → LineUnit) : (s.modLine n f).Meets P := State.setLine_meets hP h ..

@[simp] theorem State.modRecord_meets (n : Fin 4) (f : LineRecord → LineRecord) : (s.modRecord n f).Meets P :=
  State.modLine_meets hP h ..

@[simp] theorem State.setAccount_meets (a : Fin 32) (x : Account) : (s.setAccount a x).Meets P := by
  unfold State.setAccount
  apply State.rewriteIf_meets hP
  exact hP.meets h rfl rfl rfl

theorem State.rewriteContextAccount_meets (c : Option CallContext) : (s.rewriteContextAccount c).Meets P := by
  unfold State.rewriteContextAccount
  split
  · exact hP.rewrite _ h
  · exact h

@[simp] theorem State.setContext_meets (n : Fin 4) (c : Option CallContext) : (s.setContext n c).Meets P := by
  have hset : ({ s with charge := { s.charge with contexts := s.charge.contexts.set n c } } : State).Meets P :=
    hP.meets h rfl rfl rfl
  unfold State.setContext
  dsimp only
  split
  · exact hset
  · exact State.rewriteContextAccount_meets hP (State.rewriteContextAccount_meets hP hset _) _

@[simp] theorem State.modContext_meets (n : Fin 4) (f : CallContext → CallContext) : (s.modContext n f).Meets P := by
  unfold State.modContext
  split
  · exact State.setContext_meets hP h ..
  · exact h

@[simp] theorem State.setScan_meets (x : ScanStream) : (s.setScan x).Meets P := by
  unfold State.setScan
  apply State.rewriteIf_meets hP
  exact hP.meets h rfl rfl rfl

@[simp] theorem State.setPrint_meets (x : PrintStream) : (s.setPrint x).Meets P := by
  unfold State.setPrint
  apply State.rewriteIf_meets hP
  exact hP.meets h rfl rfl rfl

@[simp] theorem State.setStream_meets (n : Fin 4) (x : LineStream) : (s.setStream n x).Meets P := by
  unfold State.setStream
  apply State.rewriteIf_meets hP
  exact hP.meets h rfl rfl rfl

@[simp] theorem State.modStream_meets (n : Fin 4) (f : LineStream → LineStream) : (s.modStream n f).Meets P :=
  State.setStream_meets hP h ..

@[simp] theorem State.raise_meets (f : Notice) : (s.raise f).Meets P := by
  unfold State.raise
  split
  · exact h
  · exact hP.rewrite _ (hP.meets h rfl rfl rfl)

@[simp] theorem State.setCtx_meets (i : StreamId) (c : LineContext) : (s.setCtx i c).Meets P := hP.meets h rfl rfl rfl

@[simp] theorem State.answerHost_meets (a : HostAnswer) : (s.answerHost a).Meets P := hP.answer a h

@[simp] theorem State.activatePending_meets (w : Fin 6) : (s.activatePending w).Meets P := hP.activate w h

@[simp] theorem State.freePort_meets : s.freePort.Meets P := hP.meets h rfl rfl rfl

@[simp] theorem State.dropRead_meets (q : Requester) : (s.dropRead q).Meets P := by
  rw [State.dropRead_eq]
  exact hP.meets h rfl rfl rfl

end Records

end Sys2Proof.Machine

/-! PROOF. The blocks' operations keep every predicate that reads the held access, the windows and the queue alone: one law for each
operation, in the order of the model. -/

namespace Sys2Proof.Machine

section Blocks

variable {P : State → Prop} (hP : Deskwise P) {s : State} (h : s.Meets P)

include hP h

@[simp] theorem State.discardJob_meets (i : StreamId) : (s.discardJob i).Meets P := by
  unfold State.discardJob
  dsimp only
  (repeat' split) <;> exact hP.meets h rfl rfl rfl

@[simp] theorem State.openCtx_meets (i : StreamId) (w : Width) (k : Nat) : (s.openCtx i w k).Meets P := by
  simp [hP, h, State.openCtx]

@[simp] theorem State.idleCtx_meets (i : StreamId) : (s.idleCtx i).Meets P := by
  simp [hP, h, State.idleCtx]

@[simp] theorem State.freeEngine_meets : s.freeEngine.Meets P := hP.meets h rfl rfl rfl

@[simp] theorem State.jobDone_meets (i : StreamId) (reference : List Bool) (repeatRun : Nat) :
    (s.jobDone i reference repeatRun).Meets P := by
  simp [hP, h, State.jobDone]

theorem State.takeBlock_meets {w : Writer} {t : State} {b : Nat} (e : s.takeBlock w = some (b, t)) : t.Meets P := by
  unfold State.takeBlock at e
  split at e
  · split at e
    · contradiction
    · simp only [Option.some.injEq, Prod.mk.injEq] at e
      obtain ⟨_, rfl⟩ := e
      split <;> simp [hP, h]
  · contradiction

@[simp] theorem State.giveBack_meets (chain : List Nat) : (s.giveBack chain).Meets P := by
  simp [hP, h, State.giveBack]

theorem State.openPage_meets {w : Writer} {d : Fin 64} {width : Width} {k : Nat} {t : State}
    (e : s.openPage w d width k = .ok t) : t.Meets P := by
  unfold State.openPage at e
  split at e
  · contradiction
  · split at e
    · contradiction
    · split at e
      · contradiction
      · next b s1 hblock =>
        have h1 := State.takeBlock_meets hP h hblock
        cases e
        simp (maxDischargeDepth := 12) [hP, h1]

@[simp] theorem State.placementRefused_meets (w : Writer) (p : Fin 512) : (s.placementRefused w p).Meets P := by
  unfold State.placementRefused; split <;> simp [hP, h]

@[simp] theorem State.placeLine_meets (w : Writer) (bytes : List Byte) (concealed : Bool) :
    (s.placeLine w bytes concealed).1.Meets P := by
  unfold State.placeLine
  split
  · exact h
  · dsimp only
    split
    · exact h
    · split
      · exact State.placementRefused_meets hP h ..
      · split
        · simp [hP, h]
        · split
          · exact State.placementRefused_meets hP h ..
          · next b s1 hblock =>
            have h1 := State.takeBlock_meets hP h hblock
            simp [hP, h1]

@[simp] theorem State.beginClosing_meets (w : Writer) (x : PageInHand) (flags : CloseFlags) :
    (s.beginClosing w x flags).Meets P := by
  simp [hP, h, State.beginClosing]

@[simp] theorem State.closePage_meets (w : Writer) (flags : CloseFlags) : (s.closePage w flags).Meets P := by
  unfold State.closePage; (repeat' split) <;> simp [hP, h]

@[simp] theorem State.takeAsked_meets (w : Writer) : (s.takeAsked w).Meets P := by
  unfold State.takeAsked; split <;> simp [hP, h]

@[simp] theorem State.dropFromList_meets (p : Fin 512) (d : Fin 64) : (s.dropFromList p d).Meets P := by
  simp [hP, h, State.dropFromList]

@[simp] theorem State.freePage_meets (w : Writer) : (s.freePage w).Meets P := by
  unfold State.freePage; split <;> simp (maxDischargeDepth := 12) [hP, h]

@[simp] theorem State.releasePage_meets (p : Fin 512) : (State.releasePage s p).Meets P := by
  simp [hP, h, State.releasePage]

@[simp] theorem State.releasePages_meets (d : Fin 64) : (s.releasePages d).Meets P :=
  foldl_meets _ (fun _ p h => State.releasePage_meets hP h p) _ h

@[simp] theorem State.markClosed_meets (w : Writer) (p : Fin 512) (check : BitVec 16) : (s.markClosed w p check).Meets P := by
  simp [hP, h, State.markClosed]

@[simp] theorem State.markDamaged_meets (p : Fin 512) : (s.markDamaged p).Meets P := by
  unfold State.markDamaged; split <;> simp [hP, h]

@[simp] theorem State.countDropped_meets (w : Fin 6) : (s.countDropped w).Meets P := by
  unfold State.countDropped; split <;> simp [hP, h]

@[simp] theorem State.countExpiry_meets (w : Fin 6) : (s.countExpiry w).Meets P := by
  unfold State.countExpiry; split <;> simp [hP, h]

@[simp] theorem State.voidAccess_meets (w : Fin 6) (a : HostAccess) : (s.voidAccess w a).Meets P := by
  unfold State.voidAccess; split <;> simp [hP, h]

@[simp] theorem State.closeHeld_meets (w : Fin 6) : (s.closeHeld w).Meets P := by
  unfold State.closeHeld; (repeat' split) <;> simp [hP, h]

@[simp] theorem State.startServing_meets (n : Fin 4) (p : Fin 512) : (s.startServing n p).Meets P := by
  unfold State.startServing; dsimp only; split <;> simp (maxDischargeDepth := 12) [hP, h]

@[simp] theorem State.waitPage_meets (n : Fin 4) : (s.waitPage n).Meets P := by
  unfold State.waitPage; split <;> simp [hP, h]

@[simp] theorem State.sendDocEnd_meets (n : Fin 4) : (s.sendDocEnd n).Meets P := by
  simp [hP, h, State.sendDocEnd]

@[simp] theorem State.seekPage_meets (n : Fin 4) : (s.seekPage n).Meets P := by
  unfold State.seekPage; dsimp only; (repeat' split) <;> simp [hP, h]

@[simp] theorem State.tellSender_meets (d : Fin 64) (n : Fin 4) : (State.tellSender d s n).Meets P := by
  unfold State.tellSender; dsimp only; split <;> simp [hP, h]

@[simp] theorem State.tellSenders_meets (d : Fin 64) : (s.tellSenders d).Meets P :=
  foldl_meets _ (fun _ n h => State.tellSender_meets hP h d n) _ h

@[simp] theorem State.expandDone_meets (n : Fin 4) : (s.expandDone n).Meets P := by
  unfold State.expandDone; dsimp only; split <;> simp [hP, h]

@[simp] theorem State.checkMismatch_meets (n : Fin 4) : (s.checkMismatch n).Meets P := by
  simp (maxDischargeDepth := 12) [hP, h, State.checkMismatch]

@[simp] theorem State.sendReadDone_meets (n : Fin 4) (bytes : List Byte) : (s.sendReadDone n bytes).Meets P := by
  unfold State.sendReadDone; dsimp only; (repeat' split) <;> simp [hP, h]

@[simp] theorem State.drain_meets (n : Fin 4) : (s.drain n).Meets P := by
  unfold State.drain; dsimp only; split <;> simp [hP, h]

@[simp] theorem State.printPageEnd_meets : (s.printPageEnd).Meets P := by
  simp [hP, h, State.printPageEnd]

@[simp] theorem State.printBegin_meets (p : Fin 512) : (s.printBegin p).Meets P := by
  unfold State.printBegin; dsimp only; split <;> simp (maxDischargeDepth := 12) [hP, h]

@[simp] theorem State.printStartPage_meets : (s.printStartPage).Meets P := by
  unfold State.printStartPage; dsimp only; (repeat' split) <;> simp (maxDischargeDepth := 12) [hP, h]

@[simp] theorem State.tellPrinter_meets (p : Fin 512) : (s.tellPrinter p).Meets P := by
  unfold State.tellPrinter; split <;> simp [hP, h]

@[simp] theorem State.printDiscard_meets : (s.printDiscard).Meets P := by
  simp (maxDischargeDepth := 12) [hP, h, State.printDiscard]

@[simp] theorem State.printEnd_meets : (s.printEnd).Meets P := by
  simp [hP, h, State.printEnd]

@[simp] theorem State.printDocEnd_meets : (s.printDocEnd).Meets P := by
  simp [hP, h, State.printDocEnd]

@[simp] theorem State.decodeDone_meets : (s.decodeDone).Meets P := by
  simp [hP, h, State.decodeDone]

@[simp] theorem State.checkComplete_meets (d : Fin 64) : (s.checkComplete d).Meets P := by
  unfold State.checkComplete; split <;> simp (maxDischargeDepth := 12) [hP, h]

@[simp] theorem State.joinPrintQueue_meets (d : Fin 64) : (s.joinPrintQueue d).Meets P := by
  unfold State.joinPrintQueue
  dsimp only
  split <;> simp (maxDischargeDepth := 12) [hP, h]

@[simp] theorem State.leavePrintQueue_meets (d : Fin 64) : (s.leavePrintQueue d).Meets P := by
  simp [hP, h, State.leavePrintQueue]

@[simp] theorem State.printDue_meets (d : Fin 64) : (s.printDue d).Meets P := by
  unfold State.printDue; (repeat' split) <;> simp [hP, h]

@[simp] theorem State.endBuilding_meets (d : Fin 64) : (s.endBuilding d).Meets P := by
  unfold State.endBuilding; split <;> simp (maxDischargeDepth := 12) [hP, h]

@[simp] theorem State.pageClosedNews_meets (p : Fin 512) : (s.pageClosedNews p).Meets P := by
  simp (maxDischargeDepth := 12) [hP, h, State.pageClosedNews]

@[simp] theorem State.startRetry_meets (t : Fin 512) (r : DestRecord) (seconds : Nat) : (s.startRetry t r seconds).Meets P := by
  simp [hP, h, State.startRetry]

@[simp] theorem State.becomePending_meets (t : Fin 512) (r : DestRecord) : (s.becomePending t r).Meets P := by
  simp [hP, h, State.becomePending]

@[simp] theorem State.becomeFinal_meets (t : Fin 512) (r : DestRecord) (final : DestState) :
    (s.becomeFinal t r final).Meets P := by
  simp (maxDischargeDepth := 12) [hP, h, State.becomeFinal]

@[simp] theorem State.createDoc_meets (d : Fin 64) (r : DocRecord) : (s.createDoc d r).Meets P := by
  simp [hP, h, State.createDoc]

@[simp] theorem State.settle_meets (t : Fin 512) (given : Cause) : (s.settle t given).Meets P := by
  unfold State.settle; dsimp only; (repeat' split) <;> simp [hP, h]

@[simp] theorem State.scanClosed_meets : (s.scanClosed).Meets P := by
  simp (maxDischargeDepth := 12) [hP, h, State.scanClosed]

@[simp] theorem State.scanFinish_meets : (s.scanFinish).Meets P := by
  unfold State.scanFinish; dsimp only; (repeat' split) <;> simp [hP, h]

@[simp] theorem State.scanDiscard_meets (extra : Nat) : (s.scanDiscard extra).Meets P := by
  simp [hP, h, State.scanDiscard]

@[simp] theorem State.scanStarved_meets (cause : RoomCause) : (s.scanStarved cause).Meets P := by
  unfold State.scanStarved; split <;> simp [hP, h]

@[simp] theorem State.scanEndShort_meets : (s.scanEndShort).Meets P := by
  unfold State.scanEndShort; (repeat' split) <;> simp [hP, h]

@[simp] theorem State.scanStarve_meets : (s.scanStarve).Meets P := by
  simp (maxDischargeDepth := 12) [hP, h, State.scanStarve]

@[simp] theorem State.scanOpenRefused_meets (cause : RoomCause) : (s.scanOpenRefused cause).Meets P := by
  simp [hP, h, State.scanOpenRefused]

@[simp] theorem State.scanCutDone_meets : (s.scanCutDone).Meets P := by
  simp [hP, h, State.scanCutDone]

@[simp] theorem State.scanNextPage_meets : s.scanNextPage.Meets P := by
  unfold State.scanNextPage
  split
  · exact h
  · split
    · next hopen => exact State.openPage_meets hP h hopen
    · simp (maxDischargeDepth := 12) [hP, h]

@[simp] theorem State.scanPlaced_meets (marked : Bool) : (s.scanPlaced marked).Meets P := by
  unfold State.scanPlaced; (repeat' split) <;> simp (maxDischargeDepth := 12) [hP, h]

@[simp] theorem State.encodeDone_meets : s.encodeDone.Meets P := by
  unfold State.encodeDone
  dsimp only
  split
  · next s2 hplace =>
    have h2 : s2.Meets P := (congrArg (fun x => x.1.Meets P) hplace).mp (State.placeLine_meets hP (by simp [hP, h]) ..)
    exact State.scanPlaced_meets hP h2 _
  · next s2 _ hplace =>
    have h2 : s2.Meets P := (congrArg (fun x => x.1.Meets P) hplace).mp (State.placeLine_meets hP (by simp [hP, h]) ..)
    exact State.scanStarve_meets hP h2

@[simp] theorem State.beginCut_meets : (s.beginCut).Meets P := by
  unfold State.beginCut; dsimp only; split <;> simp (maxDischargeDepth := 12) [hP, h]

@[simp] theorem State.beginClose_meets : (s.beginClose).Meets P := by
  simp (maxDischargeDepth := 12) [hP, h, State.beginClose]

@[simp] theorem State.loseLine_meets (n : Fin 4) : (s.loseLine n).Meets P := by
  simp [hP, h, State.loseLine]

@[simp] theorem State.placeChecked_meets (n : Fin 4) : (s.placeChecked n).Meets P := by
  unfold State.placeChecked
  split
  · exact State.jobDone_meets hP h ..
  · dsimp only
    split
    · next s2 _ hplace =>
      exact (congrArg (fun x => x.1.Meets P) hplace).mp (State.placeLine_meets hP (by simp [hP, h]) ..)
    · next s2 hplace =>
      have h2 : s2.Meets P := (congrArg (fun x => x.1.Meets P) hplace).mp (State.placeLine_meets hP (by simp [hP, h]) ..)
      exact State.modStream_meets hP h2 ..

@[simp] theorem State.endReceivePage_meets (n : Fin 4) : (s.endReceivePage n).Meets P := by
  unfold State.endReceivePage; (repeat' split) <;> simp [hP, h]

@[simp] theorem State.endTraffic_meets (n : Fin 4) : (s.endTraffic n).Meets P := by
  simp (maxDischargeDepth := 12) [hP, h, State.endTraffic]

@[simp] theorem State.enterClosed_meets (n : Fin 4) : (s.enterClosed n).Meets P := by
  simp [hP, h, State.enterClosed]

@[simp] theorem State.closeStream_meets (n : Fin 4) : (s.closeStream n).Meets P := by
  unfold State.closeStream; (repeat' split) <;> simp (maxDischargeDepth := 12) [hP, h]

@[simp] theorem State.judgeNotBefore_meets (old : Option ClockValue) : (s.judgeNotBefore old).Meets P := by
  unfold State.judgeNotBefore; split <;> simp [hP, h]

@[simp] theorem State.takeReservation_meets : s.takeReservation.Meets P := by
  have htaken := hP.rewrite .counters (hP.meets (t := { s with
    charge := { s.charge with reservations := s.charge.reservations + 1 } }) h rfl rfl rfl)
  unfold State.takeReservation
  dsimp only
  split
  · exact State.raise_meets hP htaken _
  · exact htaken

@[simp] theorem State.police_meets (a : Fin 32) (n : Fin 4) : (State.police a s n).Meets P := by
  unfold State.police; (repeat' split) <;> simp [hP, h]

@[simp] theorem State.judgeBudget_meets (a : Fin 32) : (s.judgeBudget a).Meets P := by
  unfold State.judgeBudget
  refine foldl_meets _ (fun _ n h => State.police_meets hP h a n) _ ?_
  (repeat' split) <;> simp (maxDischargeDepth := 12) [hP, h]

@[simp] theorem State.chargeUnit_meets (n : Fin 4) : (s.chargeUnit n).Meets P := by
  unfold State.chargeUnit; split <;> simp (maxDischargeDepth := 12) [hP, h]

@[simp] theorem State.openOutgoing_meets (n : Fin 4) (t : Fin 512) (band : Fin 8) (cls : Nat) :
    (s.openOutgoing n t band cls).Meets P := by
  simp [hP, h, State.openOutgoing]

@[simp] theorem State.openIncoming_meets (n : Fin 4) : (s.openIncoming n).Meets P := by
  simp [hP, h, State.openIncoming]

@[simp] theorem State.startCharging_meets (n : Fin 4) : (s.startCharging n).Meets P := by
  simp [hP, h, State.startCharging]

@[simp] theorem State.answerContext_meets (n : Fin 4) (byPulse : Bool) : (s.answerContext n byPulse).Meets P := by
  unfold State.answerContext; (repeat' split) <;> simp (maxDischargeDepth := 12) [hP, h]

@[simp] theorem State.countPulse_meets (n : Fin 4) (qualified : Bool) : (s.countPulse n qualified).Meets P := by
  unfold State.countPulse; (repeat' split) <;> simp [hP, h]

@[simp] theorem State.unitExpired_meets (n : Fin 4) : (s.unitExpired n).Meets P := by
  unfold State.unitExpired; (repeat' split) <;> simp (maxDischargeDepth := 12) [hP, h]

@[simp] theorem State.secondsConnected_meets (c : CallContext) : (s.secondsConnected c).2.Meets P := by
  unfold State.secondsConnected
  split
  · exact hP.meets h rfl rfl rfl
  · dsimp only
    split <;> exact hP.meets h rfl rfl rfl

@[simp] theorem State.allot_meets (r : ChargeRecord) : (s.allot r).Meets P := by
  have halloted := hP.rewrite .counters (hP.meets (t := { s with
    charge := { s.charge with
      allotIndex := s.charge.allotIndex + 1, reservations := s.charge.reservations - 1,
      recordQueue := s.charge.recordQueue ++ [r] } }) h rfl rfl rfl)
  unfold State.allot
  dsimp only
  split
  · exact State.raise_meets hP halloted _
  · exact halloted

@[simp] theorem State.endContext_meets (n : Fin 4) (cause : Cause) : (s.endContext n cause).Meets P := by
  unfold State.endContext; (repeat' split) <;> simp (maxDischargeDepth := 12) [hP, h]

@[simp] theorem State.applyIdle_meets (n : Fin 4) : (s.applyIdle n).Meets P := by
  unfold State.applyIdle; dsimp only; split <;> simp [hP, h]

@[simp] theorem State.applyDisabled_meets (n : Fin 4) : (s.applyDisabled n).Meets P := by
  unfold State.applyDisabled; dsimp only; split <;> simp [hP, h]

@[simp] theorem State.endReceiving_meets (n : Fin 4) : (s.endReceiving n).Meets P := by
  unfold State.endReceiving; split <;> simp [hP, h]

@[simp] theorem State.clearOrder_meets (n : Fin 4) (cause : Cause) : (s.clearOrder n cause).Meets P := by
  simp (maxDischargeDepth := 12) [hP, h, State.clearOrder]

@[simp] theorem State.orderClear_meets (n : Fin 4) (cause : Cause) : (s.orderClear n cause).Meets P := by
  unfold State.orderClear; split <;> simp [hP, h]

@[simp] theorem State.answer_meets (n : Fin 4) : (s.answer n).Meets P := by
  simp (maxDischargeDepth := 12) [hP, h, State.answer]

@[simp] theorem State.answerTry_meets (n : Fin 4) : (s.answerTry n).Meets P := by
  unfold State.answerTry; (repeat' split) <;> simp [hP, h]

@[simp] theorem State.burstInRinging_meets (n : Fin 4) : (s.burstInRinging n).Meets P := by
  unfold State.burstInRinging; dsimp only; split <;> simp [hP, h]

@[simp] theorem State.enterRinging_meets (n : Fin 4) : (s.enterRinging n).Meets P := by
  simp (maxDischargeDepth := 12) [hP, h, State.enterRinging]

@[simp] theorem State.glare_meets (n : Fin 4) : (s.glare n).Meets P := by
  unfold State.glare; dsimp only; split <;> simp (maxDischargeDepth := 12) [hP, h]

@[simp] theorem State.burst_meets (n : Fin 4) : (s.burst n).Meets P := by
  unfold State.burst; dsimp only; (repeat' split) <;> simp [hP, h]

@[simp] theorem State.burstCounted_meets (n : Fin 4) : (s.burstCounted n).Meets P := by
  unfold State.burstCounted; (repeat' split) <;> simp (maxDischargeDepth := 12) [hP, h]

@[simp] theorem State.ringCycleEnded_meets (n : Fin 4) : (s.ringCycleEnded n).Meets P := by
  unfold State.ringCycleEnded; dsimp only; (repeat' split) <;> simp (maxDischargeDepth := 12) [hP, h]

@[simp] theorem State.ringActive_meets (n : Fin 4) : (s.ringActive n).Meets P := by
  unfold State.ringActive; dsimp only; split <;> simp [hP, h]

@[simp] theorem State.ringInactive_meets (n : Fin 4) : (s.ringInactive n).Meets P := by
  simp [hP, h, State.ringInactive]

@[simp] theorem State.callAnswered_meets (n : Fin 4) (source : AnswerSource) : (s.callAnswered n source).Meets P := by
  simp (maxDischargeDepth := 12) [hP, h, State.callAnswered]

@[simp] theorem State.reversed_meets (n : Fin 4) : (s.reversed n).Meets P := by
  unfold State.reversed; split <;> simp [hP, h]

@[simp] theorem State.meterActive_meets (n : Fin 4) : (s.meterActive n).Meets P := by
  unfold State.meterActive; dsimp only; split <;> simp [hP, h]

@[simp] theorem State.pulseEnded_meets (n : Fin 4) (width : Nat) : (s.pulseEnded n width).Meets P := by
  unfold State.pulseEnded; dsimp only; (repeat' split) <;> simp (maxDischargeDepth := 12) [hP, h]

@[simp] theorem State.loopPresent_meets (n : Fin 4) : (s.loopPresent n).Meets P := by
  unfold State.loopPresent; dsimp only; split <;> simp [hP, h]

@[simp] theorem State.loopAbsent_meets (n : Fin 4) : (s.loopAbsent n).Meets P := by
  unfold State.loopAbsent; dsimp only; split <;> simp [hP, h]

@[simp] theorem State.loopLost_meets (n : Fin 4) : (s.loopLost n).Meets P := by
  unfold State.loopLost; split <;> simp (maxDischargeDepth := 12) [hP, h]

@[simp] theorem State.loopChecked_meets (n : Fin 4) : (s.loopChecked n).Meets P := by
  unfold State.loopChecked; (repeat' split) <;> simp (maxDischargeDepth := 12) [hP, h]

@[simp] theorem State.seizeDelayEnded_meets (n : Fin 4) : (s.seizeDelayEnded n).Meets P := by
  unfold State.seizeDelayEnded; (repeat' split) <;> simp (maxDischargeDepth := 12) [hP, h]

@[simp] theorem State.phaseEnded_meets (n : Fin 4) : (s.phaseEnded n).Meets P := by
  unfold State.phaseEnded; dsimp only; (repeat' split) <;> simp [hP, h]

@[simp] theorem State.elementEnded_meets (n : Fin 4) : (s.elementEnded n).Meets P := by
  unfold State.elementEnded; dsimp only; (repeat' split) <;> simp [hP, h]

@[simp] theorem State.notAnswered_meets (n : Fin 4) : (s.notAnswered n).Meets P := by
  unfold State.notAnswered; split <;> simp (maxDischargeDepth := 12) [hP, h]

@[simp] theorem State.loopFault_meets (n : Fin 4) : (s.loopFault n).Meets P := by
  simp [hP, h, State.loopFault]

@[simp] theorem State.guardToIdle_meets (n : Fin 4) : (s.guardToIdle n).Meets P := by
  unfold State.guardToIdle; dsimp only; split <;> simp (maxDischargeDepth := 12) [hP, h]

@[simp] theorem State.guardEnded_meets (n : Fin 4) : (s.guardEnded n).Meets P := by
  unfold State.guardEnded; (repeat' split) <;> simp (maxDischargeDepth := 12) [hP, h]

@[simp] theorem State.graceEnded_meets (n : Fin 4) : (s.graceEnded n).Meets P := by
  unfold State.graceEnded; (repeat' split) <;> simp (maxDischargeDepth := 12) [hP, h]

@[simp] theorem State.seize_meets (n : Fin 4) (t : Fin 512) : (s.seize n t).Meets P := by
  simp [hP, h, State.seize]

@[simp] theorem State.resetLine_meets (n : Fin 4) : (State.resetLine s n).Meets P := by
  unfold State.resetLine; split <;> simp [hP, h]

@[simp] theorem State.dialDest_meets (n : Fin 4) (t : Fin 512) (cls : Nat) (band : Fin 8) :
    (s.dialDest n t cls band).Meets P := by
  simp (maxDischargeDepth := 12) [hP, h, State.dialDest]

@[simp] theorem State.chooseFor_meets (n : Fin 4) (fuel : Nat) : (s.chooseFor n fuel).Meets P := by
  induction fuel generalizing s with
  | zero => exact hP.meets h rfl rfl rfl
  | succ k ih => unfold State.chooseFor; dsimp only; (repeat' split) <;> simp [hP, h, ih]

@[simp] theorem State.serveLine_meets (n : Fin 4) : (State.serveLine s n).Meets P := by
  unfold State.serveLine; split <;> simp [hP, h]

@[simp] theorem State.setBlockReason_meets (t : Fin 512) : (State.setBlockReason s t).Meets P := by
  unfold State.setBlockReason; dsimp only; (repeat' split) <;> simp [hP, h]

@[simp] theorem State.runArbiter_meets : s.runArbiter.Meets P :=
  foldl_meets _ (fun _ t h => State.setBlockReason_meets hP h t) _
    (foldl_meets _ (fun _ n h => State.serveLine_meets hP h n) _ h)

@[simp] theorem State.runDueArbiter_meets : s.runDueArbiter.Meets P := by
  unfold State.runDueArbiter
  split
  · exact State.runArbiter_meets hP (hP.meets h rfl rfl rfl)
  · exact h

@[simp] theorem State.printReadDone_meets (bytes : List Byte) : (s.printReadDone bytes).Meets P := by
  simp [hP, h, State.printReadDone]

@[simp] theorem State.deliverRead_meets (q : Requester) (bytes : List Byte) : (s.deliverRead q bytes).Meets P := by
  unfold State.deliverRead; split <;> simp [hP, h]

@[simp] theorem State.addDest_meets (t : Fin 512) (d : Fin 64) (number : List DialChar) : (s.addDest t d number).Meets P := by
  simp (maxDischargeDepth := 12) [hP, h, State.addDest]

@[simp] theorem State.release_meets (d : Fin 64) : (s.release d).Meets P := by
  unfold State.release
  exact State.askArbiter_meets hP (hP.meets (State.setDoc_meets hP (State.bump32_meets hP h s.dispatch.releaseCounter) ..)
    rfl rfl rfl)

@[simp] theorem State.cancelOnCall_meets (t : Fin 512) : (s.cancelOnCall t).Meets P := by
  unfold State.cancelOnCall; dsimp only; (repeat' split) <;> simp [hP, h]

@[simp] theorem State.cancelDest_meets (t : Fin 512) : (State.cancelDest s t).Meets P := by
  unfold State.cancelDest; dsimp only; split <;> simp [hP, h]

@[simp] theorem State.cancelPrint_meets (d : Fin 64) : (s.cancelPrint d).Meets P := by
  unfold State.cancelPrint; split <;> simp (maxDischargeDepth := 12) [hP, h]

@[simp] theorem State.freeDest_meets (t : Fin 512) : (State.freeDest s t).Meets P := by
  simp [hP, h, State.freeDest]

@[simp] theorem State.printFirst_meets (d : Fin 64) : (s.printFirst d).Meets P := by
  unfold State.printFirst; dsimp only; (repeat' split) <;> simp [hP, h]

@[simp] theorem State.openScan_meets (d : Fin 64) (w : Width) (k : Nat) : (s.openScan d w k).Meets P := by
  simp [hP, h, State.openScan]

@[simp] theorem State.openPrint_meets (d : Fin 64) : (s.openPrint d).Meets P := by
  simp (maxDischargeDepth := 12) [hP, h, State.openPrint]

@[simp] theorem State.printed_meets : (s.printed).Meets P := by
  simp (maxDischargeDepth := 12) [hP, h, State.printed]

@[simp] theorem State.printAbandoned_meets : (s.printAbandoned).Meets P := by
  unfold State.printAbandoned; split <;> simp [hP, h]

@[simp] theorem State.closePrint_meets : (s.closePrint).Meets P := by
  simp (maxDischargeDepth := 12) [hP, h, State.closePrint]

@[simp] theorem State.openSend_meets (n : Fin 4) (t : Fin 512) (takesRepeat : Bool) (least : Nat) :
    (s.openSend n t takesRepeat least).Meets P := by
  simp (maxDischargeDepth := 12) [hP, h, State.openSend]

@[simp] theorem State.confirmPage_meets (n : Fin 4) (t : Fin 512) : (s.confirmPage n t).Meets P := by
  simp [hP, h, State.confirmPage]

@[simp] theorem State.bumpRetries_meets (x : BitVec 8) : (s.bumpRetries x).2.Meets P := by
  unfold State.bumpRetries; split <;> exact hP.meets h rfl rfl rfl

@[simp] theorem State.stallSend_meets (n : Fin 4) (cause : StallCause) : (s.stallSend n cause).Meets P := by
  simp (maxDischargeDepth := 12) [hP, h, State.stallSend]

@[simp] theorem State.retryPage_meets (n : Fin 4) (t : Fin 512) : (s.retryPage n t).Meets P := by
  unfold State.retryPage; dsimp only; split <;> simp (maxDischargeDepth := 12) [hP, h]

@[simp] theorem State.drainDone_meets (n : Fin 4) : (s.drainDone n).Meets P := by
  simp [hP, h, State.drainDone]

theorem State.takeVerdict_meets {n : Fin 4} {t : Fin 512} {v : Verdict} {u : State} (e : s.takeVerdict n t v = some u) :
    u.Meets P := by
  unfold State.takeVerdict at e
  split at e
  · cases e
    exact State.seekPage_meets hP (State.confirmPage_meets hP h ..) _
  · cases e
    exact State.retryPage_meets hP h ..
  · cases e
    exact State.stallSend_meets hP h ..
  · split at e
    · cases e
      split <;> simp [hP, h]
    · contradiction
  · contradiction

@[simp] theorem State.openReceive_meets (n : Fin 4) (d : Fin 64) (w : Width) (k : Nat) : (s.openReceive n d w k).Meets P := by
  simp [hP, h, State.openReceive]

@[simp] theorem State.grantDocument_meets (n : Fin 4) (d : Fin 64) : (s.grantDocument n d).Meets P := by
  simp [hP, h, State.grantDocument]

@[simp] theorem State.resetScan_meets : (s.resetScan).Meets P := by
  simp (maxDischargeDepth := 12) [hP, h, State.resetScan]

@[simp] theorem State.resetPrint_meets : (s.resetPrint).Meets P := by
  unfold State.resetPrint; split <;> simp [hP, h]

@[simp] theorem State.resetStream_meets (n : Fin 4) : (State.resetStream s n).Meets P := by
  unfold State.resetStream; split <;> simp [hP, h]

@[simp] theorem State.resetPage_meets (x : Fin 512 × Writer) : (State.resetPage s x).Meets P := by
  unfold State.resetPage; (repeat' split) <;> simp [hP, h]

@[simp] theorem State.resetDoc_meets (d : Fin 64) : (State.resetDoc s d).Meets P := by
  unfold State.resetDoc; split <;> simp [hP, h]

@[simp] theorem State.retryEnded_meets (t : Fin 512) : (s.retryEnded t).Meets P := by
  unfold State.retryEnded; (repeat' split) <;> simp (maxDischargeDepth := 12) [hP, h]

end Blocks

end Sys2Proof.Machine

/-! PROOF. The ring commands keep every predicate that reads the held access, the windows and the queue alone, but for the commands
that set the store log up, which change the windows. -/

namespace Sys2Proof.Machine

section Commands

variable {P : State → Prop} (hP : Deskwise P) {s : State} (h : s.Meets P)

include hP h

omit hP in
theorem State.inRunning_meets {f : State → Done} (hf : (f s).state.Meets P) : (s.inRunning f).state.Meets P := by
  unfold State.inRunning
  split
  · exact hf
  · exact h

theorem State.cmdAccountClear_meets (account : BitVec 8) : (s.cmdAccountClear account).state.Meets P := by
  refine State.inRunning_meets h ?_
  dsimp only
  (repeat' split) <;> simp (maxDischargeDepth := 12) [hP, h]

theorem State.cmdLogRelease_meets (count : BitVec 16) : (s.cmdLogRelease count).state.Meets P := by
  refine State.inRunning_meets h ?_
  split
  · exact h
  · split
    · exact h
    · exact State.askArbiter_meets hP (hP.rewrite .counters (hP.meets h rfl rfl rfl))

theorem State.cmdDocCreate_meets (kind priority account retryInterval attemptLimit localCopy copies : BitVec 8)
    (notBefore : ClockField) :
    (s.cmdDocCreate kind priority account retryInterval attemptLimit localCopy copies notBefore).state.Meets P := by
  refine State.inRunning_meets h ?_
  (repeat' split) <;> simp (maxDischargeDepth := 12) [hP, h]

theorem State.cmdDestAdd_meets (document : BitVec 8) (number : NumberField) :
    (s.cmdDestAdd document number).state.Meets P := by
  refine State.inRunning_meets h ?_
  dsimp only
  (repeat' split) <;> simp (maxDischargeDepth := 12) [hP, h]

theorem State.cmdDocRelease_meets (document : BitVec 8) : (s.cmdDocRelease document).state.Meets P := by
  refine State.inRunning_meets h ?_
  dsimp only
  (repeat' split) <;> simp (maxDischargeDepth := 12) [hP, h]

/-- Cancelling a document's destinations one after the other keeps the predicate. -/
theorem State.cancelDests_meets (l : List (Fin 512)) : (l.foldl State.cancelDest s).Meets P :=
  foldl_meets _ (fun _ t h => State.cancelDest_meets hP h t) _ h

theorem State.cmdDocCancel_meets (document : BitVec 8) : (s.cmdDocCancel document).state.Meets P := by
  refine State.inRunning_meets h ?_
  dsimp only
  split
  · exact h
  · split
    · exact h
    · split
      · exact h
      · split
        · exact h
        · exact State.checkComplete_meets hP (State.cancelPrint_meets hP (State.cancelDests_meets hP h _) _) _

theorem State.cmdDestCancel_meets (destination : BitVec 16) : (s.cmdDestCancel destination).state.Meets P := by
  refine State.inRunning_meets h ?_
  (repeat' split) <;> simp (maxDischargeDepth := 12) [hP, h]

theorem State.cmdDocDelete_meets (document : BitVec 8) : (s.cmdDocDelete document).state.Meets P := by
  refine State.inRunning_meets h ?_
  dsimp only
  split
  · exact h
  · split
    · exact h
    · split
      · exact h
      · exact State.setPageList_meets hP (State.setDoc_meets hP (foldl_meets _ (fun _ t h => State.freeDest_meets hP h t) _ h) ..) ..

theorem State.cmdPrintFirst_meets (document : BitVec 8) : (s.cmdPrintFirst document).state.Meets P := by
  refine State.inRunning_meets h ?_
  (repeat' split) <;> simp (maxDischargeDepth := 12) [hP, h]

theorem State.cmdScanOpen_meets (document width k : BitVec 8) : (s.cmdScanOpen document width k).state.Meets P := by
  refine State.inRunning_meets h ?_
  dsimp only
  (repeat' split) <;> simp (maxDischargeDepth := 12) [hP, h]

theorem State.cmdPageCut_meets : (s.cmdPageCut).state.Meets P := by
  refine State.inRunning_meets h ?_
  dsimp only
  (repeat' split) <;> simp (maxDischargeDepth := 12) [hP, h]

theorem State.cmdScanResume_meets : (s.cmdScanResume).state.Meets P := by
  refine State.inRunning_meets h ?_
  (repeat' split) <;> simp (maxDischargeDepth := 12) [hP, h]

theorem State.cmdScanClose_meets : (s.cmdScanClose).state.Meets P := by
  refine State.inRunning_meets h ?_
  dsimp only
  (repeat' split) <;> simp (maxDischargeDepth := 12) [hP, h]

theorem State.cmdPrintOpen_meets : (s.cmdPrintOpen).state.Meets P := by
  refine State.inRunning_meets h ?_
  (repeat' split) <;> simp (maxDischargeDepth := 12) [hP, h]

theorem State.cmdPrintNext_meets : (s.cmdPrintNext).state.Meets P := by
  refine State.inRunning_meets h ?_
  dsimp only
  (repeat' split) <;> simp (maxDischargeDepth := 12) [hP, h]

theorem State.cmdPrintClose_meets : (s.cmdPrintClose).state.Meets P := by
  refine State.inRunning_meets h ?_
  (repeat' split) <;> simp (maxDischargeDepth := 12) [hP, h]

theorem State.cmdSendOpen_meets (line takesRepeat least : BitVec 8) :
    (s.cmdSendOpen line takesRepeat least).state.Meets P := by
  refine State.inRunning_meets h ?_
  (repeat' split) <;> simp (maxDischargeDepth := 12) [hP, h]

theorem State.cmdPageResult_meets (line verdict : BitVec 8) : (s.cmdPageResult line verdict).state.Meets P := by
  refine State.inRunning_meets h ?_
  split
  · split
    · exact h
    · split
      · exact h
      · split
        · next hverdict => exact State.takeVerdict_meets hP h hverdict
        · exact h
  · exact h

theorem State.cmdReceiveOpen_meets (line width k : BitVec 8) : (s.cmdReceiveOpen line width k).state.Meets P := by
  refine State.inRunning_meets h ?_
  (repeat' split) <;> simp (maxDischargeDepth := 12) [hP, h]

theorem State.cmdStreamClose_meets (line : BitVec 8) : (s.cmdStreamClose line).state.Meets P := by
  refine State.inRunning_meets h ?_
  (repeat' split) <;> simp (maxDischargeDepth := 12) [hP, h]

theorem State.cmdCallAnswer_meets (line : BitVec 8) : (s.cmdCallAnswer line).state.Meets P := by
  refine State.inRunning_meets h ?_
  dsimp only
  (repeat' split) <;> simp (maxDischargeDepth := 12) [hP, h]

theorem State.cmdAnswerSeen_meets (line : BitVec 8) : (s.cmdAnswerSeen line).state.Meets P := by
  refine State.inRunning_meets h ?_
  (repeat' split) <;> simp (maxDischargeDepth := 12) [hP, h]

theorem State.cmdCallEnd_meets (line cause : BitVec 8) : (s.cmdCallEnd line cause).state.Meets P := by
  refine State.inRunning_meets h ?_
  (repeat' split) <;> simp (maxDischargeDepth := 12) [hP, h]

theorem State.cmdAccountSet_meets (account cls policy : BitVec 8) (code : BitVec 16) (budget : BitVec 32) :
    (s.cmdAccountSet account cls policy code budget).state.Meets P := by
  unfold State.cmdAccountSet
  dsimp only
  (repeat' split) <;> simp (maxDischargeDepth := 12) [hP, h]

theorem State.cmdLineSetup_meets (line : BitVec 8) (settings : SettingsField) :
    (s.cmdLineSetup line settings).state.Meets P := by
  unfold State.cmdLineSetup
  dsimp only
  (repeat' split) <;> simp (maxDischargeDepth := 12) [hP, h]

/-! ## The clock and the tables -/

theorem State.judgePeriod_meets : s.judgePeriod.Meets P := by
  unfold State.judgePeriod
  split
  · exact h
  · refine State.raise_meets hP (State.rewrite_meets hP ?_ _) _
    exact hP.meets h rfl rfl rfl

theorem State.cmdTimeSet_meets (day : BitVec 16) (dayOfWeek : BitVec 8) (second : BitVec 32) :
    (s.cmdTimeSet day dayOfWeek second).state.Meets P := by
  unfold State.cmdTimeSet
  split
  · refine State.askArbiter_meets hP (State.judgeNotBefore_meets hP
      (State.judgePeriod_meets hP (State.rewrite_meets hP ?_ _)) _)
    exact hP.meets h rfl rfl rfl
  · exact h

theorem State.cmdPeriodSet_meets (entry daySet period : BitVec 8) (start : BitVec 32) :
    (s.cmdPeriodSet entry daySet period start).state.Meets P := by
  unfold State.cmdPeriodSet
  split
  · split
    · exact State.judgePeriod_meets hP (hP.rewrite .tariff (hP.meets h rfl rfl rfl))
    · exact h
  · exact h

theorem State.cmdTariffSet_meets (band : BitVec 8) (v0 v1 v2 v3 : BitVec 16) :
    (s.cmdTariffSet band v0 v1 v2 v3).state.Meets P := by
  unfold State.cmdTariffSet
  split
  · split
    · exact hP.rewrite .tariff (hP.meets h rfl rfl rfl)
    · exact h
  · exact h

theorem State.cmdPrefixSet_meets (entry count cls band : BitVec 8) (digits : BitVec 64) :
    (s.cmdPrefixSet entry count cls band digits).state.Meets P := by
  unfold State.cmdPrefixSet
  split
  · exact hP.rewrite (.prefixEntry _) (hP.meets h rfl rfl rfl)
  · exact h

theorem State.secondPassed_meets : s.secondPassed.Meets P := by
  unfold State.secondPassed
  dsimp only
  split
  · refine State.judgeNotBefore_meets hP (State.judgePeriod_meets hP (State.rewrite_meets hP ?_ _)) _
    exact hP.meets h rfl rfl rfl
  · exact hP.meets h rfl rfl rfl

end Commands

end Sys2Proof.Machine

/-! PROOF. What the commands leave of the held access, the windows and the queue: the jobs' results, the completions of the memory
port's requests and the start of teardown; and that no command but a host access makes a forwarded access wait. -/

namespace Sys2Proof.Machine

section Completions

variable {P : State → Prop} (hP : Deskwise P) {s : State} (h : s.Meets P)

include hP h

theorem State.jobCompleted_meets (kind : JobKind) {f : StreamId → State → State}
    (hf : ∀ i s, s.Meets P → (f i s).Meets P) : (s.jobCompleted kind f).Meets P := by
  unfold State.jobCompleted
  split
  · split
    · split
      · exact hf _ _ (State.freeEngine_meets hP h)
      · exact State.freeEngine_meets hP h
    · exact h
  · exact h

omit hP in
theorem StreamId.onLine_meets {f : Fin 4 → State → State} (hf : ∀ n s, s.Meets P → (f n s).Meets P) (i : StreamId) :
    (StreamId.onLine f i s).Meets P := by
  cases i with
  | line n => exact hf n s h
  | scan | print => exact h

theorem State.storeReadDone_meets : s.storeReadDone.Meets P := by
  have hfree := State.freePort_meets hP h
  unfold State.storeReadDone
  split
  · split
    · split
      · exact State.deliverRead_meets hP hfree ..
      · exact hfree
    · exact h
  · exact h

theorem State.portWritten_meets (p : PortRequest) : (s.portWritten p).Meets P := hP.meets h rfl rfl rfl

theorem State.pageStored_meets (w : Writer) (p : Fin 512) : (s.pageStored w p).Meets P := by
  unfold State.pageStored
  dsimp only
  split
  · exact h
  · split
    · next x _ _ =>
      have hstored := State.takeAsked_meets hP (State.raise_meets hP (State.pageClosedNews_meets hP
        (State.markClosed_meets hP h w p x.check) p) .stream) w
      split
      · split
        · exact State.scanFinish_meets hP hstored
        · exact State.scanFinish_meets hP (State.scanNextPage_meets hP hstored)
      · exact hstored
    · exact h

theorem State.storeWriteDone_meets : s.storeWriteDone.Meets P := by
  unfold State.storeWriteDone
  split
  · split
    · split
      · exact State.pageStored_meets hP (State.portWritten_meets hP h _) ..
      · exact State.portWritten_meets hP h _
    · exact h
  · exact h

theorem State.mirrorWriteDone_meets : s.mirrorWriteDone.Meets P := by
  unfold State.mirrorWriteDone
  split
  · split
    · exact hP.meets h rfl rfl rfl
    · exact h
  · exact h

theorem State.chargeWriteDone_meets : s.chargeWriteDone.Meets P := by
  unfold State.chargeWriteDone
  split
  · split
    · refine State.rewrite_meets hP ?_ _
      exact hP.meets h rfl rfl rfl
    · exact h
  · exact h

theorem State.expireReceive_meets (w : Fin 6) : (s.expireReceive w).Meets P := by
  unfold State.expireReceive
  split
  · exact State.loseLine_meets hP h _
  · exact h

theorem State.holdExpired_meets : s.holdExpired.Meets P := by
  unfold State.holdExpired
  split
  · exact h
  · split
    · exact h
    · dsimp only
      have hcounted (due : Nat) (w : Fin 6) : ((s.reach due).countExpiry w |>.raise .hold).Meets P :=
        State.raise_meets hP (State.countExpiry_meets hP (State.reach_meets hP h due) w) _
      split
      · exact State.answerHost_meets hP (hcounted ..) _
      · split
        · exact State.answerHost_meets hP (State.expireReceive_meets hP (hcounted ..) _) _
        · exact State.answerHost_meets hP (hcounted ..) _

end Completions

/-! ## The start of teardown -/

/-- The state in which the control unit has stopped and the windows are cleared, before the blocks' work. -/
def State.windowsCleared (s : State) : State := allWindows.foldl State.clearWindow s.stopCommands.dropStoreWrites

/-- The blocks' work at the start of teardown keeps what it finds of the held access, the windows and the queue. -/
theorem State.startTeardown_meets {P : State → Prop} (hP : Deskwise P) {s : State} (h : s.windowsCleared.Meets P) :
    s.startTeardown.Meets P := by
  have hpages {t : State} (ht : t.Meets P) (l : List (Fin 512 × Writer)) : (l.foldl State.resetPage t).Meets P :=
    foldl_meets _ (fun _ x h => State.resetPage_meets hP h x) _ ht
  have hstreams := foldl_meets _ (fun _ n h => State.resetStream_meets hP h n) allLines
    (State.resetPrint_meets hP (State.resetScan_meets hP h))
  exact foldl_meets _ (fun _ d h => State.resetDoc_meets hP h d) _
    (foldl_meets _ (fun _ n h => State.resetLine_meets hP h n) _ (hpages hstreams _))

/-! ## Waiting forwarded accesses -/

/-- No forwarded access waits for the memory port. -/
def State.NoneWaits (s : State) : Prop := s.path.waitingAccess = none

theorem State.noneWaits_of_held {s t : State} (hheld : t.path.held = s.path.held) (h : s.Meets State.NoneWaits) :
    t.Meets State.NoneWaits := (PathUnit.waitingAccess_of_held hheld).trans h

theorem State.enqueue_held (e : QueueEntry) (s : State) : (s.enqueue e).path.held = s.path.held := by
  unfold State.enqueue
  split <;> rfl

theorem noneWaits_deskwise : Deskwise State.NoneWaits where
  frame hheld _ _ h := State.noneWaits_of_held hheld h
  rewrite r _ h := State.noneWaits_of_held (State.enqueue_held _ _) h
  answer _ _ _ := rfl
  activate w s h := State.noneWaits_of_held (State.activatePending_held w s) h

/-! ## The control unit -/

section ControlUnit

variable {s : State} (h : s.Meets State.NoneWaits)

include h

theorem State.takeCommand_noneWaits : s.takeCommand.Meets State.NoneWaits := by
  unfold State.takeCommand
  dsimp only
  split
  · exact State.noneWaits_of_held (State.enqueue_held _ _) h
  · exact h

theorem State.takeTail_noneWaits (v : Nat) : (s.takeTail v).Meets State.NoneWaits := by
  unfold State.takeTail
  split
  · exact State.takeCommand_noneWaits h
  · refine State.raise_meets noneWaits_deskwise (State.rewrite_meets noneWaits_deskwise ?_ _) _
    exact h

theorem State.tailReadDone_noneWaits : s.tailReadDone.Meets State.NoneWaits := by
  have hfree := State.freePort_meets noneWaits_deskwise h
  unfold State.tailReadDone
  split
  · split
    · split
      · exact State.takeTail_noneWaits hfree _
      · exact hfree
    · exact h
  · exact h

theorem State.maskReadDone_noneWaits : s.maskReadDone.Meets State.NoneWaits := by
  unfold State.maskReadDone
  (repeat' split) <;> exact h

theorem State.enterRunning_noneWaits (store : StoreManager) : (s.enterRunning store).Meets State.NoneWaits := by
  have hrecheck (t : State) (w : Fin 6) (ht : t.Meets State.NoneWaits) : (t.recheckWindow w).Meets State.NoneWaits := by
    unfold State.recheckWindow
    split
    · exact State.noneWaits_of_held (State.activate_held ..) ht
    · exact ht
  have hstart : (({ s with store := store, ctl := { s.ctl with engine := .running } } : State).fullRewrite).Meets
      State.NoneWaits := State.noneWaits_of_held rfl h
  exact foldl_meets _ hrecheck _ hstart

theorem State.cmdStoreSetup_noneWaits (base : BitVec 32) (count : BitVec 16) (log : BitVec 32) (reserve : BitVec 16) :
    (s.cmdStoreSetup base count log reserve).state.Meets State.NoneWaits := by
  unfold State.cmdStoreSetup
  split
  · exact h
  · split
    · rw [State.okay_state]
      exact State.enterRunning_noneWaits h _
    · exact h

theorem State.ringCommand_noneWaits (c : Instr) : (State.ringCommand c s).state.Meets State.NoneWaits := by
  cases c with
  | storeSetup => exact State.cmdStoreSetup_noneWaits h ..
  | timeSet => exact State.cmdTimeSet_meets noneWaits_deskwise h ..
  | periodSet => exact State.cmdPeriodSet_meets noneWaits_deskwise h ..
  | tariffSet => exact State.cmdTariffSet_meets noneWaits_deskwise h ..
  | prefixSet => exact State.cmdPrefixSet_meets noneWaits_deskwise h ..
  | accountSet => exact State.cmdAccountSet_meets noneWaits_deskwise h ..
  | accountClear => exact State.cmdAccountClear_meets noneWaits_deskwise h ..
  | lineSetup => exact State.cmdLineSetup_meets noneWaits_deskwise h ..
  | docCreate => exact State.cmdDocCreate_meets noneWaits_deskwise h ..
  | destAdd => exact State.cmdDestAdd_meets noneWaits_deskwise h ..
  | docRelease => exact State.cmdDocRelease_meets noneWaits_deskwise h ..
  | docCancel => exact State.cmdDocCancel_meets noneWaits_deskwise h ..
  | destCancel => exact State.cmdDestCancel_meets noneWaits_deskwise h ..
  | docDelete => exact State.cmdDocDelete_meets noneWaits_deskwise h ..
  | printFirst => exact State.cmdPrintFirst_meets noneWaits_deskwise h ..
  | scanOpen => exact State.cmdScanOpen_meets noneWaits_deskwise h ..
  | pageCut => exact State.cmdPageCut_meets noneWaits_deskwise h ..
  | scanResume => exact State.cmdScanResume_meets noneWaits_deskwise h ..
  | scanClose => exact State.cmdScanClose_meets noneWaits_deskwise h ..
  | printOpen => exact State.cmdPrintOpen_meets noneWaits_deskwise h ..
  | printNext => exact State.cmdPrintNext_meets noneWaits_deskwise h ..
  | printClose => exact State.cmdPrintClose_meets noneWaits_deskwise h ..
  | sendOpen => exact State.cmdSendOpen_meets noneWaits_deskwise h ..
  | pageResult => exact State.cmdPageResult_meets noneWaits_deskwise h ..
  | receiveOpen => exact State.cmdReceiveOpen_meets noneWaits_deskwise h ..
  | streamClose => exact State.cmdStreamClose_meets noneWaits_deskwise h ..
  | callAnswer => exact State.cmdCallAnswer_meets noneWaits_deskwise h ..
  | answerSeen => exact State.cmdAnswerSeen_meets noneWaits_deskwise h ..
  | callEnd => exact State.cmdCallEnd_meets noneWaits_deskwise h ..
  | logRelease => exact State.cmdLogRelease_meets noneWaits_deskwise h ..
  | _ => exact h

theorem State.runCommand_noneWaits (c : Instr) : (s.runCommand (State.ringCommand c)).Meets State.NoneWaits := by
  unfold State.runCommand
  split
  · exact State.ringCommand_noneWaits h c
  · exact h

theorem State.executeSlot_noneWaits (bytes : List Byte) : (s.executeSlot bytes).Meets State.NoneWaits := by
  unfold State.executeSlot
  split
  · have hrun := State.runDueArbiter_meets noneWaits_deskwise (State.ringCommand_noneWaits h (slotCommand bytes))
    exact State.noneWaits_of_held (State.enqueue_held _ _) hrun
  · exact h

theorem State.slotReadDone_noneWaits : s.slotReadDone.Meets State.NoneWaits := by
  have hfree := State.freePort_meets noneWaits_deskwise h
  unfold State.slotReadDone
  split
  · split
    · split
      · exact State.executeSlot_noneWaits hfree _
      · exact hfree
    · exact h
  · exact h

theorem State.completeCommand_noneWaits : s.completeCommand.Meets State.NoneWaits := by
  unfold State.completeCommand
  split
  · refine State.takeCommand_noneWaits (State.rewrite_meets noneWaits_deskwise
      (State.raise_meets noneWaits_deskwise ?_ _) _)
    exact h
  · exact h

theorem State.resultWriteDone_noneWaits : s.resultWriteDone.Meets State.NoneWaits := by
  unfold State.resultWriteDone
  split
  · split
    · exact State.completeCommand_noneWaits h
    · exact h
  · exact h

theorem State.resetAsserted_noneWaits : s.resetAsserted.Meets State.NoneWaits := by
  have hstop (t : State) : t.stopCommands.path.held = t.path.held := by
    unfold State.stopCommands State.dropSlotRead
    dsimp only
    (repeat' split) <;> rfl
  have hclear (t : State) (w : Fin 6) (ht : t.Meets State.NoneWaits) : (t.clearWindow w).Meets State.NoneWaits :=
    State.noneWaits_of_held (State.setWindow_held ..) ht
  unfold State.resetAsserted
  dsimp only
  split
  · refine State.startTeardown_meets noneWaits_deskwise (foldl_meets _ hclear _ ?_)
    exact State.noneWaits_of_held (hstop _) h
  · exact h

end ControlUnit

/-- No command but a host access makes a forwarded access wait. -/
theorem effect_noneWaits {c : Instr} (haccess : c.access = none) {s : State} (h : s.Meets State.NoneWaits) :
    (effect c s).Meets State.NoneWaits := by
  have hP := noneWaits_deskwise
  cases c with
  | powerOn => exact rfl
  | resetInputAssert => exact State.resetAsserted_noneWaits h
  | resetInputRelease => exact h
  | maskReadComplete => exact State.maskReadDone_noneWaits h
  | tailReadComplete => exact State.tailReadDone_noneWaits h
  | slotReadComplete => exact State.slotReadDone_noneWaits h
  | resultWriteComplete => exact State.resultWriteDone_noneWaits h
  | storeWriteComplete => exact State.storeWriteDone_meets hP h
  | storeReadComplete => exact State.storeReadDone_meets hP h
  | mirrorWriteComplete => exact State.mirrorWriteDone_meets hP h
  | chargeRecordWriteComplete => exact State.chargeWriteDone_meets hP h
  | holdExpiry => exact State.holdExpired_meets hP h
  | encodeComplete => exact State.jobCompleted_meets hP h _ fun _ _ h => State.encodeDone_meets hP h
  | decodeComplete => exact State.jobCompleted_meets hP h _ fun _ _ h => State.decodeDone_meets hP h
  | checkComplete =>
    exact State.jobCompleted_meets hP h _ fun i _ h => StreamId.onLine_meets h (fun n _ h => State.placeChecked_meets hP h n) i
  | expandComplete =>
    exact State.jobCompleted_meets hP h _ fun i _ h => StreamId.onLine_meets h (fun n _ h => State.expandDone_meets hP h n) i
  | secondEvent => exact State.secondPassed_meets hP h
  | retryTimerExpiry => exact State.retryEnded_meets hP h _
  | ringBurstCounted => exact State.burstCounted_meets hP h _
  | ringCycleEnd => exact State.ringCycleEnded_meets hP h _
  | meterPulseJudged => exact State.pulseEnded_meets hP h ..
  | reversal => exact State.reversed_meets hP h _
  | loopSensePresent => exact State.loopPresent_meets hP h _
  | loopSenseAbsent => exact State.loopAbsent_meets hP h _
  | loopLoss => exact State.loopLost_meets hP h _
  | loopCheckExpiry => exact State.loopChecked_meets hP h _
  | seizeDelayExpiry => exact State.seizeDelayEnded_meets hP h _
  | dialElementEnd => exact State.elementEnded_meets hP h _
  | noAnswerExpiry => exact State.notAnswered_meets hP h _
  | clearGuardExpiry => exact State.guardEnded_meets hP h _
  | unitTimerExpiry => exact State.unitExpired_meets hP h _
  | graceExpiry => exact State.graceEnded_meets hP h _
  | ringInputActive => exact State.ringActive_meets hP h _
  | ringInputInactive => exact State.ringInactive_meets hP h _
  | meterInputActive => exact State.meterActive_meets hP h _
  | dialElementPhaseEnd => exact State.phaseEnded_meets hP h _
  | hostForwardedAccess | holdLimitWrite | noticeMaskWrite | windowTableWrite | tailWordWrite | acknowledgeWrite
  | controlAreaDrop | storeLogWriteDrop | closedWindowAccess | wrongDirectionWindowAccess | scanWindowWrite
  | receiveWindowWrite | printWindowRead | sendWindowRead => cases haccess
  | _ => exact State.runCommand_noneWaits h _

end Sys2Proof.Machine

/-! PROOF. Page memory is changed by writes alone: O12. No command but a host access or the completion of a write changes page memory
or makes a forwarded access wait, and the end of a step grants none; a completion stores its request's bytes; a rewrite carries its
record to a place of its own. -/

namespace Sys2Proof.Machine

/-! ## Commands that write nothing -/

theorem State.mem_of_portSide {s t : State} (h : s.portSide = t.portSide) : s.mem = t.mem := congrArg PortSide.mem h

theorem State.maskReadDone_mem (s : State) : s.maskReadDone.mem = s.mem := by
  unfold State.maskReadDone
  (repeat' split) <;> rfl

theorem State.tailReadDone_mem (s : State) : s.tailReadDone.mem = s.mem := by
  unfold State.tailReadDone
  split
  · split
    · split
      · exact (State.mem_of_portSide (State.takeTail_portSide ..) :)
      · rfl
    · rfl
  · rfl

theorem State.storeReadDone_mem (s : State) : s.storeReadDone.mem = s.mem := by
  unfold State.storeReadDone
  split
  · split
    · split
      · exact (State.mem_of_plant (State.deliverRead_plant ..) :)
      · rfl
    · rfl
  · rfl

theorem State.slotReadDone_mem (s : State) : s.slotReadDone.mem = s.mem := by
  unfold State.slotReadDone
  split
  · split
    · split
      · exact (State.mem_of_portSide (State.executeSlot_portSide ..) :)
      · rfl
    · rfl
  · rfl

/-- A command that is neither a host access nor the completion of a write leaves page memory as it is. -/
theorem effect_mem {c : Instr} (haccess : c.access = none) (hwrite : c.completesWrite = false) (s : State) :
    (effect c s).mem = s.mem := by
  cases c with
  | powerOn | resetInputRelease => rfl
  | resetInputAssert => exact State.mem_of_portSide s.resetAsserted_portSide
  | maskReadComplete => exact s.maskReadDone_mem
  | tailReadComplete => exact s.tailReadDone_mem
  | storeReadComplete => exact s.storeReadDone_mem
  | slotReadComplete => exact s.slotReadDone_mem
  | storeWriteComplete | mirrorWriteComplete | resultWriteComplete | chargeRecordWriteComplete => cases hwrite
  | holdExpiry => exact State.mem_of_plant (State.holdExpired_plant s)
  | encodeComplete => exact State.mem_of_plant (State.jobCompleted_plant _ (by simp) s)
  | decodeComplete => exact State.mem_of_plant (State.jobCompleted_plant _ (by simp) s)
  | checkComplete => exact State.mem_of_plant (State.jobCompleted_plant _ (StreamId.onLine_plant (by simp)) s)
  | expandComplete => exact State.mem_of_plant (State.jobCompleted_plant _ (StreamId.onLine_plant (by simp)) s)
  | secondEvent => exact State.mem_of_portSide s.secondPassed_portSide
  | retryTimerExpiry => exact State.mem_of_plant (State.retryEnded_plant ..)
  | ringBurstCounted => exact State.mem_of_plant (State.burstCounted_plant ..)
  | ringCycleEnd => exact State.mem_of_plant (State.ringCycleEnded_plant ..)
  | meterPulseJudged => exact State.mem_of_plant (State.pulseEnded_plant ..)
  | reversal => exact State.mem_of_plant (State.reversed_plant ..)
  | loopSensePresent => exact State.mem_of_plant (State.loopPresent_plant ..)
  | loopSenseAbsent => exact State.mem_of_plant (State.loopAbsent_plant ..)
  | loopLoss => exact State.mem_of_plant (State.loopLost_plant ..)
  | loopCheckExpiry => exact State.mem_of_plant (State.loopChecked_plant ..)
  | seizeDelayExpiry => exact State.mem_of_plant (State.seizeDelayEnded_plant ..)
  | dialElementEnd => exact State.mem_of_plant (State.elementEnded_plant ..)
  | noAnswerExpiry => exact State.mem_of_plant (State.notAnswered_plant ..)
  | clearGuardExpiry => exact State.mem_of_plant (State.guardEnded_plant ..)
  | unitTimerExpiry => exact State.mem_of_plant (State.unitExpired_plant ..)
  | graceExpiry => exact State.mem_of_plant (State.graceEnded_plant ..)
  | ringInputActive => exact State.mem_of_plant (State.ringActive_plant ..)
  | ringInputInactive => exact State.mem_of_plant (State.ringInactive_plant ..)
  | meterInputActive => exact State.mem_of_plant (State.meterActive_plant ..)
  | dialElementPhaseEnd => exact State.mem_of_plant (State.phaseEnded_plant ..)
  | hostForwardedAccess | holdLimitWrite | noticeMaskWrite | windowTableWrite | tailWordWrite | acknowledgeWrite
  | controlAreaDrop | storeLogWriteDrop | closedWindowAccess | wrongDirectionWindowAccess | scanWindowWrite
  | receiveWindowWrite | printWindowRead | sendWindowRead => cases haccess
  | _ => exact State.mem_of_portSide (State.runCommand_portSide ..)

/-- What a step with no host access makes of page memory is what the command's effect makes of it. -/
theorem exec_mem {c : Instr} (haccess : c.access = none) {s : State} (h : s.path.waitingAccess = none) :
    ∃ u, exec c s = .next u ∧ u.mem = (effect c s).mem :=
  ⟨_, exec_eq_effect c s, State.settleStep_mem _ (effect_noneWaits haccess h)⟩

/-! ## Completions of writes -/

/-- The completion of a write stores the request's bytes at its address. -/
theorem effect_completion_mem {s : State} {p : PortRequest} (hport : s.path.port = some p)
    (hwrite : p.kind.completion.completesWrite = true) :
    (effect p.kind.completion s).mem = Memory.writeBytes s.mem p.addr p.bytes := by
  cases hkind : p.kind with
  | storeWrite w page ends =>
    have hdone : s.storeWriteDone = if ends then (s.portWritten p).pageStored w page else s.portWritten p := by
      rw [State.storeWriteDone, hport]
      dsimp only
      rw [hkind]
    have hmem : s.storeWriteDone.mem = (s.portWritten p).mem := by
      rw [hdone]
      split
      · exact State.mem_of_plant (State.pageStored_plant ..)
      · rfl
    exact hmem
  | recordWrite r =>
    have hdone : s.mirrorWriteDone = (s.portWritten p).controlDone := by
      rw [State.mirrorWriteDone, hport]
      dsimp only
      rw [hkind]
    exact congrArg State.mem hdone
  | resultWrite =>
    have hdone : s.resultWriteDone = ((s.portWritten p).controlDone).completeCommand := by
      rw [State.resultWriteDone, hport]
      dsimp only
      rw [hkind]
    exact (congrArg State.mem hdone).trans (State.mem_of_portSide (State.completeCommand_portSide _))
  | chargeWrite =>
    have hdone : s.chargeWriteDone.mem = (s.portWritten p).mem := by
      rw [State.chargeWriteDone, hport]
      dsimp only
      rw [hkind]
      exact State.mem_of_plant (State.rewrite_plant ..)
    exact hdone
  | storeRead | slotRead | tailRead | maskRead =>
    rw [hkind] at hwrite
    cases hwrite

/-! ## Mirror records -/

/-- A record's bytes fill its place. -/
theorem State.recordBytes_length (r : RecordId) (s : State) : (s.recordBytes r).length = r.size := by
  cases r with
  | statusWords => rfl
  | page p => rfl
  | stream w =>
    simp only [State.recordBytes, State.streamBytes]
    split <;> rfl
  | counters | document | account | line | prefixEntry | tariff | destination => exact padTo_length ..

/-- Every record lies in a part-written area. -/
theorem RecordId.partWritten_offset (r : RecordId) {i : Nat} (h : i < r.size) : partWritten (r.offset + i) = true := by
  simp only [partWritten, Bool.or_eq_true, Bool.and_eq_true, decide_eq_true_eq]
  cases r <;> simp only [RecordId.offset, RecordId.size] at h ⊢ <;> omega

/-- No record lies over another. -/
theorem RecordId.places_apart {r q : RecordId} (h : r ≠ q) :
    r.offset + r.size ≤ q.offset ∨ q.offset + q.size ≤ r.offset := by
  cases r <;> cases q <;>
    simp only [RecordId.offset, RecordId.size, ne_eq, RecordId.page.injEq, RecordId.document.injEq, RecordId.account.injEq,
      RecordId.line.injEq, RecordId.stream.injEq, RecordId.prefixEntry.injEq, RecordId.destination.injEq, Fin.ext_iff,
      not_true_eq_false] at h ⊢ <;>
    omega

/-- The grant of a rewrite puts the record, as it stands, on the port. -/
theorem State.grantPort_record {r : RecordId} {rest : List QueueEntry} {s : State} (h : s.grantsNext .control)
    (hqueue : s.ctl.queue = .record r :: rest) :
    s.grantPort = { s with
      ctl := { s.ctl with queue := rest },
      path := s.path.granted .control (.recordWrite r) (s.path.controlBase.toNat + r.offset) (s.recordBytes r) } := by
  rw [State.grantPort_control h hqueue]
  rfl

/-- The completion of a rewrite stores it, frees the port and counts toward a teardown's end. -/
theorem State.mirrorWriteDone_record {p : PortRequest} {r : RecordId} {s : State} (hport : s.path.port = some p)
    (hkind : p.kind = .recordWrite r) :
    s.mirrorWriteDone = { s with
      mem := Memory.writeBytes s.mem p.addr p.bytes, path := { s.path with port := none },
      ctl := { s.ctl with teardown := Teardown.counted s.ctl.teardown } } := by
  rw [State.mirrorWriteDone, hport]
  dsimp only
  rw [hkind]
  rfl

/-- Settles O12: page memory is read through `exec_mem`, by the cases of the commands and of the requests. -/
theorem memoryChangedByWritesAlone : Obligations.MemoryChangedByWritesAlone := by
  unfold Obligations.MemoryChangedByWritesAlone
  refine ⟨fun c s haccess hwrite hwait => ?_, ?_, fun r rest s => State.grantPort_record, fun r q s => ?_, ?_⟩
  · obtain ⟨u, hu, hmem⟩ := exec_mem haccess hwait
    exact ⟨u, hu, fun a => by rw [hmem, effect_mem haccess hwrite s]⟩
  · intro s p hcanonical hwait hport hlength c hc hwrite
    have haccess : c.access = none := by cases c <;> first | rfl | cases hwrite
    obtain ⟨u, hu, hmem⟩ := exec_mem haccess hwait
    subst hc
    rw [effect_completion_mem hport hwrite] at hmem
    refine ⟨u, hu, fun i hi => ?_, fun a ha => ?_⟩
    · rw [hmem, Memory.read_writeBytes hcanonical hlength hi]
    · rw [hmem, Memory.read_writeBytes_of_ne hcanonical ha]
  · exact ⟨State.recordBytes_length r s, RecordId.places_apart, fun i => r.partWritten_offset⟩
  · intro p r s hport hkind
    exact congrArg (fun t : State => Host.Outcome.next t.settleStep) (State.mirrorWriteDone_record hport hkind)

end Sys2Proof.Machine

/-! PROOF. The start of reset teardown (R20, R40, R41, R81, R97, R116, R141, R160, R171): what the reset of each block leaves, block
after block. -/

namespace Sys2Proof.Machine

/-! ## A fold over indices -/

/-- A fold of an operation that works on one index at a time does on each index what the operation does there. -/
theorem foldl_each {ι α : Type} (V : State → ι → α) (F : State → ι → State) (Q : α → α → Prop)
    (hother : ∀ s n m, m ≠ n → V (F s n) m = V s m) (hself : ∀ s n, Q (V s n) (V (F s n) n)) {l : List ι} (hl : l.Nodup) {n : ι}
    (hn : n ∈ l) (s : State) : Q (V s n) (V (l.foldl F s) n) := by
  have houtside (l : List ι) (hl : n ∉ l) (s : State) : V (l.foldl F s) n = V s n := by
    induction l generalizing s with
    | nil => rfl
    | cons a l ih =>
      obtain ⟨hna, hnl⟩ := not_or.mp fun h => hl (List.mem_cons.mpr h)
      rw [List.foldl_cons, ih hnl, hother s a n hna]
  induction l generalizing s with
  | nil => cases hn
  | cons a l ih =>
    obtain ⟨ha, hnodup⟩ := List.nodup_cons.mp hl
    rw [List.foldl_cons]
    by_cases hna : n = a
    · subst hna
      rw [houtside l ha]
      exact hself s n
    · rw [← hother s a n hna]
      exact ih hnodup ((List.mem_cons.mp hn).resolve_left hna) _

/-- What every operation of a fold keeps, the fold keeps. -/
theorem foldl_keeps {α : Type} (P : State → Prop) (F : State → α → State) (hF : ∀ s a, P s → P (F s a)) (l : List α) {s : State}
    (h : P s) : P (l.foldl F s) := foldl_meets F hF l h

theorem allLines_nodup : allLines.Nodup := by decide

theorem mem_allLines (n : Fin 4) : n ∈ allLines := by fin_cases n <;> decide

theorem allWindows_nodup : allWindows.Nodup := by decide

/-! ## The control unit and the windows -/

/-- No read of a command slot is queued. -/
def State.NoSlotRead (s : State) : Prop := QueueEntry.slotRead ∉ s.ctl.queue

theorem State.enqueue_noSlotRead {e : QueueEntry} {s : State} (he : e ≠ .slotRead) (h : s.NoSlotRead) :
    (s.enqueue e).NoSlotRead := by
  unfold State.enqueue
  split
  · exact h
  · exact fun hmem => (List.mem_append.mp hmem).elim h fun he' => he (List.mem_singleton.mp he').symm

theorem State.rewrite_noSlotRead {s : State} (h : s.NoSlotRead) (r : RecordId) : (s.rewrite r).NoSlotRead :=
  State.enqueue_noSlotRead (fun he => by cases he) h

theorem State.clearWindow_noSlotRead {s : State} (h : s.NoSlotRead) (w : Fin 6) : (s.clearWindow w).NoSlotRead := by
  unfold State.clearWindow State.setWindow State.rewriteIf
  split
  · exact State.rewrite_noSlotRead (by exact h) _
  · exact h

theorem State.stopCommands_eq (s : State) : ∃ port, s.stopCommands = { s with
    path := { s.path with port := port },
    ctl := { s.ctl with
      teardown := some .storeWork, inProgress := none, queue := s.ctl.queue.filter (fun e => decide (e ≠ .slotRead)) } } := by
  unfold State.stopCommands State.dropSlotRead
  dsimp only
  split
  · split
    · exact ⟨_, rfl⟩
    · exact ⟨_, rfl⟩
  · exact ⟨_, rfl⟩

theorem State.stopCommands_noSlotRead (s : State) : s.stopCommands.dropStoreWrites.NoSlotRead := by
  obtain ⟨port, h⟩ := s.stopCommands_eq
  have hqueue : s.stopCommands.dropStoreWrites.ctl.queue = s.ctl.queue.filter (fun e => decide (e ≠ .slotRead)) := by
    rw [State.dropStoreWrites_ctl, h]
  intro hmem
  rw [hqueue] at hmem
  exact of_decide_eq_true (List.mem_filter.mp hmem).2 rfl

theorem State.windowsCleared_noSlotRead (s : State) : s.windowsCleared.NoSlotRead :=
  foldl_keeps State.NoSlotRead _ (fun _ w h => State.clearWindow_noSlotRead h w) _ s.stopCommands_noSlotRead

/-- A window with no entry. -/
def WindowShadow.cleared (x : WindowShadow) : WindowShadow := { x with active := ⟨0, 0⟩, pending := none, status := .off }

theorem State.clearWindow_form (s : State) (w : Fin 6) :
    ∃ q, s.clearWindow w =
      ({ s with path := { s.path with windows := s.path.windows.set w (s.window w).cleared } } : State).withQueue q := by
  obtain ⟨q, hq, -⟩ := State.setWindow_form w (s.window w).cleared s
  exact ⟨q, hq⟩

theorem State.windowsCleared_window (s : State) (w : Fin 6) : s.windowsCleared.window w = (s.window w).cleared := by
  have hstart : s.stopCommands.dropStoreWrites.window w = s.window w := by
    obtain ⟨port, h⟩ := s.stopCommands_eq
    rw [State.dropStoreWrites, h]
    rfl
  have hcleared := foldl_each (fun s w => s.window w) State.clearWindow (fun x y => y = x.cleared)
    (fun s n m hm => by
      obtain ⟨q, hq⟩ := s.clearWindow_form n
      rw [hq]
      exact Table.get_set_of_ne _ _ hm.symm)
    (fun s n => by
      obtain ⟨q, hq⟩ := s.clearWindow_form n
      rw [hq]
      exact Table.get_set_self _ _ _)
    allWindows_nodup (mem_allWindows w) s.stopCommands.dropStoreWrites
  rw [State.windowsCleared]
  exact hcleared.trans (congrArg WindowShadow.cleared hstart)

/-- Nothing that reads the windows and the queue alone changes while no entry is pending and only rewrites are queued. -/
theorem keepsWindows_deskwise {W : Table WindowShadow 6} (hW : ∀ w, (W.get w).pending = none) :
    Deskwise fun s => s.NoSlotRead ∧ s.path.windows = W where
  frame _ hwindows hqueue h := ⟨fun hmem => h.1 (hqueue ▸ hmem), hwindows.trans h.2⟩
  rewrite r s h := ⟨State.rewrite_noSlotRead h.1 r, by rw [State.rewrite_path]; exact h.2⟩
  answer _ _ h := h
  activate w s h := by
    have hnone : (s.window w).pending = none := by
      rw [State.window, h.2]
      exact hW w
    rw [State.activatePending, hnone]
    exact h

/-- The start of teardown leaves no slot read queued and the windows cleared. -/
theorem State.startTeardown_windows (s : State) :
    s.startTeardown.NoSlotRead ∧ ∀ w, s.startTeardown.window w = (s.window w).cleared := by
  have hnone (w : Fin 6) : (s.windowsCleared.path.windows.get w).pending = none :=
    congrArg WindowShadow.pending (s.windowsCleared_window w)
  obtain ⟨hqueue, hwindows⟩ := State.startTeardown_meets (keepsWindows_deskwise hnone) ⟨s.windowsCleared_noSlotRead, rfl⟩
  refine ⟨hqueue, fun w => ?_⟩
  rw [State.window, hwindows]
  exact s.windowsCleared_window w

/-! ## The plant -/

theorem State.windowsCleared_plant (s : State) : s.windowsCleared.plant = s.stopCommands.dropStoreWrites.plant :=
  foldl_plant _ State.clearWindow_plant _ _

theorem State.startTeardown_plant (s : State) : s.startTeardown.plant = s.stopCommands.dropStoreWrites.plant := by
  unfold State.startTeardown
  dsimp only
  rw [foldl_plant _ State.resetDoc_plant, foldl_plant _ State.resetLine_plant, foldl_plant _ State.resetPage_plant,
    foldl_plant _ State.resetStream_plant, State.resetPrint_plant, State.resetScan_plant]
  exact s.windowsCleared_plant

/-! ## The streams -/

/-- Every stream is CLOSED, and the scan stream shows no starvation. -/
structure State.StreamsClosed (s : State) : Prop where
  scan : s.scan.state = .closed
  cause : s.scan.cause = .none
  print : s.print.state = .closed
  lines : ∀ n, (s.stream n).state = .closed

theorem State.StreamsClosed.of_apart {s t : State} (h : s.StreamsClosed) (hscan : t.scan = s.scan) (hprint : t.print = s.print)
    (hlines : ∀ n, (t.stream n).state = .closed) : t.StreamsClosed :=
  ⟨hscan ▸ h.scan, hscan ▸ h.cause, hprint ▸ h.print, hlines⟩

theorem State.resetStream_closes (s : State) (n : Fin 4) : ((s.resetStream n).stream n).state = .closed := by
  unfold State.resetStream
  split
  · assumption
  · obtain ⟨q, windows, hq, -⟩ := (s.endTraffic n).enterClosed_form n
    rw [hq]
    exact congrArg LineStream.state (Table.get_set_self (s.endTraffic n).streams n ((s.endTraffic n).stream n).shut)

theorem State.resetStream_stream_of_ne (s : State) {n m : Fin 4} (hm : m ≠ n) : (s.resetStream n).stream m = s.stream m := by
  unfold State.resetStream
  split
  · rfl
  · obtain ⟨q, windows, hq, -⟩ := (s.endTraffic n).enterClosed_form n
    obtain ⟨q', dropped, hq'⟩ := s.endTraffic_form n
    rw [hq, hq']
    exact (Table.get_set_of_ne _ _ hm.symm).trans (Table.get_set_of_ne _ _ hm.symm)

@[simp] theorem State.resetStream_apart (s : State) (n : Fin 4) : (s.resetStream n).apart = s.apart := by
  unfold State.resetStream
  split <;> simp

/-- The lines and the charge unit's contexts. -/
def State.calls (s : State) : Table LineUnit 4 × Table (Option CallContext) 4 := (s.lines, s.charge.contexts)

theorem State.calls_of_apart {s t : State} (h : t.apart = s.apart) : t.calls = s.calls :=
  congrArg (fun a : Apart => (a.lines, a.charge.contexts)) h

theorem State.resetScan_form (s : State) : ∃ q path scan coder,
    s.resetScan = ({ s with path := path, scan := scan, coder := coder } : State).withQueue q ∧
      scan.state = .closed ∧ scan.cause = .none := by
  obtain ⟨q₁, hheld⟩ := s.closeHeld_scan
  obtain ⟨v, hv⟩ : ∃ v, v = (s.closeHeld 0).idleCtx .scan := ⟨_, rfl⟩
  obtain ⟨q, hset, -⟩ := State.setScan_form { v.scan.emptied with state := .closed, cause := .none } v
  have hreset : s.resetScan = v.setScan { v.scan.emptied with state := .closed, cause := .none } := by
    rw [hv]
    rfl
  refine ⟨q, v.path, { v.scan.emptied with state := .closed, cause := .none }, v.coder, ?_, rfl, rfl⟩
  rw [hreset, hset, hv, State.idleCtx_eq, hheld]
  rfl

theorem State.resetScan_calls (s : State) : s.resetScan.calls = s.calls := by
  obtain ⟨q, path, scan, coder, h, -⟩ := s.resetScan_form
  rw [h]
  rfl

theorem State.resetPrint_calls (s : State) : s.resetPrint.calls = s.calls := by
  unfold State.resetPrint
  split
  · rfl
  · obtain ⟨q, dropped, windows, h, -⟩ := s.closePrint_form
    rw [h]
    rfl

theorem State.resetPrint_print (s : State) : s.resetPrint.print.state = .closed ∧ s.resetPrint.scan = s.scan := by
  unfold State.resetPrint
  split
  · exact ⟨by assumption, rfl⟩
  · obtain ⟨q, dropped, windows, h, -⟩ := s.closePrint_form
    rw [h]
    exact ⟨rfl, rfl⟩

theorem State.scan_of_apart {s t : State} (h : t.apart = s.apart) : t.scan = s.scan := congrArg Apart.scan h

/-- The state in which the streams are closed, before the store manager's work. -/
def State.streamsReset (s : State) : State := allLines.foldl State.resetStream s.windowsCleared.resetScan.resetPrint

theorem State.streamsReset_closed (s : State) : s.streamsReset.StreamsClosed := by
  obtain ⟨q, path, scan, coder, hscan, hstate, hcause⟩ := s.windowsCleared.resetScan_form
  obtain ⟨hprint, hkept⟩ := s.windowsCleared.resetScan.resetPrint_print
  have hapart : s.streamsReset.apart = s.windowsCleared.resetScan.resetPrint.apart := foldl_apart _ State.resetStream_apart _ _
  have hs : s.streamsReset.scan = scan := by
    rw [State.scan_of_apart hapart, hkept, hscan]
    rfl
  have hp := State.print_of_apart hapart
  refine ⟨by rw [hs, hstate], by rw [hs, hcause], by rw [hp, hprint], fun n => ?_⟩
  exact foldl_each (fun s n => (s.stream n).state) State.resetStream (fun _ y => y = .closed)
    (fun s n m hm => congrArg LineStream.state (s.resetStream_stream_of_ne hm)) State.resetStream_closes allLines_nodup
    (mem_allLines n) _

@[simp] theorem State.clearWindow_apart (s : State) (w : Fin 6) : (s.clearWindow w).apart = s.apart := by simp [State.clearWindow]

theorem State.windowsCleared_calls (s : State) : s.windowsCleared.calls = s.calls := by
  obtain ⟨port, hstop⟩ := s.stopCommands_eq
  have hcleared : s.windowsCleared.apart = s.stopCommands.dropStoreWrites.apart :=
    foldl_apart _ State.clearWindow_apart _ _
  rw [State.calls_of_apart hcleared, State.dropStoreWrites, hstop]
  rfl

theorem State.streamsReset_calls (s : State) : s.streamsReset.calls = s.calls := by
  have hapart : s.streamsReset.apart = s.windowsCleared.resetScan.resetPrint.apart := foldl_apart _ State.resetStream_apart _ _
  rw [State.calls_of_apart hapart, State.resetPrint_calls, State.resetScan_calls, State.windowsCleared_calls]

/-! ## The pages being written -/

@[simp] theorem State.resetPage_apart (s : State) (x : Fin 512 × Writer) : (s.resetPage x).apart = s.apart := by
  unfold State.resetPage
  (repeat' split) <;> simp

theorem State.resetPage_streams (s : State) (x : Fin 512 × Writer) : (s.resetPage x).streams = s.streams := by
  have hfree (w : Writer) : (s.freePage w).streams = s.streams := by
    unfold State.freePage
    split <;> simp [State.giveBack, State.dropFromList]
  have hclose (w : Writer) (flags : CloseFlags) : (s.closePage w flags).streams = s.streams := by
    unfold State.closePage
    (repeat' split) <;> simp [State.beginClosing]
  unfold State.resetPage
  split
  · split
    · exact hfree _
    · exact hclose ..
  · exact hfree _

/-- The state in which the pages being written are freed or closed. -/
def State.pagesReset (s : State) : State := s.streamsReset.openPages.foldl State.resetPage s.streamsReset

theorem State.pagesReset_closed (s : State) : s.pagesReset.StreamsClosed :=
  foldl_keeps _ _ (fun s x h => h.of_apart (congrArg Apart.scan (s.resetPage_apart x)) (congrArg Apart.print (s.resetPage_apart x))
    fun n => by
      rw [State.stream, State.resetPage_streams]
      exact h.lines n) _ s.streamsReset_closed

theorem State.pagesReset_calls (s : State) : s.pagesReset.calls = s.calls := by
  have hapart : s.pagesReset.apart = s.streamsReset.apart := foldl_apart _ State.resetPage_apart _ _
  rw [State.calls_of_apart hapart, State.streamsReset_calls]

/-! ## The lines (R141) -/

/-- What a line leaves for a reset: the record's state, the clearing of its call, and the context ended. -/
def LineReset (x y : LineUnit × Option CallContext) : Prop :=
  y.1.record.state.hasCall = false ∧ y.1.record.state ≠ .ringing ∧
    (x.1.record.state.hasCall = true → y.1.record.state = .clearing ∧ y.1.record.lastCause = .reset ∧ y.2 = none)

/-- A line and its call. -/
def State.callOf (s : State) (n : Fin 4) : LineUnit × Option CallContext := (s.lineUnit n, s.context n)

theorem State.callOf_snd (s : State) (n : Fin 4) : (s.callOf n).2 = s.context n := rfl

theorem State.callOf_of_calls {s t : State} (h : t.calls = s.calls) (n : Fin 4) : t.callOf n = s.callOf n :=
  congrArg (fun x : Table LineUnit 4 × Table (Option CallContext) 4 => (x.1.get n, x.2.get n)) h

/-- A line that becomes idle shows IDLE or, by its new settings, DISABLED. -/
theorem State.applyIdle_form (n : Fin 4) (s : State) : ∃ u q due, s.applyIdle n = ({ s with
    lines := s.lines.set n u, dispatch := { s.dispatch with arbiterDue := due } } : State).withQueue q ∧
      (u.record.state = .idle ∨ u.record.state = .disabled) := by
  by_cases hoff : (s.lineUnit n).record.pending ≠ none ∧ (s.lineUnit n).record.nextSettings.direction = .off
  · obtain ⟨q, h⟩ := State.applyIdle_disables rfl hoff.1 hoff.2
    exact ⟨_, q, s.dispatch.arbiterDue, h, .inr rfl⟩
  · obtain ⟨q, h⟩ := State.applyIdle_idles rfl (by tauto)
    exact ⟨_, q, true, h, .inl rfl⟩

/-- A line that was RINGING becomes idle, and no other block changes. -/
theorem State.resetLine_ringing {n : Fin 4} {s : State} (h : (s.lineUnit n).record.state = .ringing) :
    ∃ u, (s.resetLine n).lines = s.lines.set n u ∧ (s.resetLine n).charge = s.charge ∧ (s.resetLine n).streams = s.streams ∧
      (s.resetLine n).scan = s.scan ∧ (s.resetLine n).print = s.print ∧
      (u.record.state = .idle ∨ u.record.state = .disabled) := by
  obtain ⟨v, hv⟩ : ∃ v, v = s.modRecord n fun r => { r with ringCount := 0, answerRefusal := .none } := ⟨_, rfl⟩
  obtain ⟨q₁, hmod⟩ := State.modRecord_form n (fun r => { r with ringCount := 0, answerRefusal := .none }) s
  obtain ⟨u, q, due, hidle, hstate⟩ := State.applyIdle_form n v
  have hreset : s.resetLine n = v.applyIdle n := by rw [State.resetLine, h, hv]
  rw [← hv] at hmod
  refine ⟨u, ?_, ?_, ?_, ?_, ?_, hstate⟩
  · rw [hreset, hidle]
    exact (congrArg (fun l => l.set n u) (congrArg State.lines hmod)).trans (Table.set_set ..)
  all_goals
    rw [hreset, hidle, hmod]
    rfl

theorem State.resetLine_call {n : Fin 4} {s : State} (h : (s.lineUnit n).record.state.hasCall = true) :
    s.resetLine n = s.clearOrder n .reset := by
  rw [State.resetLine]
  cases hstate : (s.lineUnit n).record.state with
  | seizing | dialling | awaiting | connected => rfl
  | disabled | idle | ringing | clearing =>
    rw [hstate] at h
    cases h

theorem State.resetLine_other {n : Fin 4} {s : State} (hcall : (s.lineUnit n).record.state.hasCall = false)
    (hring : (s.lineUnit n).record.state ≠ .ringing) : s.resetLine n = s := by
  rw [State.resetLine]
  cases hstate : (s.lineUnit n).record.state with
  | disabled | idle | clearing => rfl
  | ringing => exact absurd hstate hring
  | seizing | dialling | awaiting | connected =>
    rw [hstate] at hcall
    cases hcall

/-- A line's reset: it does nothing, ends the ringing, or clears the call. -/
theorem State.resetLine_cases (s : State) (n : Fin 4) :
    ((s.lineUnit n).record.state.hasCall = false ∧ (s.lineUnit n).record.state ≠ .ringing ∧ s.resetLine n = s) ∨
    (s.lineUnit n).record.state = .ringing ∨
    ((s.lineUnit n).record.state.hasCall = true ∧ s.resetLine n = s.clearOrder n .reset) := by
  cases hcall : (s.lineUnit n).record.state.hasCall with
  | true => exact .inr (.inr ⟨rfl, State.resetLine_call hcall⟩)
  | false =>
    by_cases hring : (s.lineUnit n).record.state = .ringing
    · exact .inr (.inl hring)
    · exact .inl ⟨rfl, hring, State.resetLine_other hcall hring⟩

theorem State.resetLine_callOf_of_ne (s : State) {n m : Fin 4} (hm : m ≠ n) : (s.resetLine n).callOf m = s.callOf m := by
  obtain ⟨-, -, h⟩ | h | ⟨-, h⟩ := s.resetLine_cases n
  · rw [h]
  · obtain ⟨u, hlines, hcharge, -⟩ := State.resetLine_ringing h
    rw [State.callOf, State.lineUnit, State.context, hlines, hcharge, Table.get_set_of_ne _ _ hm.symm]
    rfl
  · obtain ⟨hlines, -, -, -, -, hcontexts, -⟩ := State.clearOrder_leaves n .reset s
    rw [h, State.callOf, State.lineUnit, hlines, hcontexts m hm, Table.get_set_of_ne _ _ hm.symm]
    rfl

theorem State.resetLine_resets (s : State) (n : Fin 4) : LineReset (s.callOf n) ((s.resetLine n).callOf n) := by
  obtain ⟨hcall, hring, h⟩ | h | ⟨-, h⟩ := s.resetLine_cases n
  · rw [h]
    exact ⟨hcall, hring, fun hc => absurd (hc.symm.trans hcall) (by decide)⟩
  · obtain ⟨u, hlines, -, -, -, -, hstate⟩ := State.resetLine_ringing h
    have hunit : ((s.resetLine n).callOf n).1 = u := by
      rw [State.callOf, State.lineUnit, hlines]
      exact Table.get_set_self _ _ _
    have hnot : (s.callOf n).1.record.state.hasCall ≠ true := by
      rw [State.callOf, h]
      decide
    refine ⟨?_, ?_, fun hc => absurd hc hnot⟩
    · rw [hunit]
      obtain hs | hs := hstate <;> rw [hs] <;> rfl
    · rw [hunit]
      obtain hs | hs := hstate <;> rw [hs] <;> decide
  · obtain ⟨hlines, -, -, -, hcontext, -⟩ := State.clearOrder_leaves n .reset s
    have hunit : ((s.clearOrder n .reset).callOf n).1 = (s.lineUnit n).clearedBy .reset s.now := by
      rw [State.callOf, State.lineUnit, hlines]
      exact Table.get_set_self _ _ _
    rw [h, LineReset, hunit, State.callOf_snd]
    exact ⟨rfl, (by decide : LineState.clearing ≠ .ringing), fun _ => ⟨rfl, rfl, hcontext⟩⟩

/-! ## The streams stay closed -/

/-- A context's end leaves the scan and the print stream. -/
theorem State.endContext_scanPrint (n : Fin 4) (cause : Cause) (s : State) :
    (s.endContext n cause).scan = s.scan ∧ (s.endContext n cause).print = s.print := by
  cases hc : s.context n with
  | none =>
    rw [State.endContext_none hc]
    exact ⟨rfl, rfl⟩
  | some c =>
    obtain ⟨u, r, q, notices, k, hu, -, hsome, hnone⟩ := State.endContext_form cause hc
    have hkept : u.scan = s.scan ∧ u.print = s.print := by
      rw [hu]
      exact ⟨rfl, rfl⟩
    cases hdest : c.destination with
    | none =>
      rw [hnone hdest]
      exact hkept
    | some x =>
      obtain ⟨z, hz⟩ := State.settle_settledBy x cause u
      rw [hsome x hdest, hz]
      exact hkept

theorem State.closeStream_of_closed {n : Fin 4} {s : State} (h : (s.stream n).state = .closed) : s.closeStream n = s := by
  rw [State.closeStream]
  exact if_pos h

/-- The end of receiving leaves CLOSED streams CLOSED. -/
theorem State.endReceiving_closed {n m : Fin 4} {s : State} (hn : (s.stream n).state = .closed) (hm :
    (s.stream m).state = .closed) :
    ((s.endReceiving n).stream m).state = .closed := by
  by_cases hmn : m = n
  · subst hmn
    exact (State.endReceiving_stream hn).1
  · rw [State.endReceiving, State.modStream_stream_of_ne hmn]
    cases (s.stream n).callDoc with
    | none => exact hm
    | some d => exact (congrArg LineStream.state (State.endBuilding_closed hm d)).trans hm

/-- With every stream closed, a clear order leaves them closed. -/
theorem State.StreamsClosed.clearOrder {s : State} (h : s.StreamsClosed) (n : Fin 4) (cause : Cause) :
    (s.clearOrder n cause).StreamsClosed := by
  obtain ⟨v, hv⟩ : ∃ v, v = s.modLine n fun u => u.cleared cause := ⟨_, rfl⟩
  obtain ⟨w, hw⟩ : ∃ w, w = v.endReceiving n := ⟨_, rfl⟩
  obtain ⟨x, hx⟩ : ∃ x, x = w.endContext n cause := ⟨_, rfl⟩
  have hvclosed : v.StreamsClosed := by
    obtain ⟨q, hmod, -⟩ := State.setLine_form n ((s.lineUnit n).cleared cause) s
    rw [hv, State.modLine_eq, hmod]
    exact ⟨h.scan, h.cause, h.print, h.lines⟩
  have hwclosed : w.StreamsClosed := by
    have hapart : w.apart = v.apart := by rw [hw, State.endReceiving_apart]
    refine hvclosed.of_apart (State.scan_of_apart hapart) (State.print_of_apart hapart) fun m => ?_
    rw [hw]
    exact State.endReceiving_closed (hvclosed.lines n) (hvclosed.lines m)
  have hxclosed : x.StreamsClosed := by
    obtain ⟨-, -, hstreams, -⟩ := State.endContext_leaves n cause w
    obtain ⟨hscan, hprint⟩ := State.endContext_scanPrint n cause w
    rw [← hx] at hstreams hscan hprint
    refine hwclosed.of_apart hscan hprint fun m => ?_
    rw [State.stream, hstreams]
    exact hwclosed.lines m
  obtain ⟨q, hset, -⟩ := State.setLine_form n { x.lineUnit n with
    record := { (x.lineUnit n).record with
      noLoopRun := noLoopAfter cause (x.lineUnit n).record.noLoopRun, destination := none },
    clearGuard := some (x.now + (x.lineUnit n).record.active.clearGuard * Config.second) } x
  have hclear : s.clearOrder n cause = x.setLine n { x.lineUnit n with
      record := { (x.lineUnit n).record with
        noLoopRun := noLoopAfter cause (x.lineUnit n).record.noLoopRun, destination := none },
      clearGuard := some (x.now + (x.lineUnit n).record.active.clearGuard * Config.second) } := by
    rw [State.clearOrder]
    dsimp only
    rw [← hv, State.closeStream_of_closed (hvclosed.lines n), ← hw, ← hx]
    rfl
  rw [hclear, hset]
  exact ⟨hxclosed.scan, hxclosed.cause, hxclosed.print, hxclosed.lines⟩

theorem State.StreamsClosed.resetLine {s : State} (h : s.StreamsClosed) (n : Fin 4) : (s.resetLine n).StreamsClosed := by
  obtain ⟨-, -, hreset⟩ | hring | ⟨-, hreset⟩ := s.resetLine_cases n
  · rw [hreset]
    exact h
  · obtain ⟨u, -, -, hstreams, hscan, hprint, -⟩ := State.resetLine_ringing hring
    refine h.of_apart hscan hprint fun m => ?_
    rw [State.stream, hstreams]
    exact h.lines m
  · rw [hreset]
    exact h.clearOrder n .reset

theorem State.resetDoc_apart (s : State) (d : Fin 64) : (s.resetDoc d).apart = s.apart := by
  unfold State.resetDoc
  split <;> simp

theorem State.StreamsClosed.resetDoc {s : State} (h : s.StreamsClosed) (d : Fin 64) : (s.resetDoc d).StreamsClosed := by
  refine h.of_apart (State.scan_of_apart (s.resetDoc_apart d)) (State.print_of_apart (s.resetDoc_apart d)) fun n => ?_
  unfold State.resetDoc
  split
  · exact (congrArg LineStream.state (State.endBuilding_closed (h.lines n) d)).trans (h.lines n)
  · exact h.lines n

/-! ## The documents (R116) -/

theorem allDocs_nodup : allDocs.Nodup := List.nodup_finRange 64

theorem mem_allDocs (d : Fin 64) : d ∈ allDocs := List.mem_finRange d

/-- Whether a document is in use, and whether it is building. -/
def DocRecord.useAndBuilding (r : DocRecord) : Bool × Bool := (r.inUse, r.building)

/-- Whether a document entry is in use, and whether it is building. -/
def State.docBuilding (s : State) (d : Fin 64) : Bool × Bool := (s.doc d).useAndBuilding

theorem State.printDue_building (s : State) (d e : Fin 64) : ((s.printDue d).doc e).useAndBuilding = (s.doc e).useAndBuilding := by
  have hset (o : PrintObligation) : ((s.setDoc d { s.doc d with obligation := o }).doc e).useAndBuilding = (s.doc e).useAndBuilding := by
    by_cases he : e = d
    · subst he
      rw [State.setDoc_doc_same]
      rfl
    · rw [State.setDoc_doc_of_ne he]
  have hqueue (l : List (Fin 64)) (t : State) : (t.setPrintQueue l).doc e = t.doc e := rfl
  unfold State.printDue State.joinPrintQueue
  dsimp only
  split
  · split
    · exact hset _
    · split
      · rw [State.doc_congr (State.raise_dispatch ..), hqueue]
        exact hset _
      · rw [hqueue]
        exact hset _
  · rfl

/-- The end of a document's building leaves whether another builds. -/
theorem State.endBuilding_building_of_ne (s : State) {d e : Fin 64} (he : e ≠ d) :
    ((s.endBuilding d).doc e).useAndBuilding = (s.doc e).useAndBuilding := by
  unfold State.endBuilding
  split
  · rw [State.setDoc_doc_of_ne he]
  · obtain ⟨b, hb⟩ := (((s.setDoc d { s.doc d with building := false }).printDue d).tellSenders d).checkComplete_doc d e
    have hdue := (s.setDoc d { s.doc d with building := false }).printDue_building d e
    rw [State.setDoc_doc_of_ne he] at hdue
    rw [hb, State.doc_congr (State.tellSenders_dispatch ..)]
    exact hdue

theorem State.resetDoc_building_of_ne (s : State) {d e : Fin 64} (he : e ≠ d) :
    ((s.resetDoc d).doc e).useAndBuilding = (s.doc e).useAndBuilding := by
  unfold State.resetDoc
  split
  · exact s.endBuilding_building_of_ne he
  · rfl

theorem State.resetDoc_ends (s : State) (d : Fin 64) (h : ((s.resetDoc d).doc d).inUse = true) :
    ((s.resetDoc d).doc d).building = false := by
  unfold State.resetDoc at h ⊢
  split
  · exact s.endBuilding_building d
  · next hnot =>
    rw [if_neg hnot] at h
    exact Bool.eq_false_iff.mpr fun hb => hnot ⟨h, hb⟩

/-! ## The start of teardown -/

theorem State.startTeardown_eq (s : State) :
    s.startTeardown = allDocs.foldl State.resetDoc (allLines.foldl State.resetLine s.pagesReset) := rfl

theorem State.startTeardown_closed (s : State) : s.startTeardown.StreamsClosed := by
  rw [State.startTeardown_eq]
  exact foldl_keeps _ _ (fun _ d h => h.resetDoc d) _ (foldl_keeps _ _ (fun _ n h => h.resetLine n) _ s.pagesReset_closed)

theorem State.startTeardown_lines (s : State) (n : Fin 4) : LineReset (s.callOf n) (s.startTeardown.callOf n) := by
  have hdocs : s.startTeardown.apart = (allLines.foldl State.resetLine s.pagesReset).apart := by
    rw [State.startTeardown_eq]
    exact foldl_apart _ State.resetDoc_apart _ _
  rw [State.callOf_of_calls (State.calls_of_apart hdocs), ← State.callOf_of_calls s.pagesReset_calls n]
  exact foldl_each State.callOf State.resetLine LineReset (fun s n m hm => s.resetLine_callOf_of_ne hm) State.resetLine_resets
    allLines_nodup (mem_allLines n) _

theorem State.startTeardown_docs (s : State) {d : Fin 64} (h : (s.startTeardown.doc d).inUse = true) :
    (s.startTeardown.doc d).building = false := by
  rw [State.startTeardown_eq] at h ⊢
  have hall := foldl_each State.docBuilding State.resetDoc (fun _ y => y.1 = true → y.2 = false)
    (fun s d e he => s.resetDoc_building_of_ne he) State.resetDoc_ends allDocs_nodup (mem_allDocs d)
    (allLines.foldl State.resetLine s.pagesReset)
  obtain ⟨v, hv⟩ : ∃ v, v = allDocs.foldl State.resetDoc (allLines.foldl State.resetLine s.pagesReset) := ⟨_, rfl⟩
  rw [← hv] at h hall ⊢
  exact hall h

/-! ## What the start of teardown leaves of the control unit, the store writes and the tariff -/

theorem State.stopped_plant (s : State) : ∃ holder, s.stopCommands.dropStoreWrites.plant = { s.plant with
    storeWrites := Table.replicate 5 none, holder := holder, teardown := some .storeWork, inProgress := none } := by
  obtain ⟨port, h⟩ := s.stopCommands_eq
  refine ⟨port.map (·.requester), ?_⟩
  rw [State.dropStoreWrites, h]
  rfl

/-- The reset input's assertion outside teardown. -/
theorem State.resetAsserted_none {s : State} (h : s.ctl.teardown = none) :
    s.resetAsserted = ({ s with resetInput := true } : State).startTeardown := by
  rw [State.resetAsserted]
  exact if_pos h

theorem State.resetAsserted_plant {s : State} (h : s.ctl.teardown = none) : ∃ holder, s.resetAsserted.plant = { s.plant with
    resetInput := true, storeWrites := Table.replicate 5 none, holder := holder, teardown := some .storeWork,
    inProgress := none } := by
  obtain ⟨holder, hstop⟩ := ({ s with resetInput := true } : State).stopped_plant
  exact ⟨holder, by rw [State.resetAsserted_none h, State.startTeardown_plant, hstop]; rfl⟩

/-- What the start of teardown does to the part. -/
structure State.TeardownStarted (s t : State) : Prop where
  plant : ∃ holder, t.plant = { s.plant with
    resetInput := true, storeWrites := Table.replicate 5 none, holder := holder, teardown := some .storeWork, inProgress := none }
  noSlotRead : t.NoSlotRead
  windows : ∀ w, t.window w = (s.window w).cleared
  streams : t.StreamsClosed
  lines : ∀ n, LineReset (s.callOf n) (t.callOf n)
  docs : ∀ d, (t.doc d).inUse = true → (t.doc d).building = false

theorem State.resetAsserted_starts {s : State} (h : s.ctl.teardown = none) : s.TeardownStarted s.resetAsserted := by
  have hplant := State.resetAsserted_plant h
  obtain ⟨v, hv⟩ : ∃ v, v = ({ s with resetInput := true } : State) := ⟨_, rfl⟩
  have hwindow (w : Fin 6) : v.window w = s.window w := by rw [hv]; rfl
  have hcall (n : Fin 4) : v.callOf n = s.callOf n := by rw [hv]; rfl
  rw [State.resetAsserted_none h, ← hv] at hplant ⊢
  obtain ⟨hqueue, hwindows⟩ := v.startTeardown_windows
  exact ⟨hplant, hqueue, fun w => by rw [hwindows w, hwindow w], v.startTeardown_closed,
    fun n => by rw [← hcall n]; exact v.startTeardown_lines n, fun _ => v.startTeardown_docs⟩

end Sys2Proof.Machine

/-! PROOF. The pages that reset teardown frees or closes (R81), the rewrite of the mirrors and the end (R40, R41): O6. -/

namespace Sys2Proof.Machine

/-! ## The pages being written, in order -/

theorem mem_insertByPage {x y : Fin 512 × Writer} {l : List (Fin 512 × Writer)} : y ∈ insertByPage x l ↔ y = x ∨ y ∈ l := by
  induction l with
  | nil => simp [insertByPage]
  | cons z l ih =>
    unfold insertByPage
    split
    · simp
    · simp only [List.mem_cons, ih]
      tauto

theorem insertByPage_sorted {x : Fin 512 × Writer} {l : List (Fin 512 × Writer)} (h : l.Pairwise (fun x y => x.1 ≤ y.1)) :
    (insertByPage x l).Pairwise (fun x y => x.1 ≤ y.1) := by
  induction l with
  | nil => exact List.pairwise_singleton ..
  | cons z l ih =>
    obtain ⟨hz, hl⟩ := List.pairwise_cons.mp h
    unfold insertByPage
    split
    · next hlt =>
      refine List.pairwise_cons.mpr ⟨fun y hy => ?_, h⟩
      obtain hyz | hyl := List.mem_cons.mp hy
      · rw [hyz]
        exact le_of_lt hlt
      · exact le_trans (le_of_lt hlt) (hz y hyl)
    · next hge =>
      refine List.pairwise_cons.mpr ⟨fun y hy => ?_, ih hl⟩
      obtain hyx | hyl := mem_insertByPage.mp hy
      · rw [hyx]
        exact Nat.le_of_not_lt hge
      · exact hz y hyl

theorem foldr_insertByPage_sorted (l : List (Fin 512 × Writer)) :
    (l.foldr insertByPage []).Pairwise (fun x y => x.1 ≤ y.1) := by
  induction l with
  | nil => exact List.Pairwise.nil
  | cons x l ih => exact insertByPage_sorted ih

theorem mem_foldr_insertByPage {x : Fin 512 × Writer} {l : List (Fin 512 × Writer)} : x ∈ l.foldr insertByPage [] ↔ x ∈ l := by
  induction l with
  | nil => rfl
  | cons y l ih => rw [List.foldr_cons, mem_insertByPage, ih, List.mem_cons]

theorem mem_allWriters (w : Writer) : w ∈ allWriters := by
  cases w with
  | scan => decide
  | line n => fin_cases n <;> decide

theorem State.mem_openPages {x : Fin 512 × Writer} {s : State} :
    x ∈ s.openPages ↔ ∃ h, (s.slot x.2).page = some h ∧ h.page = x.1 := by
  rw [State.openPages, mem_foldr_insertByPage, List.mem_filterMap]
  constructor
  · rintro ⟨w, -, hw⟩
    obtain ⟨h, hpage, rfl⟩ := Option.map_eq_some_iff.mp hw
    exact ⟨h, hpage, rfl⟩
  · rintro ⟨h, hpage, hx⟩
    refine ⟨x.2, mem_allWriters _, ?_⟩
    rw [hpage, Option.map_some, hx]

/-! ## The store manager's work on one page (R81) -/

section ResetPage

variable {w : Writer} {h : PageInHand} {s : State} (hpage : (s.slot w).page = some h)

include hpage

theorem State.resetPage_frees (hfrees : w ≠ .scan ∨ (s.page h.page).lineCount = 0) : s.resetPage (h.page, w) = s.freePage w := by
  cases w with
  | scan => exact if_pos (hfrees.resolve_left fun hne => hne rfl)
  | line n => rfl

omit hpage in
theorem State.resetPage_closes (hlines : (s.page h.page).lineCount ≠ 0) :
    s.resetPage (h.page, .scan) = s.closePage .scan { short := true } := if_neg hlines

/-- The reset of one page leaves every other page. -/
theorem State.resetPage_others {q : Fin 512} (hq : q ≠ h.page) : (s.resetPage (h.page, w)).page q = s.page q := by
  by_cases hfrees : w ≠ .scan ∨ (s.page h.page).lineCount = 0
  · obtain ⟨l, hfree⟩ := State.freePage_form hpage
    rw [State.resetPage_frees hpage hfrees, hfree]
    exact Table.get_set_of_ne _ _ hq.symm
  · obtain ⟨hscan, hlines⟩ := not_or.mp hfrees
    obtain rfl := not_not.mp hscan
    rw [State.resetPage_closes hlines]
    by_cases hclosing : (s.slot .scan).closing = none
    · obtain ⟨l, hclose⟩ := State.closePage_form (flags := { short := true }) hpage hclosing
      rw [hclose]
      exact Table.get_set_of_ne _ _ hq.symm
    · rw [State.closePage_asked hpage hclosing]
      rfl

theorem State.resetPage_freed (hfrees : w ≠ .scan ∨ (s.page h.page).lineCount = 0) :
    (s.resetPage (h.page, w)).page h.page = PageRecord.empty ∧
      (s.resetPage (h.page, w)).store.freeList = s.store.freeList ++ (s.page h.page).chain ∧
      (s.resetPage (h.page, w)).slot w = { s.slot w with writing := none } ∧
      (s.resetPage (h.page, w)).pageList (s.page h.page).document =
        (s.pageList (s.page h.page).document).filter (fun q => decide (q ≠ h.page)) := by
  obtain ⟨l, hfree⟩ := State.freePage_form hpage
  rw [State.resetPage_frees hpage hfrees, hfree]
  exact ⟨Table.get_set_self _ _ _, rfl, Table.get_set_self _ _ _, Table.get_set_self _ _ _⟩

end ResetPage

theorem State.resetPage_closed {h : PageInHand} {s : State} (hpage : (s.slot .scan).page = some h)
    (hlines : (s.page h.page).lineCount ≠ 0) (hclosing : (s.slot .scan).closing = none) :
    (s.resetPage (h.page, .scan)).page h.page =
        { s.page h.page with closing := true, short := true, byteCount := (s.page h.page).byteCount + 1 } ∧
      (s.resetPage (h.page, .scan)).store.freeList = s.store.freeList ∧
      (s.resetPage (h.page, .scan)).slot .scan =
        { writing := none, asked := none, closing := some { h with queued := h.queued ++ [0xF3] } } := by
  obtain ⟨l, hclose⟩ := State.closePage_form (flags := { short := true }) hpage hclosing
  simp only [Bool.or_true, Bool.or_false] at hclose
  rw [State.resetPage_closes hlines, hclose]
  exact ⟨Table.get_set_self _ _ _, rfl, Table.get_set_self _ _ _⟩

/-! ## Waiting for the store manager (R40, step 2) -/

theorem Writer.exists_index (i : Fin 5) : ∃ w : Writer, w.index = i := by
  fin_cases i
  · exact ⟨.scan, rfl⟩
  · exact ⟨.line 0, rfl⟩
  · exact ⟨.line 1, rfl⟩
  · exact ⟨.line 2, rfl⟩
  · exact ⟨.line 3, rfl⟩

theorem State.storeQuiet_iff (s : State) :
    s.storeQuiet = true ↔ ∀ w, (s.slot w).writing = none ∧ (s.slot w).closing = none := by
  rw [State.storeQuiet, Bool.not_eq_true', ← Bool.not_eq_true, Table.any_eq_true]
  constructor
  · intro hnone w
    have hw := not_exists.mp hnone w.index
    simp only [Bool.or_eq_true, not_or, Bool.not_eq_true, Option.isSome_eq_false_iff, Option.isNone_iff_eq_none] at hw
    exact ⟨hw.2, hw.1⟩
  · rintro hquiet ⟨i, hi⟩
    obtain ⟨w, rfl⟩ := Writer.exists_index i
    obtain ⟨hwriting, hclosing⟩ := hquiet w
    rw [State.slot] at hwriting hclosing
    rw [hwriting, hclosing] at hi
    cases hi

/-! ## The rewrite of the mirrors (R40, steps 3 and 4) -/

theorem State.clearNotices_all (s : State) :
    ∃ q, s.clearNotices (BitVec.allOnes 12) = { s with ctl := { s.ctl with notices := 0, queue := q } } := by
  unfold State.clearNotices
  split
  · next hnone =>
    rw [BitVec.and_allOnes] at hnone
    exact ⟨s.ctl.queue, by rw [← hnone]⟩
  · obtain ⟨q, hq, -⟩ := State.rewrite_form .statusWords
      ({ s with ctl := { s.ctl with notices := s.ctl.notices &&& ~~~(BitVec.allOnes 12) } } : State)
    refine ⟨q, hq.trans ?_⟩
    rw [BitVec.not_allOnes, BitVec.and_zero]
    rfl

theorem State.ringReset_form (s : State) : ∃ q, s.ringReset = { s with
    ctl := { s.ctl with head := 0, takenTail := 0, ring := .ready, notices := 0, queue := q } } ∧
      ∀ r, QueueEntry.record r ∈ q := by
  obtain ⟨v, hv⟩ : ∃ v : State, v = { s with ctl := { s.ctl with head := 0, takenTail := 0, ring := .ready } } := ⟨_, rfl⟩
  obtain ⟨q₁, hclear⟩ := v.clearNotices_all
  obtain ⟨q₂, hrewrite, -⟩ := State.rewrite_form .statusWords (v.clearNotices (BitVec.allOnes 12))
  have hreset : s.ringReset = ((v.clearNotices (BitVec.allOnes 12)).rewrite .statusWords).fullRewrite := by
    rw [hv]
    rfl
  refine ⟨s.ringReset.ctl.queue, ?_, fun r => ?_⟩
  · refine State.eq_of_bare ?_ rfl
    rw [hreset, hrewrite, hclear, hv]
    rfl
  · rw [hreset]
    exact State.mem_fullRewrite r _

theorem State.onPort_of_plant {s t : State} (h : t.plant = s.plant) (q : Requester) : t.onPort q = s.onPort q := by
  have hholder : t.path.port.map (·.requester) = s.path.port.map (·.requester) := congrArg Plant.holder h
  have hon (u : State) : u.onPort q = (u.path.port.map (·.requester)).any fun r => decide (r = q) := by
    rw [State.onPort]
    cases u.path.port <;> rfl
  rw [hon, hon, hholder]

/-! ## Teardown's advance (R40, R41) -/

theorem State.teardownAdvance_storeWork {s : State} (h : s.ctl.teardown = some .storeWork) :
    s.teardownAdvance = if s.storeQuiet = true then s.runDueArbiter.teardownRewrite else s := by
  rw [State.teardownAdvance, h]

theorem State.teardownAdvance_rewriting {s : State} {left : Nat} (h : s.ctl.teardown = some (.rewriting left)) :
    s.teardownAdvance =
      if left = 0 ∧ s.charge.recordQueue = [] ∧ s.mirrorsWritten = true ∧ s.resetInput = false then s.endTeardown else s := by
  rw [State.teardownAdvance, h]

/-- The rewrite of the mirrors: only the control unit changes, every record is queued, and the requests queued are counted. -/
theorem State.teardownRewrite_form (s : State) : ∃ q, s.teardownRewrite = { s with
    ctl := { s.ctl with
      head := 0, takenTail := 0, ring := .ready, notices := 0, queue := q,
      teardown := some (.rewriting (q.length + if s.onPort .control then 1 else 0)) } } ∧ ∀ r, QueueEntry.record r ∈ q := by
  obtain ⟨q, hreset, hall⟩ := s.ringReset_form
  refine ⟨q, ?_, hall⟩
  rw [State.teardownRewrite]
  dsimp only
  rw [hreset]
  rfl

/-- No rewrite is queued or on the port. -/
def State.RewritesDone (s : State) : Prop :=
  ∀ r, QueueEntry.record r ∉ s.ctl.queue ∧ ∀ p, s.path.port = some p → p.kind ≠ .recordWrite r

theorem QueueEntry.isRewrite_iff (e : QueueEntry) : e.isRewrite = true ↔ ∃ r, e = .record r := by
  cases e <;> simp [QueueEntry.isRewrite]

theorem PortKind.isMirrorWrite_iff (k : PortKind) : k.isMirrorWrite = true ↔ ∃ r, k = .recordWrite r := by
  cases k <;> simp [PortKind.isMirrorWrite]

theorem State.mirrorsWritten_iff (s : State) : s.mirrorsWritten = true ↔ s.RewritesDone := by
  have hqueue : s.ctl.queue.any QueueEntry.isRewrite = true ↔ ∃ r, QueueEntry.record r ∈ s.ctl.queue := by
    rw [List.any_eq_true]
    constructor
    · rintro ⟨e, hmem, he⟩
      obtain ⟨r, rfl⟩ := e.isRewrite_iff.mp he
      exact ⟨r, hmem⟩
    · rintro ⟨r, hmem⟩
      exact ⟨_, hmem, rfl⟩
  have hport : (s.path.port.any fun p => p.kind.isMirrorWrite) = true ↔ ∃ p r, s.path.port = some p ∧ p.kind = .recordWrite r := by
    simp only [Option.any_eq_true, PortKind.isMirrorWrite_iff]
    constructor
    · rintro ⟨p, hp, r, hr⟩
      exact ⟨p, r, hp, hr⟩
    · rintro ⟨p, r, hp, hr⟩
      exact ⟨p, hp, r, hr⟩
  rw [State.mirrorsWritten, Bool.and_eq_true, Bool.not_eq_true', Bool.not_eq_true', ← Bool.not_eq_true, ← Bool.not_eq_true, hqueue,
    hport]
  constructor
  · rintro ⟨hq, hp⟩ r
    exact ⟨fun hmem => hq ⟨r, hmem⟩, fun p hp' hr => hp ⟨p, r, hp', hr⟩⟩
  · intro hdone
    exact ⟨fun ⟨r, hmem⟩ => (hdone r).1 hmem, fun ⟨p, r, hp, hr⟩ => (hdone r).2 p hp hr⟩

/-- RESET is raised, the arbiter is asked for, and teardown is over. -/
theorem State.endTeardown_form (s : State) : ∃ q, s.endTeardown = { s with
    dispatch := { s.dispatch with arbiterDue := true },
    ctl := { s.ctl with teardown := none, queue := q, notices := s.ctl.notices ||| Notice.reset.bit } } := by
  obtain ⟨q, hraise, -⟩ := State.raise_form .reset ({ s with ctl := { s.ctl with teardown := none } } : State)
  refine ⟨q, ?_⟩
  rw [State.endTeardown, hraise]
  rfl

/-- Settles O6: the start by `State.resetAsserted_starts`, the pages by the rules of `State.resetPage`, the end by the cases of
teardown's advance. -/
theorem resetInputStartsTeardown : Obligations.ResetInputStartsTeardown := by
  unfold Obligations.ResetInputStartsTeardown
  refine ⟨fun s h => ?_, ⟨fun s h => ?_, fun s => rfl⟩, ⟨fun s => ⟨foldr_insertByPage_sorted _, fun x => State.mem_openPages⟩,
    fun w h s hpage => ?_⟩, fun s h => ?_, fun left s h => ?_⟩
  · obtain ⟨⟨holder, hplant⟩, hqueue, hwindows, hstreams, hlines, hdocs⟩ := State.resetAsserted_starts h
    refine ⟨s.resetAsserted, rfl, (congrArg Plant.resetInput hplant :), (congrArg Plant.teardown hplant :),
      (congrArg Plant.inProgress hplant :), hqueue, (congrArg Plant.engine hplant :), (congrArg Plant.mask hplant :),
      (congrArg Plant.ringErrors hplant :), (congrArg Plant.mem hplant :), fun i => ?_, fun w => ?_, hstreams.scan, hstreams.print,
      hstreams.lines, fun n => ?_, (congrArg Plant.grid hplant :), (congrArg Plant.calendar hplant :),
      (congrArg Plant.prefixes hplant :), (congrArg Plant.clock hplant :), (congrArg Plant.clockSet hplant :), hstreams.cause,
      fun n => (hlines n).2.2, hdocs⟩
    · have hwrites : s.resetAsserted.path.storeWrites = Table.replicate 5 none := (congrArg Plant.storeWrites hplant :)
      rw [hwrites, Table.get_replicate]
    · rw [hwindows w]
      exact ⟨rfl, rfl, rfl, rfl, rfl⟩
    · obtain ⟨hcall, hring, -⟩ := hlines n
      exact ⟨hcall, hring⟩
  · have hsame : s.resetAsserted = { s with resetInput := true } := if_neg h
    exact congrArg (fun t : State => Host.Outcome.next t.settleStep) hsame
  · intro r t
    refine ⟨fun q hq => State.resetPage_others hpage hq, State.resetPage_freed hpage, fun hw hlines hclosing => ?_⟩
    subst hw
    exact State.resetPage_closed hpage hlines hclosing
  · have hadvance := State.teardownAdvance_storeWork h
    refine ⟨s.storeQuiet_iff, fun hbusy => by rw [hadvance, hbusy]; rfl, fun hquiet => ?_⟩
    rw [hadvance, if_pos hquiet]
    obtain ⟨q, hform, hall⟩ := s.runDueArbiter.teardownRewrite_form
    have hplant := State.runDueArbiter_plant s
    have hon := State.onPort_of_plant hplant .control
    obtain ⟨v, hv⟩ : ∃ v, v = s.runDueArbiter := ⟨_, rfl⟩
    rw [← hv] at hform hplant hon ⊢
    refine ⟨v.teardownRewrite, rfl, ?_⟩
    rw [hform, hon]
    exact ⟨rfl, rfl, rfl, rfl, rfl, (congrArg Plant.mask hplant :), (congrArg Plant.engine hplant :),
      (congrArg Plant.ringErrors hplant :), (congrArg Plant.inProgress hplant :), hall, rfl⟩
  · intro written
    have hadvance := State.teardownAdvance_rewriting h
    refine ⟨fun hleft hrecords hwritten hinput => ?_, fun hwaits => ?_⟩
    · obtain ⟨q, hform⟩ := s.endTeardown_form
      rw [if_pos ⟨hleft, hrecords, s.mirrorsWritten_iff.mpr hwritten, hinput⟩] at hadvance
      exact ⟨s.endTeardown, hadvance, by rw [hform]⟩
    · rw [hadvance]
      refine if_neg fun ⟨hleft, hrecords, hmirrors, hinput⟩ => ?_
      obtain hl | hr | hw | hi := hwaits
      · exact hl hleft
      · exact hr hrecords
      · exact hw (s.mirrorsWritten_iff.mp hmirrors)
      · exact absurd (hi.symm.trans hinput) (by decide)

end Sys2Proof.Machine
